-- ==== Sys2Proof/Word.lean ====
section
/-! DEFINITION. The word types of the OZ9 and the small operand types that instructions carry (02 R25-R38). -/

namespace Sys2Proof

/-- A general register's contents, an address or a bundle (02 R25, R36). -/
abbrev Word := BitVec 64

/-- One word of a bundle (02 R25). -/
abbrev Half := BitVec 32

/-- One byte of memory. -/
abbrev Byte := BitVec 8

/-- The number of a general register x0-x15 (02 R34). -/
abbrev Reg := BitVec 4

/-- The even register of an even-odd pair, by half its number: `n` stands for x(2n):x(2n+1) (03 R61). -/
abbrev RegPair := BitVec 3

/-- The number of a predicate register p0-p7 (02 R34). -/
abbrev PredReg := BitVec 3

/-- The number of a slack-table entry k0-k7, also called a slack class (02 R34, R38). -/
abbrev SlackReg := BitVec 3

/-- The even register of a pair. -/
def RegPair.even (p : RegPair) : Reg := p ++ 0#1

/-- The odd register of a pair. -/
def RegPair.odd (p : RegPair) : Reg := p ++ 1#1

/-- The offset part of a memory operand (02 Table 2.4): `units` is off6 of the paired format in units of the
access size, `bytes` the signed byte offset of the lone format, `index` a register. -/
inductive Disp where
  | units (off6 : BitVec 6)
  | bytes (off : BitVec 32)
  | index (xi : Reg)
  deriving DecidableEq, Repr

/-- A memory operand of the formats C.M and C.ML (02 R34): base, offset, the non-blocking mark and the slack class. -/
structure MemOp where
  base : Reg
  disp : Disp
  nb   : Bool
  sc   : SlackReg
  deriving DecidableEq, Repr

/-- The fn field of PMK with the register that two of its values use (05 R100). -/
inductive PmkSpace where
  | ver
  | tlm (xb : Reg)
  | imm
  | peer (xb : Reg)
  deriving DecidableEq, Repr

/-- The fn field of PIDX with its registers: single registers, or the scaled pairs of `pidx.pair` (05 R102). -/
inductive PidxRegs where
  | one (xd xa : Reg)
  | pair (xd xa : RegPair)
  deriving DecidableEq, Repr

/-- The fields that PSET replaces (05 R103). -/
inductive PsetField where
  | fmt | blk | id | loc
  deriving DecidableEq, Repr

/-- The fields that PGET extracts (05 R103). -/
inductive PgetField where
  | fmt | blk | space | id | loc
  deriving DecidableEq, Repr

/-- The direction of FCVT.f16, its fn field (05 Table 5.7). -/
inductive F16Conv where
  | toF16 | toF32 | toF16Sat
  deriving DecidableEq, Repr

/-- The second source of a two-operand vector instruction (12 Table 12.3): an array pair, or a scalar under .sf or .si. -/
inductive VSrc where
  | array (xc : RegPair)
  | sf (xc : Reg)
  | si (xc : Reg)
  deriving DecidableEq, Repr

/-- The second source of a bitwise vector instruction (12 Table 12.3, R274): an array, or the low bits of a register. -/
inductive VBits where
  | array (xc : Reg)
  | sb (xc : Reg)
  deriving DecidableEq, Repr

/-- The scalar of VFILL, read as FP32 or, under .si, as an integer (12 Table 12.3). -/
inductive VScalar where
  | fp32 (xc : Reg)
  | si (xc : Reg)
  deriving DecidableEq, Repr

/-- The ordering classes of a fence (09 Table 9.3), in the order of their codes. -/
inductive FenceOrd where
  | acq | rel | ar | sc
  deriving DecidableEq, Repr

/-- The scopes of a fence (09 Table 9.1), in the order of their codes. -/
inductive Scope where
  | strand | tile | die | device | fabric
  deriving DecidableEq, Repr

/-- The combining operations of SYNCR, in the order of their codes (13 Table 13.7). -/
inductive SyncOp where
  | add | min | max | and | or | xor | fmin | fmax | fadd
  deriving DecidableEq, Repr

/-- The source of SLKSET: a register in the paired form, grains in the lone form (14 Table 14.12). -/
inductive SlkSrc where
  | reg (xa : Reg)
  | grains (g : BitVec 12)
  deriving DecidableEq, Repr

end Sys2Proof
end

