-- ==== Sys2Proof/Syntax.lean ====
section
/-! DEFINITION. The instructions and operations of the OZ9: one constructor for each row of the opcode table.
The first 288 kinds are issued by strands (03 Tables 3.2, 3.3); the others are the operations of the hardware's other agents
and of the world outside, each a whole step (95).  Register operands carry the roles of the assembly forms; what an operation
acts on is the record `Ev` of the state (log entry 4). -/

namespace Sys2Proof

/-- An instruction of a bundle, or an operation of another agent. -/
inductive Instr where
  /-- VADD (R266): Vector add, rounded once per element. -/
  | vadd (xd xa : Reg) (xb : RegPair) (src : VSrc)
  /-- VSUB (R266): Vector subtract. -/
  | vsub (xd xa : Reg) (xb : RegPair) (src : VSrc)
  /-- VMUL (R266): Vector multiply. -/
  | vmul (xd xa : Reg) (xb : RegPair) (src : VSrc)
  /-- VFMA (R266): Vector fused multiply-add into the destination. -/
  | vfma (xd xa : Reg) (xb : RegPair) (src : VSrc)
  /-- VMIN (R266): Vector minimum. -/
  | vmin (xd xa : Reg) (xb : RegPair) (src : VSrc)
  /-- VMAX (R266): Vector maximum. -/
  | vmax (xd xa : Reg) (xb : RegPair) (src : VSrc)
  /-- VABS (R266): Vector absolute value. -/
  | vabs (xd xa : Reg) (xb : RegPair)
  /-- VNEG (R266): Vector negate. -/
  | vneg (xd xa : Reg) (xb : RegPair)
  /-- VCLAMP (R266): Vector clamp between two FP32 bounds. -/
  | vclamp (xd xa : Reg) (xb : RegPair) (xc : Reg)
  /-- VCVT (R266): Vector format conversion. -/
  | vcvt (xd xa : Reg) (xb : RegPair)
  /-- VQNT (R267): Vector quantise by the exact quotient. -/
  | vqnt (xd : Reg) (xa xb : RegPair) (xc : Reg)
  /-- VDQ (R267): Vector dequantise by a multiplier. -/
  | vdq (xd xa : Reg) (xb : RegPair) (xc : Reg)
  /-- VMXS (R268): Writes OCP microscaling block scales. -/
  | vmxs (xd : Reg) (xa xb : RegPair)
  /-- VSUM (R269): Exact vector sum, rounded once. -/
  | vsum (xd xa : Reg) (xb : RegPair)
  /-- VAMAX (R269): Largest absolute value. -/
  | vamax (xd xa : Reg) (xb : RegPair)
  /-- VDOT (R269): Exact dot product, rounded once. -/
  | vdot (xd xa : Reg) (xb xc : RegPair)
  /-- VSCAN (R269): Inclusive or exclusive exact prefix sum. -/
  | vscan (xd xa : Reg) (xb : RegPair) (ex : Bool)
  /-- VEXP2 (R270): Correctly rounded 2 to the power a. -/
  | vexp2 (xd xa : Reg) (xb : RegPair)
  /-- VDIV (R270): Correctly rounded vector divide. -/
  | vdiv (xd xa : Reg) (xb : RegPair) (src : VSrc)
  /-- VSQRT (R270): Correctly rounded vector square root. -/
  | vsqrt (xd xa : Reg) (xb : RegPair)
  /-- VRSQ (R270): Correctly rounded reciprocal square root. -/
  | vrsq (xd xa : Reg) (xb : RegPair)
  /-- VCMP_EQ (R266): Vector equal compare to a bit array. -/
  | vcmpEq (xd xa : Reg) (xb : RegPair) (src : VSrc)
  /-- VCMP_LT (R266): Vector less-than compare to a bit array. -/
  | vcmpLt (xd xa : Reg) (xb : RegPair) (src : VSrc)
  /-- VCMP_LE (R266): Vector less-or-equal compare to a bit array. -/
  | vcmpLe (xd xa : Reg) (xb : RegPair) (src : VSrc)
  /-- VSEL (R266): Selects by the mask. -/
  | vsel (xd xa : Reg) (xb : RegPair) (src : VSrc)
  /-- VFILL (R266): Fills the destination with a scalar. -/
  | vfill (xd xa : Reg) (src : VScalar)
  /-- VIOTA (R266): Writes start + i × step. -/
  | viota (xd xa xc : Reg)
  /-- VGATH (R271): Gathers table elements by index. -/
  | vgath (xd xa : Reg) (xb : RegPair) (xc : Reg)
  /-- VSCAT (R271): Scatters elements into a table by index. -/
  | vscat (xd xa : Reg) (xb : RegPair) (xc : Reg)
  /-- VSORTK (R272): Stable key sort, with an optional permutation. -/
  | vsortk (xd xa xb : Reg) (perm : Option Reg)
  /-- VHIST (R273): Histogram into buckets. -/
  | vhist (xd xa xb xc : Reg) (clr : Bool)
  /-- VAND (R274): Bitwise AND of encodings. -/
  | vand (xd xa xb : Reg) (src : VBits)
  /-- VOR (R274): Bitwise OR of encodings. -/
  | vor (xd xa xb : Reg) (src : VBits)
  /-- VXOR (R274): Bitwise XOR of encodings. -/
  | vxor (xd xa xb : Reg) (src : VBits)
  /-- VANDN (R274): Bitwise AND NOT of encodings. -/
  | vandn (xd xa xb : Reg) (src : VBits)
  /-- VSHL (R274): Element shift left. -/
  | vshl (xd xa xb xc : Reg)
  /-- VSHR_Z (R274): Element logical shift right. -/
  | vshrZ (xd xa xb xc : Reg)
  /-- VSHR_S (R274): Element arithmetic shift right. -/
  | vshrS (xd xa xb xc : Reg)
  /-- MCFG (R236): Replaces the matrix configuration in queue order. -/
  | mcfg (xd xa : Reg)
  /-- MZERO (R249): Zeroes a block of tile-store cells. -/
  | mzero (xd xc : Reg)
  /-- LATB (R247): Loads a B panel into the latch front. -/
  | latb (xd : Reg) (xa : RegPair) (xc : Reg)
  /-- ROTB (R248): Rotates the latch front to the ring successor and takes the back as the new front. -/
  | rotb (xd : Reg) (k : SlackReg)
  /-- MST (R250): Stores tile-store cells to memory. -/
  | mst (xd xa xc : Reg) (k : SlackReg) (sat : Bool)
  /-- MLDC (R250): Loads tile-store cells from memory. -/
  | mldc (xd xa xc : Reg) (k : SlackReg)
  /-- MSCL (R252): Scales a block of tile-store cells. -/
  | mscl (xd xa xc : Reg) (s32 : Bool)
  /-- MMA_E4M3 (R244): Matrix multiply-accumulate with E4M3 operands. -/
  | mmaE4m3 (xd : Reg) (xa xb : RegPair) (xc : Reg) (ovw : Bool)
  /-- MMA_E5M2 (R244): Matrix multiply-accumulate with E5M2 operands. -/
  | mmaE5m2 (xd : Reg) (xa xb : RegPair) (xc : Reg) (ovw : Bool)
  /-- MMA_E3M2 (R244): Matrix multiply-accumulate with E3M2 operands. -/
  | mmaE3m2 (xd : Reg) (xa xb : RegPair) (xc : Reg) (ovw : Bool)
  /-- MMA_E2M3 (R244): Matrix multiply-accumulate with E2M3 operands. -/
  | mmaE2m3 (xd : Reg) (xa xb : RegPair) (xc : Reg) (ovw : Bool)
  /-- MMA_E2M1 (R244): Matrix multiply-accumulate with E2M1 operands. -/
  | mmaE2m1 (xd : Reg) (xa xb : RegPair) (xc : Reg) (ovw : Bool)
  /-- MMA_BF16 (R244): Matrix multiply-accumulate with BF16 operands. -/
  | mmaBf16 (xd : Reg) (xa xb : RegPair) (xc : Reg) (ovw : Bool)
  /-- MMA_F16 (R244): Matrix multiply-accumulate with FP16 operands. -/
  | mmaF16 (xd : Reg) (xa xb : RegPair) (xc : Reg) (ovw : Bool)
  /-- MMA_S8 (R244): Matrix multiply-accumulate with s8 operands. -/
  | mmaS8 (xd : Reg) (xa xb : RegPair) (xc : Reg) (ovw : Bool)
  /-- MMAL_E4M3 (R244): Multiply-accumulate with the latch as B, E4M3. -/
  | mmalE4m3 (xd : Reg) (xa : RegPair) (xc : Reg) (ovw : Bool)
  /-- MMAL_E5M2 (R244): Multiply-accumulate with the latch as B, E5M2. -/
  | mmalE5m2 (xd : Reg) (xa : RegPair) (xc : Reg) (ovw : Bool)
  /-- MMAL_E3M2 (R244): Multiply-accumulate with the latch as B, E3M2. -/
  | mmalE3m2 (xd : Reg) (xa : RegPair) (xc : Reg) (ovw : Bool)
  /-- MMAL_E2M3 (R244): Multiply-accumulate with the latch as B, E2M3. -/
  | mmalE2m3 (xd : Reg) (xa : RegPair) (xc : Reg) (ovw : Bool)
  /-- MMAL_E2M1 (R244): Multiply-accumulate with the latch as B, E2M1. -/
  | mmalE2m1 (xd : Reg) (xa : RegPair) (xc : Reg) (ovw : Bool)
  /-- MMAL_BF16 (R244): Multiply-accumulate with the latch as B, BF16. -/
  | mmalBf16 (xd : Reg) (xa : RegPair) (xc : Reg) (ovw : Bool)
  /-- MMAL_F16 (R244): Multiply-accumulate with the latch as B, FP16. -/
  | mmalF16 (xd : Reg) (xa : RegPair) (xc : Reg) (ovw : Bool)
  /-- MMAL_S8 (R244): Multiply-accumulate with the latch as B, s8. -/
  | mmalS8 (xd : Reg) (xa : RegPair) (xc : Reg) (ovw : Bool)
  /-- BR (R127): Jumps to the address in xa. -/
  | br (xa : Reg)
  /-- BRL (R127): Jumps to xa and writes the return address to x15. -/
  | brl (xa : Reg)
  /-- BRI (R127): Branches to a pc-relative bundle offset. -/
  | bri (off : BitVec 32)
  /-- BRLI (R127): Branches to a pc-relative offset and writes the return address to x15. -/
  | brli (off : BitVec 32)
  /-- LOOP (R127): Decrements xa and branches while the result is not zero. -/
  | loop (xa : Reg) (off : BitVec 32)
  /-- BEQ (R127): Branches when xa equals xb. -/
  | beq (xa xb : Reg) (off : BitVec 32)
  /-- BNE (R127): Branches when xa differs from xb. -/
  | bne (xa xb : Reg) (off : BitVec 32)
  /-- BLT_S (R127): Branches when xa is less than xb as signed values. -/
  | bltS (xa xb : Reg) (off : BitVec 32)
  /-- BLT_Z (R127): Branches when xa is less than xb as unsigned values. -/
  | bltZ (xa xb : Reg) (off : BitVec 32)
  /-- BGE_S (R127): Branches when xa is at least xb as signed values. -/
  | bgeS (xa xb : Reg) (off : BitVec 32)
  /-- BGE_Z (R127): Branches when xa is at least xb as unsigned values. -/
  | bgeZ (xa xb : Reg) (off : BitVec 32)
  /-- HALT_KEEP (R129): Ends the strand and places its BANKS mask in a keep entry with successor pc xa. -/
  | haltKeep (xa : Reg)
  /-- SIGCHK (R134): Compares the signature accumulator with the expected value, resets it, and traps on a mismatch. -/
  | sigchk (sig : BitVec 16)
  /-- SPAWN (R130): Pushes a copy of a 128-byte task record onto the bottom of the tile's deque. -/
  | spawn (xa xd : Reg)
  /-- JOIN (R131): Adds the strand to a membership set. -/
  | join (xa : Reg)
  /-- LEAVE (R131): Removes the strand from a membership set and applies the barrier rule again. -/
  | leave (xa : Reg)
  /-- GBAR (R131): Sets the strand's arrival bit in a set and sleeps it until the barrier completes. -/
  | gbar (xa : Reg)
  /-- WAITR (R132): Sleeps until one of the named registers is not pending, then writes the mask of those not pending. -/
  | waitr (xa xd : Reg)
  /-- MOVEAT (R133): Records a request to move the strand to another tile at a later commit. -/
  | moveat (xa xd : Reg) (k : SlackReg)
  /-- LD_S8 (R154): Loads a byte, sign-extended. -/
  | ldS8 (xd : Reg) (m : MemOp)
  /-- LD_Z8 (R154): Loads a byte, zero-extended. -/
  | ldZ8 (xd : Reg) (m : MemOp)
  /-- LD_S16 (R154): Loads 2 bytes, sign-extended. -/
  | ldS16 (xd : Reg) (m : MemOp)
  /-- LD_Z16 (R154): Loads 2 bytes, zero-extended. -/
  | ldZ16 (xd : Reg) (m : MemOp)
  /-- LD_S32 (R154): Loads 4 bytes, sign-extended. -/
  | ldS32 (xd : Reg) (m : MemOp)
  /-- LD_Z32 (R154): Loads 4 bytes, zero-extended. -/
  | ldZ32 (xd : Reg) (m : MemOp)
  /-- LD_64 (R154): Loads 8 bytes. -/
  | ld64 (xd : Reg) (m : MemOp)
  /-- ST_8 (R154): Stores the low byte of xd. -/
  | st8 (xd : Reg) (m : MemOp)
  /-- ST_16 (R154): Stores the low 2 bytes of xd. -/
  | st16 (xd : Reg) (m : MemOp)
  /-- ST_32 (R154): Stores the low 4 bytes of xd. -/
  | st32 (xd : Reg) (m : MemOp)
  /-- ST_64 (R154): Stores the 8 bytes of xd. -/
  | st64 (xd : Reg) (m : MemOp)
  /-- LDP (R155): Loads 16 bytes into an even-odd register pair. -/
  | ldp (xd : RegPair) (m : MemOp)
  /-- STP (R155): Stores an even-odd register pair as 16 bytes. -/
  | stp (xd : RegPair) (m : MemOp)
  /-- LDF (R156): Loads one element of the pointer's format and converts it to a register value. -/
  | ldf (xd : Reg) (m : MemOp)
  /-- STF (R156): Converts a register value and stores it as one element of the pointer's format. -/
  | stf (xd : Reg) (m : MemOp)
  /-- PREF (R157): Warms the translation cache or wakes a TLM bank, with no data access. -/
  | pref (m : MemOp)
  /-- LD_64_PI (R158): Loads 8 bytes at xb and then advances xb. -/
  | ld64Pi (xd : Reg) (m : MemOp)
  /-- ST_64_PI (R158): Stores 8 bytes at xb and then advances xb. -/
  | st64Pi (xd : Reg) (m : MemOp)
  /-- LDF_PI (R158): Loads one element at xb and then advances xb. -/
  | ldfPi (xd : Reg) (m : MemOp)
  /-- STF_PI (R158): Stores one element at xb and then advances xb. -/
  | stfPi (xd : Reg) (m : MemOp)
  /-- LDA_32 (R201): Loads 4 bytes as an acquire at device scope. -/
  | lda32 (xd : Reg) (m : MemOp)
  /-- LDA_64 (R201): Loads 8 bytes as an acquire at device scope. -/
  | lda64 (xd : Reg) (m : MemOp)
  /-- STL_32 (R201): Stores 4 bytes as a release at device scope. -/
  | stl32 (xd : Reg) (m : MemOp)
  /-- STL_64 (R201): Stores 8 bytes as a release at device scope. -/
  | stl64 (xd : Reg) (m : MemOp)
  /-- WAITV_EQ (R202): Sleeps until a word equals xb. -/
  | waitvEq (xd xa xb : Reg) (k : SlackReg)
  /-- WAITV_NE (R202): Sleeps until a word differs from xb. -/
  | waitvNe (xd xa xb : Reg) (k : SlackReg)
  /-- WAITV_GE_S (R202): Sleeps until a word is at least xb as a signed value. -/
  | waitvGeS (xd xa xb : Reg) (k : SlackReg)
  /-- WAITV_EQ_32 (R202): Sleeps until a 4-byte word equals the low 32 bits of xb. -/
  | waitvEq32 (xd xa xb : Reg) (k : SlackReg)
  /-- LRW_32 (R168): Requests a queued reservation on a word and sleeps until it is granted with the 4-byte value. -/
  | lrw32 (xd xa : Reg) (k : SlackReg)
  /-- LRW_64 (R168): Requests a queued reservation on a word and sleeps until it is granted with the 8-byte value. -/
  | lrw64 (xd xa : Reg) (k : SlackReg)
  /-- SCH_32 (R169): Stores 4 bytes and releases the reservation if the strand still holds it. -/
  | sch32 (pd : PredReg) (xa xb : Reg) (k : SlackReg)
  /-- SCH_64 (R169): Stores 8 bytes and releases the reservation if the strand still holds it. -/
  | sch64 (pd : PredReg) (xa xb : Reg) (k : SlackReg)
  /-- RLSV (R170): Releases a reservation without a write. -/
  | rlsv (pd : PredReg) (xa : Reg) (k : SlackReg)
  /-- AMO_ADD (R171): Atomically adds xb to an 8-byte word and returns the old value. -/
  | amoAdd (xd xa xb : Reg) (k : SlackReg)
  /-- AMO_AND (R171): Atomically ANDs xb into an 8-byte word and returns the old value. -/
  | amoAnd (xd xa xb : Reg) (k : SlackReg)
  /-- AMO_OR (R171): Atomically ORs xb into an 8-byte word and returns the old value. -/
  | amoOr (xd xa xb : Reg) (k : SlackReg)
  /-- AMO_XOR (R171): Atomically XORs xb into an 8-byte word and returns the old value. -/
  | amoXor (xd xa xb : Reg) (k : SlackReg)
  /-- AMO_MIN_S (R171): Atomically keeps the signed minimum and returns the old value. -/
  | amoMinS (xd xa xb : Reg) (k : SlackReg)
  /-- AMO_MAX_S (R171): Atomically keeps the signed maximum and returns the old value. -/
  | amoMaxS (xd xa xb : Reg) (k : SlackReg)
  /-- AMO_MIN_Z (R171): Atomically keeps the unsigned minimum and returns the old value. -/
  | amoMinZ (xd xa xb : Reg) (k : SlackReg)
  /-- AMO_MAX_Z (R171): Atomically keeps the unsigned maximum and returns the old value. -/
  | amoMaxZ (xd xa xb : Reg) (k : SlackReg)
  /-- AMO_SWAP (R171): Atomically swaps an 8-byte word with xb. -/
  | amoSwap (xd xa xb : Reg) (k : SlackReg)
  /-- AMO_ADD_32 (R171): Atomically adds xb to a 4-byte word and returns the old value. -/
  | amoAdd32 (xd xa xb : Reg) (k : SlackReg)
  /-- AMO_SWAP_32 (R171): Atomically swaps a 4-byte word with xb. -/
  | amoSwap32 (xd xa xb : Reg) (k : SlackReg)
  /-- CAS_32 (R172): Compares a 4-byte word with the expected value and, if they are equal, stores the new value. -/
  | cas32 (xd xa : Reg) (xb : RegPair) (k : SlackReg)
  /-- CAS_64 (R172): Compares an 8-byte word with the expected value and, if they are equal, stores the new value. -/
  | cas64 (xd xa : Reg) (xb : RegPair) (k : SlackReg)
  /-- AMO_FADD_F32 (R171): Atomically adds an FP32 value and returns the old value. -/
  | amoFaddF32 (xd xa xb : Reg) (k : SlackReg)
  /-- RED_ADD_S64 (R173): Posts an s64 sum contribution to an element. -/
  | redAddS64 (xa xb : Reg) (k : SlackReg)
  /-- RED_ADD_F32 (R173): Posts an exact FP32 sum contribution to an FP32 element. -/
  | redAddF32 (xa xb : Reg) (k : SlackReg)
  /-- RED_ADD_BF16 (R173): Posts an exact sum contribution to a BF16 element, which is rounded to nearest. -/
  | redAddBf16 (xa xb : Reg) (k : SlackReg)
  /-- RED_ADD_BF16_SR (R173): Posts an exact sum contribution to a BF16 element, which is rounded stochastically. -/
  | redAddBf16Sr (xa xb : Reg) (k : SlackReg)
  /-- RED_MIN_S64 (R173): Posts a signed minimum contribution. -/
  | redMinS64 (xa xb : Reg) (k : SlackReg)
  /-- RED_MAX_S64 (R173): Posts a signed maximum contribution. -/
  | redMaxS64 (xa xb : Reg) (k : SlackReg)
  /-- RED_MAX_F32 (R173): Posts an FP32 maximum contribution. -/
  | redMaxF32 (xa xb : Reg) (k : SlackReg)
  /-- RED_OR_64 (R173): Posts a bitwise OR contribution. -/
  | redOr64 (xa xb : Reg) (k : SlackReg)
  /-- FENCE (R200): Waits until the earlier items that its ordering class and scope order are performed. -/
  | fence (inv : Bool) (ord : FenceOrd) (scope : Scope)
  /-- CPSRC (R227): Writes the source pointer pair into the copy shadow registers. -/
  | cpsrc (xa : RegPair)
  /-- CPDST (R227): Writes the destination pointer pair into the copy shadow registers. -/
  | cpdst (xa : RegPair)
  /-- CPSHP (R227): Writes the copy shape word and the copy control word. -/
  | cpshp (xa xb : Reg)
  /-- CPSTR (R227): Writes the source and destination stride words. -/
  | cpstr (xa xb : Reg)
  /-- CPGO (R211): Snapshots the shadow registers, takes a transfer id and queues a copy transfer. -/
  | cpgo (xi xs : Reg) (k : SlackReg)
  /-- CPGO_MC (R212): Queues a copy that is multicast into a rectangle of tiles. -/
  | cpgoMc (xi xs xm : Reg) (k : SlackReg)
  /-- CPCAN (R222): Cancels a held copy transfer by id. -/
  | cpcan (pd : PredReg) (xa : Reg)
  /-- CPQRY (R223): Returns a snapshot of a transfer's state, or of the page-fetch list. -/
  | cpqry (xd xa : Reg)
  /-- PFL_ADD (R225): Adds an entry to the tile's page-fetch list. -/
  | pflAdd (pd : PredReg) (xa xb : Reg) (k : SlackReg)
  /-- PFL_CLR (R226): Removes every page-fetch entry whose fetch has not started. -/
  | pflClr (xd : Reg)
  /-- SEND (R333): Sends a message of up to 56 B to an inbox. -/
  | send (xa xb xc : Reg) (k : SlackReg)
  /-- SENDL (R333): Sends a message with explicit slack. -/
  | sendl (xd xa xb : Reg) (grains : BitVec 12)
  /-- RECV (R336): Takes the oldest available message and sleeps while none is available. -/
  | recv (xd xa xb : Reg)
  /-- RECV_NB (R336): Takes the oldest available message, or returns 0 at once. -/
  | recvNb (xd xa xb : Reg)
  /-- INPEEK (R338): Returns the next header word or the inbox counts without removing anything. -/
  | inpeek (xd xa : Reg)
  /-- TCON (R342): Contributes a scalar to a round of a tree group. -/
  | tcon (xa xb : Reg) (k : SlackReg)
  /-- TCON_V (R342): Contributes a 64-byte vector to a round of a tree group. -/
  | tconV (xa xb : Reg) (k : SlackReg)
  /-- TGET (R343): Takes the oldest tree result of a group and sleeps while none is present. -/
  | tget (xd xa xb : Reg)
  /-- TGRP (R340): Stages a tree group descriptor for the next superstep. -/
  | tgrp (xd xa : Reg)
  /-- TARM (R349): Arms a trigger cell with an arm word. -/
  | tarm (xa xb : Reg)
  /-- TOKEN (R346): Sends a token to a trigger cell. -/
  | token (xa : Reg) (k : SlackReg)
  /-- TCNT (R346): Adds an amount to a trigger counter, saturating. -/
  | tcnt (xa xb : Reg) (k : SlackReg)
  /-- TCLR (R349): Disarms a cell, clears its tokens and optionally clears its counter. -/
  | tclr (xa : Reg)
  /-- COLL_ALLRED (R351): Queues an all-reduce over the group's buffers. -/
  | collAllred (xd xa xb : Reg) (k : SlackReg)
  /-- COLL_BCAST (R351): Queues a broadcast from the root member. -/
  | collBcast (xd xa xb : Reg) (k : SlackReg)
  /-- COLL_ALLGAT (R351): Queues an all-gather. -/
  | collAllgat (xd xa xb : Reg) (k : SlackReg)
  /-- COLL_REDSC (R351): Queues a reduce-scatter. -/
  | collRedsc (xd xa xb : Reg) (k : SlackReg)
  /-- RPCFG (R376): Loads a repartition configuration record. -/
  | rpcfg (xa : Reg)
  /-- RPGO (R361): Queues a repartition with bucket splitters. -/
  | rpgo (xd : Reg) (xa : RegPair) (xb : Reg) (k : SlackReg)
  /-- RPGO_FINE (R366): Queues a repartition with refined splitters. -/
  | rpgoFine (xd : Reg) (xa : RegPair) (xb : Reg) (k : SlackReg)
  /-- RPSTAT (R377): Returns counts or splitters of the last repartition. -/
  | rpstat (xd xa : Reg)
  /-- SYNC (R300): Sleeps the strand for the superstep barrier and returns the next superstep number. -/
  | sync (xd : Reg)
  /-- SYNCR (R300): Like SYNC, and also contributes to a partition-wide reduction. -/
  | syncr (xd xa : Reg) (op : SyncOp)
  /-- VOTE (R301): Sets the tile's sticky abort vote when bit 0 of xa is set. -/
  | vote (xa : Reg)
  /-- SSNUM (R302): Reads the superstep number. -/
  | ssnum (xd : Reg)
  /-- UNDOQ (R303): Returns a snapshot of one superstep capacity resource. -/
  | undoq (xd xa : Reg)
  /-- BDEF (R304): Stages the device's barrier-tree entry. -/
  | bdef (xd xa : Reg)
  /-- SLKSET (R327): Writes an entry of the slack table. -/
  | slkset (k : SlackReg) (src : SlkSrc)
  /-- SLKGET (R328): Reads an entry of the slack table. -/
  | slkget (xd : Reg) (k : SlackReg)
  /-- SLKEV (R329): Reads, and optionally clears, an exhausted-event counter. -/
  | slkev (xd xa : Reg)
  /-- CSRR (R384): Reads a control register. -/
  | csrr (xd xa : Reg) (num : BitVec 12)
  /-- CSRW (R384): Writes or stages a control register and returns the old value. -/
  | csrw (xd xa : Reg) (num : BitVec 12)
  /-- CSRS (R384): Sets bits of a control register. -/
  | csrs (xd xa : Reg) (num : BitVec 12)
  /-- CSRC (R384): Clears bits of a control register. -/
  | csrc (xd xa : Reg) (num : BitVec 12)
  /-- TRAP (R389): Raises the software trap 0x164 with a 16-bit detail. -/
  | trap (detail : BitVec 16)
  /-- MAPT (R398): Writes one translation entry at a level and returns the entry it replaced. -/
  | mapt (xd xa xb : Reg) (k : SlackReg)
  /-- XINV (R399): Invalidates cached translations of a range at every station. -/
  | xinv (xa xb : Reg) (k : SlackReg)
  /-- GSTOP (R404): Stops or resumes a whole partition through the halt tree. -/
  | gstop (xa : Reg)
  /-- PWGIVE (R410): Stages a transfer of power stones to a device of the partition. -/
  | pwgive (xd xa xb : Reg) (k : SlackReg)
  /-- CLKEPOCH (R411): Stages a clock-epoch request for a later superstep. -/
  | clkepoch (xd xa xb : Reg)
  /-- ADD (R93): xd := xa + xb. -/
  | add (xd xa xb : Reg)
  /-- SUB (R93): xd := xa - xb. -/
  | sub (xd xa xb : Reg)
  /-- ADDI (R93): xd := xa + immediate. -/
  | addi (xd xa : Reg) (imm : BitVec 32)
  /-- MUL (R93): Low 64 bits of the product. -/
  | mul (xd xa xb : Reg)
  /-- MULI (R93): Low 64 bits of the product with an immediate. -/
  | muli (xd xa : Reg) (imm : BitVec 32)
  /-- MULH_S (R93): High 64 bits of the signed product. -/
  | mulhS (xd xa xb : Reg)
  /-- MULH_Z (R93): High 64 bits of the unsigned product. -/
  | mulhZ (xd xa xb : Reg)
  /-- DIV_S (R93): Signed quotient in the divide unit. -/
  | divS (xd xa xb : Reg)
  /-- DIV_Z (R93): Unsigned quotient in the divide unit. -/
  | divZ (xd xa xb : Reg)
  /-- REM_S (R93): Signed remainder in the divide unit. -/
  | remS (xd xa xb : Reg)
  /-- REM_Z (R93): Unsigned remainder in the divide unit. -/
  | remZ (xd xa xb : Reg)
  /-- AND (R94): Bitwise AND. -/
  | and (xd xa xb : Reg)
  /-- OR (R94): Bitwise OR. -/
  | or (xd xa xb : Reg)
  /-- XOR (R94): Bitwise XOR. -/
  | xor (xd xa xb : Reg)
  /-- ANDN (R94): xa AND NOT xb. -/
  | andn (xd xa xb : Reg)
  /-- ANDI (R94): AND with an immediate. -/
  | andi (xd xa : Reg) (imm : BitVec 32)
  /-- ORI (R94): OR with an immediate. -/
  | ori (xd xa : Reg) (imm : BitVec 32)
  /-- XORI (R94): XOR with an immediate. -/
  | xori (xd xa : Reg) (imm : BitVec 32)
  /-- SHL (R94): Shift left by a register. -/
  | shl (xd xa xb : Reg)
  /-- SHLI (R94): Shift left by an immediate. -/
  | shli (xd xa : Reg) (sh : BitVec 6)
  /-- SHR_Z (R94): Logical shift right by a register. -/
  | shrZ (xd xa xb : Reg)
  /-- SHRI_Z (R94): Logical shift right by an immediate. -/
  | shriZ (xd xa : Reg) (sh : BitVec 6)
  /-- SHR_S (R94): Arithmetic shift right by a register. -/
  | shrS (xd xa xb : Reg)
  /-- SHRI_S (R94): Arithmetic shift right by an immediate. -/
  | shriS (xd xa : Reg) (sh : BitVec 6)
  /-- ROT (R94): Rotate left by a register. -/
  | rot (xd xa xb : Reg)
  /-- ROTI (R94): Rotate left by an immediate. -/
  | roti (xd xa : Reg) (sh : BitVec 6)
  /-- MIN_S (R94): Signed minimum. -/
  | minS (xd xa xb : Reg)
  /-- MIN_Z (R94): Unsigned minimum. -/
  | minZ (xd xa xb : Reg)
  /-- MAX_S (R94): Signed maximum. -/
  | maxS (xd xa xb : Reg)
  /-- MAX_Z (R94): Unsigned maximum. -/
  | maxZ (xd xa xb : Reg)
  /-- ABS (R94): Absolute value. -/
  | abs (xd xa : Reg)
  /-- CLZ (R94): Count of leading zero bits. -/
  | clz (xd xa : Reg)
  /-- CTZ (R94): Count of trailing zero bits. -/
  | ctz (xd xa : Reg)
  /-- POPC (R94): Count of one bits. -/
  | popc (xd xa : Reg)
  /-- BSWAP (R94): Reverses the byte order. -/
  | bswap (xd xa : Reg)
  /-- BEXT_S (R95): Extracts a bit field, sign-extended. -/
  | bextS (xd xa : Reg) (p w1 : BitVec 6)
  /-- BEXT_Z (R95): Extracts a bit field, zero-extended. -/
  | bextZ (xd xa : Reg) (p w1 : BitVec 6)
  /-- BINS (R95): Inserts a bit field into xd. -/
  | bins (xd xa : Reg) (p w1 : BitVec 6)
  /-- SEXT_8 (R94): Sign-extends bits 7:0. -/
  | sext8 (xd xa : Reg)
  /-- SEXT_16 (R94): Sign-extends bits 15:0. -/
  | sext16 (xd xa : Reg)
  /-- SEXT_32 (R94): Sign-extends bits 31:0. -/
  | sext32 (xd xa : Reg)
  /-- MOVI (R96): Loads a sign-extended immediate. -/
  | movi (xd : Reg) (imm : BitVec 32)
  /-- MOVK (R96): Replaces one 16-bit lane of xd. -/
  | movk (xd : Reg) (lane : BitVec 2) (imm : BitVec 16)
  /-- MOVX (R96): Replaces the high word of xd. -/
  | movx (xd : Reg) (imm : BitVec 32)
  /-- SEL (R96): Selects xa or xb by a predicate. -/
  | sel (xd xa xb : Reg) (pc : PredReg)
  /-- PAND (R98): Predicate AND. -/
  | pand (pd pa pb : PredReg)
  /-- POR (R98): Predicate OR. -/
  | por (pd pa pb : PredReg)
  /-- PXOR (R98): Predicate XOR. -/
  | pxor (pd pa pb : PredReg)
  /-- PANDN (R98): Predicate AND NOT. -/
  | pandn (pd pa pb : PredReg)
  /-- PMOV (R98): Predicate move. -/
  | pmov (pd pa : PredReg)
  /-- PMK (R100): Builds a fat pointer from its parts. -/
  | pmk (xd xa xc : Reg) (sp : PmkSpace)
  /-- PADD (R101): Advances a pointer's location by a register byte count. -/
  | padd (xd xa xb : Reg)
  /-- PADDI (R101): Advances a pointer's location by an immediate byte count. -/
  | paddi (xd xa : Reg) (imm : BitVec 32)
  /-- PSET (R103): Replaces one field of a pointer. -/
  | pset (xd xa xb : Reg) (f : PsetField)
  /-- PGET (R103): Extracts one field of a pointer. -/
  | pget (xd xa : Reg) (f : PgetField)
  /-- PIDX (R102): Advances a pointer, or a scaled pair, by an element count. -/
  | pidx (r : PidxRegs) (xb : Reg)
  /-- FSGN_ABS (R107): Clears the FP32 sign bit. -/
  | fsgnAbs (xd xa : Reg)
  /-- FSGN_NEG (R107): Inverts the FP32 sign bit. -/
  | fsgnNeg (xd xa : Reg)
  /-- FSGN_COPY (R107): Copies the sign of xb onto xa. -/
  | fsgnCopy (xd xa xb : Reg)
  /-- FADD (R104): FP32 add, rounded once. -/
  | fadd (xd xa xb : Reg)
  /-- FSUB (R104): FP32 subtract. -/
  | fsub (xd xa xb : Reg)
  /-- FMUL (R104): FP32 multiply. -/
  | fmul (xd xa xb : Reg)
  /-- FFMA (R104): Fused multiply-add. -/
  | ffma (xd xa xb xc : Reg)
  /-- FFMS (R104): Fused multiply-subtract. -/
  | ffms (xd xa xb xc : Reg)
  /-- FNMA (R104): Negated fused multiply-add. -/
  | fnma (xd xa xb xc : Reg)
  /-- FNMS (R104): Negated fused multiply-subtract. -/
  | fnms (xd xa xb xc : Reg)
  /-- FDIV (R104): FP32 divide in the divide unit. -/
  | fdiv (xd xa xb : Reg)
  /-- FSQRT (R104): FP32 square root in the divide unit. -/
  | fsqrt (xd xa : Reg)
  /-- FMIN (R105): FP32 minimum. -/
  | fmin (xd xa xb : Reg)
  /-- FMAX (R105): FP32 maximum. -/
  | fmax (xd xa xb : Reg)
  /-- FCLASS (R107): Writes a one-hot class word. -/
  | fclass (xd xa : Reg)
  /-- FCMP_EQ (R106): FP32 equal compare to a predicate. -/
  | fcmpEq (pd : PredReg) (xa xb : Reg)
  /-- FCMP_LT (R106): FP32 less-than compare. -/
  | fcmpLt (pd : PredReg) (xa xb : Reg)
  /-- FCMP_LE (R106): FP32 less-or-equal compare. -/
  | fcmpLe (pd : PredReg) (xa xb : Reg)
  /-- FCMP_UN (R106): FP32 unordered test. -/
  | fcmpUn (pd : PredReg) (xa xb : Reg)
  /-- FCVT_F32_S32 (R108): s32 to FP32. -/
  | fcvtF32S32 (xd xa : Reg)
  /-- FCVT_S32_F32_RZ (R108): FP32 to s32 toward zero. -/
  | fcvtS32F32Rz (xd xa : Reg)
  /-- FCVT_S32_F32_RN (R108): FP32 to s32 to nearest. -/
  | fcvtS32F32Rn (xd xa : Reg)
  /-- FCVT_F32_Z32 (R108): z32 to FP32. -/
  | fcvtF32Z32 (xd xa : Reg)
  /-- FCVT_BF16_F32_RN (R108): FP32 to BF16 to nearest, optionally saturating. -/
  | fcvtBf16F32Rn (xd xa : Reg) (sat : Bool)
  /-- FCVT_BF16_F32_SR (R109): FP32 to BF16 with stochastic rounding. -/
  | fcvtBf16F32Sr (xd xa xb : Reg) (sat : Bool)
  /-- FCVT_F32_BF16 (R108): BF16 to FP32, exact. -/
  | fcvtF32Bf16 (xd xa : Reg)
  /-- FCVT_F16 (R108): Converts between FP32 and FP16 in the direction that fn selects. -/
  | fcvtF16 (xd xa : Reg) (f : F16Conv)
  /-- CMP_EQ (R97): Integer equal compare to a predicate. -/
  | cmpEq (pd : PredReg) (xa xb : Reg)
  /-- CMP_NE (R97): Integer not-equal compare. -/
  | cmpNe (pd : PredReg) (xa xb : Reg)
  /-- CMP_LT_S (R97): Signed less-than compare. -/
  | cmpLtS (pd : PredReg) (xa xb : Reg)
  /-- CMP_LT_Z (R97): Unsigned less-than compare. -/
  | cmpLtZ (pd : PredReg) (xa xb : Reg)
  /-- CMP_LE_S (R97): Signed less-or-equal compare. -/
  | cmpLeS (pd : PredReg) (xa xb : Reg)
  /-- CMP_LE_Z (R97): Unsigned less-or-equal compare. -/
  | cmpLeZ (pd : PredReg) (xa xb : Reg)
  /-- CMPI_EQ (R97): Equal compare with an immediate. -/
  | cmpiEq (pd : PredReg) (xa : Reg) (imm : BitVec 32)
  /-- CMPI_NE (R97): Not-equal compare with an immediate. -/
  | cmpiNe (pd : PredReg) (xa : Reg) (imm : BitVec 32)
  /-- CMPI_LT_S (R97): Signed less-than compare with an immediate. -/
  | cmpiLtS (pd : PredReg) (xa : Reg) (imm : BitVec 32)
  /-- CMPI_LT_Z (R97): Unsigned less-than compare with a zero-extended immediate. -/
  | cmpiLtZ (pd : PredReg) (xa : Reg) (imm : BitVec 32)
  /-- CMPI_LE_S (R97): Signed less-or-equal compare with an immediate. -/
  | cmpiLeS (pd : PredReg) (xa : Reg) (imm : BitVec 32)
  /-- NOP (R128): Issues with no effect. -/
  | nop
  /-- RET (R127): Jumps to x15. -/
  | ret
  /-- YIELD (R128): Makes the strand sleep for 16 cycles. -/
  | yield
  /-- HALT (R129): Ends the strand once none of its registers is pending, and frees its slot. -/
  | halt
  /-- TASKEND (R129): Ends the task's strand, frees the slot and increments DQDONE. -/
  | taskend
  /-- ABORT (R301): Records cause 0x0E9, casts an immediate abort and stops the tile's issue. -/
  | abort
  /-- ERET (R388): Restores x12-x15 and SSTAT from the trap frame and resumes at EPC. -/
  | eret
  /-- IDLE (R390): Sleeps until a message, a tree result or an asynchronous cause is available. -/
  | idle
  /-- YIELD_WAKE (R128): The 16-cycle sleep of YIELD expires and the strand becomes eligible again. -/
  | yieldWake
  /-- WAITR_WAKE (R132): A named register stops being pending, and the sleeping WAITR writes its mask. -/
  | waitrWake
  /-- MOVEAT_ARRIVAL (R133): A moved context arrives and the strand resumes in the lowest free slot of the target tile. -/
  | moveatArrival
  /-- WAITV_MONITOR_FREE (R204): A monitor frees, and a WAITV waiting for one takes it in least-slack order. -/
  | waitvMonitorFree
  /-- RESERVATION_GRANT (R165): A station grants a word to the head of its queue and returns the value read. -/
  | reservationGrant
  /-- RESERVATION_REVOKE_TIMEOUT (R167): A reservation expires 4,096 grains after its grant and is revoked by the station. -/
  | reservationRevokeTimeout
  /-- COPY_CHUNK_START (R215): The copy engine chooses the next 2 KiB chunk by deficit round-robin and starts it. -/
  | copyChunkStart
  /-- COPY_CHUNK_ACK (R215): Every write of a chunk is acknowledged, and the chunk stops being in flight. -/
  | copyChunkAck
  /-- COPY_TRANSFER_END (R213): A transfer's status word is written once no chunk of it remains in flight. -/
  | copyTransferEnd
  /-- INPUT_FETCH_START (R119): The copy engine starts the input copies of a record among the 4 bottom-most. -/
  | inputFetchStart
  /-- PAGE_FETCH_START (R224): A page-fetch entry takes a command entry and starts as a transfer. -/
  | pageFetchStart
  /-- MESSAGE_ARRIVAL (R334): A message reaches the target's inbox port and is accepted when an entry is free. -/
  | messageArrival
  /-- MESSAGE_ACCEPT (R334): A message that waited at the port is accepted once an inbox entry frees. -/
  | messageAccept
  /-- HELD_MESSAGE_SEND (R335): After OPEN, committed messages to another partition are sent with slack 4,095. -/
  | heldMessageSend
  /-- TREE_CONTRIBUTION_COMBINE (R341): A tree node combines an arriving contribution into its round. -/
  | treeContributionCombine
  /-- TREE_ROUND_COMPLETE (R342): The root holds one contribution from every member, rounds once and sends the result down. -/
  | treeRoundComplete
  /-- TREE_RESULT_DELIVERY (R343): A round result enters a member's tree result queue when the queue has room. -/
  | treeResultDelivery
  /-- TOKEN_ARRIVAL (R346): A token sets its bit of GOT in the target cell, or increments TDUP. -/
  | tokenArrival
  /-- COUNTER_ARRIVAL (R346): A counter increment reaches the target tile and is added with saturation. -/
  | counterArrival
  /-- TRIGGER_FIRE (R347): The tile fires the due cell with the least key and issues its stored command. -/
  | triggerFire
  /-- COLLECTIVE_COMPLETE (R354): A member's collective completes with its result buffer and a status word. -/
  | collectiveComplete
  /-- REPARTITION_START (R364): A repartition command starts, keys its items and contributes its histogram. -/
  | repartitionStart
  /-- REPARTITION_HISTOGRAM_RESULT (R365): The reduced histogram arrives, and the member computes its splitters. -/
  | repartitionHistogramResult
  /-- REPARTITION_ITEM_ARRIVAL (R367): Item records reach their owner, which accepts them up to CAP in canonical order. -/
  | repartitionItemArrival
  /-- REPARTITION_COMPLETE (R368): The repartition ends with the refused items returned and a status word. -/
  | repartitionComplete
  /-- TILE_ARRIVE (R281): A tile meets every arrival condition and sends its ARRIVE with its vote. -/
  | tileArrive
  /-- ARRIVE_RECEIPT (R285): A barrier node combines a child's ARRIVE and forwards once it holds every input. -/
  | arriveReceipt
  /-- ROOT_DECIDE (R287): The root, holding every input, sends DECIDE: commit or abort. -/
  | rootDecide
  /-- COMMIT_APPLY (R288): A tile or station applies a commit DECIDE and sends DONE. -/
  | commitApply
  /-- ABORT_APPLY (R289): A tile or station restores state at open for an abort DECIDE, then sends DONE. -/
  | abortApply
  /-- DONE_RECEIPT (R287): A node forwards DONE, and the root holding every DONE sends OPEN or SAVE. -/
  | doneReceipt
  /-- OPEN_RECEIPT (R288): A tile takes its snapshot, starts the KEEP copy and wakes its strands. -/
  | openReceipt
  /-- SAVE_FIRKIN (R296): On SAVE each tile writes its slot of the firkin. -/
  | saveFirkin
  /-- FIRKIN_RESTORE (R297): A firkin is checked and written into a rectangle of the same shape, and the superstep opens. -/
  | firkinRestore
  /-- XINV_COMPLETE (R399): Every station has acknowledged an XINV. -/
  | xinvComplete
  /-- GANG_STOP_ARRIVAL (R405): A stop reaches a tile, which stops issue and records GSCYC, GSSENT and GSRECV. -/
  | gangStopArrival
  /-- GANG_RESUME (R405): A resume restarts issue, releases any held OPEN and makes the entry resident. -/
  | gangResume
  /-- STONES_ARRIVAL (R410): Stones reach the target device, which keeps what R24 allows and returns the rest. -/
  | stonesArrival
  /-- DIVIDE_COMPLETE (R91): A divide-unit operation ends its occupancy, writes its result and clears the pending bit. -/
  | divideComplete
  /-- VECTOR_COMMAND_START (R256): A vector command starts once the command ahead of it has performed its accesses and written its status. -/
  | vectorCommandStart
  /-- VECTOR_COMMAND_COMPLETE (R264): A vector command writes its status word. -/
  | vectorCommandComplete
  /-- ROTB_PANEL_ARRIVAL (R248): A predecessor's panel fills this tile's empty latch back. -/
  | rotbPanelArrival
  /-- MATRIX_COMMAND_START (R228): A matrix command starts in the cycle after the command ahead of it writes its status, and makes its start checks. -/
  | matrixCommandStart
  /-- MATRIX_COMMAND_COMPLETE (R230): A matrix command writes its status word. -/
  | matrixCommandComplete
  /-- BUNDLE_FETCH (R117): A bundle is fetched through translation, or the fetch traps. -/
  | bundleFetch
  /-- TASK_POP (R113): A free slot pops the bottom ready record and becomes live. -/
  | taskPop
  /-- STEAL_REQUEST (R122): An idle tile sends a steal request to the next victim in spiral order. -/
  | stealRequest
  /-- STEAL_REQUEST_SERVICE (R122): A victim answers a steal request with an eligible record or an empty reply. -/
  | stealRequestService
  /-- STEAL_REPLY (R122): A stolen record arrives and is pushed at the bottom of the thief's deque. -/
  | stealReply
  /-- STEAL_BACKOFF_EXPIRY (R122): The 256-grain wait after an empty spiral ends, and stealing restarts from ring 1. -/
  | stealBackoffExpiry
  /-- BANK_RETENTION_ENTRY (R125): An unused bank idle for 4,096 cycles enters retention. -/
  | bankRetentionEntry
  /-- BANK_WAKE (R125): A bank in retention finishes its 64-cycle wake, and the waiting access proceeds. -/
  | bankWake
  /-- REMOTE_ACCESS_SERVICE (R163): A target tile port or home station performs an arriving request and replies. -/
  | remoteAccessService
  /-- TRANSLATION_WALK (R146): A station walker completes a table walk for a missed page. -/
  | translationWalk
  /-- FORWARDED_ACCESS (R145): A home station receives an access that a translating station forwarded. -/
  | forwardedAccess
  /-- REPLY_ARRIVAL (R148): A reply or acknowledgement reaches the source, writing the destination or marking a fault. -/
  | replyArrival
  /-- DEFERRED_FAULT_TRAP (R148): A recorded non-blocking fault is taken before the first bundle that meets it. -/
  | deferredFaultTrap
  /-- PACKET_GRANT (R315): An output arbiter grants the least-slack candidate and deducts queue time from its slack. -/
  | packetGrant
  /-- REJECT_NOTICE_ARRIVAL (R309): A reject notice completes the access at its source as a fault with 0x101. -/
  | rejectNoticeArrival
  /-- PATH_LOST_NOTICE (R323): A path-lost notice makes the source retransmit, or record 0x102 and abort. -/
  | pathLostNotice
  /-- TRAP_ENTRY (R385): Once x12-x15 are not pending, writes the trap frame and enters the handler at TVEC. -/
  | trapEntry
  /-- ASYNC_CAUSE_TAKEN (R387): A held asynchronous cause is taken before the strand's next bundle. -/
  | asyncCauseTaken
  /-- SLICE_TIMER_EXPIRY (R402): A resident entry's slice reaches SLICE µs, which ends the slice and starts the deadline. -/
  | sliceTimerExpiry
  /-- PREEMPT_DEADLINE_EXPIRY (R402): No commit came within LIMIT µs, so the partition is force-aborted with 0x0EA. -/
  | preemptDeadlineExpiry
  /-- ENTRY_MAKE_RESIDENT (R435): The device makes the next ready entry of a free region resident, by restore or afresh. -/
  | entryMakeResident
  /-- LAUNCH_SLOT_WRITE (R417): The host write that carries byte 0x7F hands a launch record to its slot, which checks and queues it. -/
  | launchSlotWrite
  /-- LAUNCH_START (R421): An eligible launch initialises every tile of the rectangle and pushes the first task. -/
  | launchStart
  /-- DIRECTORY_ENTRY_WRITE (R433): The host writes a directory entry with VALID, and the device checks it and writes DRES. -/
  | directoryEntryWrite
  /-- REGION_HEADER_WRITE (R435): The host writes a region header, and the device accepts it or sets REFUSED. -/
  | regionHeaderWrite
  /-- CONTEXT_ENTRY_WRITE (R435): The host writes a context-list entry, or the write is discarded. -/
  | contextEntryWrite
  /-- CONTEXT_KICK (R402): The host writes KICK, which ends a resident entry's slice at once. -/
  | contextKick
  /-- BAR4_READ (R415): A host read through BAR 4 is translated and served from committed memory. -/
  | bar4Read
  /-- BAR4_WRITE (R415): A host write through BAR 4 is translated and performed on committed memory, or held. -/
  | bar4Write
  /-- INTERRUPT_CAUSE_CLEAR (R423): The host clears interrupt cause bits by writing 1s. -/
  | interruptCauseClear
  /-- HOST_REGISTER_WRITE (R414): A host write to a window register with no behaviour of its own, such as the mask or HWBASE. -/
  | hostRegisterWrite
  /-- GET_VERSION (R427): Answers an SPDM GET_VERSION request. -/
  | getVersion
  /-- GET_CAPABILITIES (R427): Answers an SPDM GET_CAPABILITIES request. -/
  | getCapabilities
  /-- NEGOTIATE_ALGORITHMS (R427): Answers SPDM NEGOTIATE_ALGORITHMS with RSAPSS_4096 and SHA_512. -/
  | negotiateAlgorithms
  /-- GET_DIGESTS (R427): Returns certificate chain digests. -/
  | getDigests
  /-- GET_CERTIFICATE (R427): Returns the slot-0 certificate chain. -/
  | getCertificate
  /-- CHALLENGE (R427): Signs an SPDM challenge with the device identity key. -/
  | challenge
  /-- GET_MEASUREMENTS (R427): Returns SHA-512 measurement blocks 1-4. -/
  | getMeasurements
  /-- DEVICE_RESET (R424): After reset the Perroed controller runs the boot phases in order. -/
  | deviceReset
  /-- DISCOVERY_FLOOD (R450): The boot tile's router floods discovery and writes the discovery record. -/
  | discoveryFlood
  /-- DISCOVERY_TIMEOUT (R450): A good tile gives no answer within 4,096 cycles, which ends phase 4 with BOOTERR 0x0004. -/
  | discoveryTimeout
  /-- MAP_INSTALL_REQUEST (R452): The controller sees REQ, then installs or refuses the L2P map and writes ACK. -/
  | mapInstallRequest
  /-- PWRBAL_WRITE (R428): A write of the power balance within 600 to PWRMAX, or its refusal. -/
  | pwrbalWrite
  /-- POWER_AVERAGE_UPDATE (R428): PWRAVG is updated every 10 µs. -/
  | powerAverageUpdate
  /-- DUTY_RECOMPUTE (R429): Every 10 µs the issue duty D is recomputed from PWRBAL and PWRAVG. -/
  | dutyRecompute
  /-- ENERGY_INTERVAL (R431): Each 10 µs interval's energy is charged to the partition, launch and tenant counters. -/
  | energyInterval
  /-- SCRUB_SECTOR (R407): A scrubber reads, corrects and conditionally writes back a 32-byte sector. -/
  | scrubSector
  /-- TILE_LOST (R409): A tile fails with uncorrectable data, is sealed, and its die root casts an abort. -/
  | tileLost
  /-- RAIL_SLICE_ERROR (R319): A rail slice fails its CRC and is rebuilt from parity, or its flit is replayed. -/
  | railSliceError
  /-- RAIL_LOST (R321): A rail loses lane lock or fails 16 consecutive slices, which degrades or downs the link. -/
  | railLost
  /-- PAUSE (R321): An LKCTL command that drains the link toward PAUSED. -/
  | pause
  /-- RESUME (R321): An LKCTL command that returns a paused link to ACTIVE or DEGRADED. -/
  | resume
  /-- REPAIR (R321): An LKCTL command that remaps a failed lane to a spare. -/
  | repair
  /-- RETRAIN (R321): An LKCTL command that retrains one module at a given width. -/
  | retrain
  /-- CLRERR (R321): An LKCTL command that clears a rail's ERRS. -/
  | clrerr
  /-- LINK_COMMAND_COMPLETE (R321): A running link command finishes after draining or training, sets CSTAT and raises 0x107. -/
  | linkCommandComplete
  /-- LINK_EVENT_DELIVERY (R323): A link event goes to slot 0 of the service tile, or wakes slot 15 there. -/
  | linkEventDelivery
  /-- KEEP_COPY_COMPLETE (R234): The 64-cycle copy of tile-store rows 0-63 into rows 64-127 ends, and the matrix commands and TS-end copy chunks held behind it may proceed. -/
  | keepCopyComplete
  /-- OWN_TLM_LOAD_RETURN (R151): An own-TLM load returns its data at least 4 cycles after issue, writes the destination and clears its pending bit. -/
  | ownTlmLoadReturn
  /-- PACKET_ARRIVAL (R314): A packet arrives at a port's VC queue after its wire time and is stamped with GCLK, or is discarded as a link error when its LEN, TEN or VC is invalid. -/
  | packetArrival
  /-- RECEIVE_BUFFER_ENTRY_RETIRED (R322): A link receive-buffer entry is retired for an uncorrectable error, which lowers B and can change the row of Table 14.9 or take the link down. -/
  | receiveBufferEntryRetired
  /-- MEMORY_BIT_ERROR (R407): A correctable or uncorrectable ECC error arises in a word of TLM, the undo area, the tile store or HBM. -/
  | memoryBitError
  deriving DecidableEq, Repr

end Sys2Proof
end

