-- ==== Sys2Proof/WellFormed.lean ====
section
/-! DEFINITION. Bundles, and which of them are well formed: the limits on operands and forms that the encodings set
(02 R25-R34, 03 R58-R61). -/

namespace Sys2Proof

/-- The two opcode spaces (03 R53). -/
inductive OpSpace where
  | c | a
  deriving DecidableEq, Repr

/-- A guard: a predicate register, and whether its value is inverted (02 R29). -/
structure Guard where
  p   : PredReg
  neg : Bool
  deriving DecidableEq, Repr

/-- A bundle (02 R26, R27). -/
inductive Bundle where
  | paired (stall : BitVec 4) (gc : Guard) (c : Instr) (ga : Guard) (a : Instr)
  | lone (stall : BitVec 4) (g : Guard) (i : Instr)
  deriving DecidableEq, Repr

/-- The opcode space of an instruction; none for an operation of another agent, which no bundle holds (03 Tables 3.2, 3.3). -/
def Instr.space : Instr → Option OpSpace
  | .nop | .br .. | .brl .. | .bri .. | .brli .. | .ret | .loop .. | .beq .. | .bne .. | .bltS .. | .bltZ .. |
    .bgeS .. | .bgeZ .. | .yield | .halt | .haltKeep .. | .sigchk .. | .spawn .. | .taskend | .join .. | .leave .. |
    .gbar .. | .waitr .. | .moveat .. | .ldS8 .. | .ldZ8 .. | .ldS16 .. | .ldZ16 .. | .ldS32 .. | .ldZ32 .. |
    .ld64 .. | .st8 .. | .st16 .. | .st32 .. | .st64 .. | .ldp .. | .stp .. | .ldf .. | .stf .. | .pref .. |
    .ld64Pi .. | .st64Pi .. | .ldfPi .. | .stfPi .. | .lda32 .. | .lda64 .. | .stl32 .. | .stl64 .. | .waitvEq .. |
    .waitvNe .. | .waitvGeS .. | .waitvEq32 .. | .lrw32 .. | .lrw64 .. | .sch32 .. | .sch64 .. | .rlsv .. |
    .amoAdd .. | .amoAnd .. | .amoOr .. | .amoXor .. | .amoMinS .. | .amoMaxS .. | .amoMinZ .. | .amoMaxZ .. |
    .amoSwap .. | .amoAdd32 .. | .amoSwap32 .. | .cas32 .. | .cas64 .. | .amoFaddF32 .. | .redAddS64 .. |
    .redAddF32 .. | .redAddBf16 .. | .redAddBf16Sr .. | .redMinS64 .. | .redMaxS64 .. | .redMaxF32 .. | .redOr64 .. |
    .fence .. | .cpsrc .. | .cpdst .. | .cpshp .. | .cpstr .. | .cpgo .. | .cpgoMc .. | .cpcan .. | .cpqry .. |
    .pflAdd .. | .pflClr .. | .send .. | .sendl .. | .recv .. | .recvNb .. | .inpeek .. | .tcon .. | .tconV .. |
    .tget .. | .tgrp .. | .tarm .. | .token .. | .tcnt .. | .tclr .. | .collAllred .. | .collBcast .. |
    .collAllgat .. | .collRedsc .. | .rpcfg .. | .rpgo .. | .rpgoFine .. | .rpstat .. | .sync .. | .syncr .. |
    .vote .. | .abort | .ssnum .. | .undoq .. | .bdef .. | .slkset .. | .slkget .. | .slkev .. | .csrr .. | .csrw .. |
    .csrs .. | .csrc .. | .trap .. | .eret | .idle | .mapt .. | .xinv .. | .gstop .. | .pwgive .. | .clkepoch .. =>
    some .c
  | .add .. | .sub .. | .addi .. | .mul .. | .muli .. | .mulhS .. | .mulhZ .. | .divS .. | .divZ .. | .remS .. |
    .remZ .. | .and .. | .or .. | .xor .. | .andn .. | .andi .. | .ori .. | .xori .. | .shl .. | .shli .. | .shrZ .. |
    .shriZ .. | .shrS .. | .shriS .. | .rot .. | .roti .. | .minS .. | .minZ .. | .maxS .. | .maxZ .. | .abs .. |
    .clz .. | .ctz .. | .popc .. | .bswap .. | .bextS .. | .bextZ .. | .bins .. | .sext8 .. | .sext16 .. |
    .sext32 .. | .movi .. | .movk .. | .movx .. | .sel .. | .pand .. | .por .. | .pxor .. | .pandn .. | .pmov .. |
    .pmk .. | .padd .. | .paddi .. | .pset .. | .pget .. | .pidx .. | .fsgnAbs .. | .fsgnNeg .. | .fsgnCopy .. |
    .fadd .. | .fsub .. | .fmul .. | .ffma .. | .ffms .. | .fnma .. | .fnms .. | .fdiv .. | .fsqrt .. | .fmin .. |
    .fmax .. | .fclass .. | .fcmpEq .. | .fcmpLt .. | .fcmpLe .. | .fcmpUn .. | .fcvtF32S32 .. | .fcvtS32F32Rz .. |
    .fcvtS32F32Rn .. | .fcvtF32Z32 .. | .fcvtBf16F32Rn .. | .fcvtBf16F32Sr .. | .fcvtF32Bf16 .. | .fcvtF16 .. |
    .cmpEq .. | .cmpNe .. | .cmpLtS .. | .cmpLtZ .. | .cmpLeS .. | .cmpLeZ .. | .cmpiEq .. | .cmpiNe .. |
    .cmpiLtS .. | .cmpiLtZ .. | .cmpiLeS .. | .vadd .. | .vsub .. | .vmul .. | .vfma .. | .vmin .. | .vmax .. |
    .vabs .. | .vneg .. | .vclamp .. | .vcvt .. | .vqnt .. | .vdq .. | .vmxs .. | .vsum .. | .vamax .. | .vdot .. |
    .vscan .. | .vexp2 .. | .vdiv .. | .vsqrt .. | .vrsq .. | .vcmpEq .. | .vcmpLt .. | .vcmpLe .. | .vsel .. |
    .vfill .. | .viota .. | .vgath .. | .vscat .. | .vsortk .. | .vhist .. | .vand .. | .vor .. | .vxor .. |
    .vandn .. | .vshl .. | .vshrZ .. | .vshrS .. | .mcfg .. | .mzero .. | .latb .. | .rotb .. | .mst .. | .mldc .. |
    .mscl .. | .mmaE4m3 .. | .mmaE5m2 .. | .mmaE3m2 .. | .mmaE2m3 .. | .mmaE2m1 .. | .mmaBf16 .. | .mmaF16 .. |
    .mmaS8 .. | .mmalE4m3 .. | .mmalE5m2 .. | .mmalE3m2 .. | .mmalE2m3 .. | .mmalE2m1 .. | .mmalBf16 .. |
    .mmalF16 .. | .mmalS8 .. =>
    some .a
  | .yieldWake | .waitrWake | .moveatArrival | .waitvMonitorFree | .reservationGrant | .reservationRevokeTimeout |
    .copyChunkStart | .copyChunkAck | .copyTransferEnd | .inputFetchStart | .pageFetchStart | .messageArrival |
    .messageAccept | .heldMessageSend | .treeContributionCombine | .treeRoundComplete | .treeResultDelivery |
    .tokenArrival | .counterArrival | .triggerFire | .collectiveComplete | .repartitionStart |
    .repartitionHistogramResult | .repartitionItemArrival | .repartitionComplete | .tileArrive | .arriveReceipt |
    .rootDecide | .commitApply | .abortApply | .doneReceipt | .openReceipt | .saveFirkin | .firkinRestore |
    .xinvComplete | .gangStopArrival | .gangResume | .stonesArrival | .divideComplete | .vectorCommandStart |
    .vectorCommandComplete | .rotbPanelArrival | .matrixCommandStart | .matrixCommandComplete | .bundleFetch |
    .taskPop | .stealRequest | .stealRequestService | .stealReply | .stealBackoffExpiry | .bankRetentionEntry |
    .bankWake | .remoteAccessService | .translationWalk | .forwardedAccess | .replyArrival | .deferredFaultTrap |
    .packetGrant | .rejectNoticeArrival | .pathLostNotice | .trapEntry | .asyncCauseTaken | .sliceTimerExpiry |
    .preemptDeadlineExpiry | .entryMakeResident | .launchSlotWrite | .launchStart | .directoryEntryWrite |
    .regionHeaderWrite | .contextEntryWrite | .contextKick | .bar4Read | .bar4Write | .interruptCauseClear |
    .hostRegisterWrite | .getVersion | .getCapabilities | .negotiateAlgorithms | .getDigests | .getCertificate |
    .challenge | .getMeasurements | .deviceReset | .discoveryFlood | .discoveryTimeout | .mapInstallRequest |
    .pwrbalWrite | .powerAverageUpdate | .dutyRecompute | .energyInterval | .scrubSector | .tileLost |
    .railSliceError | .railLost | .pause | .resume | .repair | .retrain | .clrerr | .linkCommandComplete |
    .linkEventDelivery | .keepCopyComplete | .ownTlmLoadReturn | .packetArrival | .receiveBufferEntryRetired |
    .memoryBitError =>
    none

/-- Number of the control register DMAP, the only one whose CSRR reads ra (17 R384). -/
def dmapNumber : BitVec 12 := 0x016

/-- Limits on operands that hold in every form: the bit-field combinations of 05 R95, the reserved nb of PREF, LDA and STL (07 R157, 09 R201)
and the reserved ra of CSRR (17 R384). -/
def Instr.operandsOk : Instr → Bool
  | .bextS _ _ p w1 | .bextZ _ _ p w1 | .bins _ _ p w1 => decide (p.toNat + w1.toNat < 64)
  | .pref m | .lda32 _ m | .lda64 _ m | .stl32 _ m | .stl64 _ m => !m.nb
  | .csrr _ xa num => num == dmapNumber || xa == 0
  | _ => true

/-- Whether a value is the sign extension of its low `n` bits. -/
def signedFits (n : Nat) (v : BitVec 32) : Bool := (v.setWidth n).signExtend 32 == v

/-- Whether a value is the zero extension of its low `n` bits. -/
def unsignedFits (n : Nat) (v : BitVec 32) : Bool := (v.setWidth n).setWidth 32 == v

/-- Whether a memory operand has the paired form C.M: blocking, class k0, off6 or an index (02 R34). -/
def MemOp.paired (m : MemOp) : Bool :=
  !m.nb && m.sc == 0 && match m.disp with
    | .units _ | .index _ => true
    | .bytes _ => false

/-- Whether a memory operand has the lone form C.ML: a byte offset or an index (02 R34). -/
def MemOp.lone (m : MemOp) : Bool :=
  match m.disp with
  | .bytes _ | .index _ => true
  | .units _ => false

/-- The memory operand of an instruction of the formats C.M and C.ML. -/
def Instr.memOp? : Instr → Option MemOp
  | .ldS8 _ m => some m
  | .ldZ8 _ m => some m
  | .ldS16 _ m => some m
  | .ldZ16 _ m => some m
  | .ldS32 _ m => some m
  | .ldZ32 _ m => some m
  | .ld64 _ m => some m
  | .st8 _ m => some m
  | .st16 _ m => some m
  | .st32 _ m => some m
  | .st64 _ m => some m
  | .ldp _ m => some m
  | .stp _ m => some m
  | .ldf _ m => some m
  | .stf _ m => some m
  | .pref m => some m
  | .ld64Pi _ m => some m
  | .st64Pi _ m => some m
  | .ldfPi _ m => some m
  | .stfPi _ m => some m
  | .lda32 _ m => some m
  | .lda64 _ m => some m
  | .stl32 _ m => some m
  | .stl64 _ m => some m
  | _ => none

/-- Whether the instruction has a paired form for its operands (03 Tables 3.4, 3.5). -/
def Instr.fitsPaired : Instr → Bool
  | .sigchk .. | .sendl .. | .csrr .. | .csrw .. | .csrs .. | .csrc .. | .trap .. | .movk .. | .movx .. => false
  | .slkset _ (.grains _) => false
  | .bri off | .brli off => signedFits 15 off
  | .loop _ off | .beq _ _ off | .bne _ _ off | .bltS _ _ off | .bltZ _ _ off | .bgeS _ _ off | .bgeZ _ _ off =>
    signedFits 7 off
  | .addi _ _ imm | .muli _ _ imm | .andi _ _ imm | .ori _ _ imm | .xori _ _ imm | .paddi _ _ imm | .cmpiEq _ _ imm
  | .cmpiNe _ _ imm | .cmpiLtS _ _ imm | .cmpiLeS _ _ imm => signedFits 12 imm
  | .cmpiLtZ _ _ imm => unsignedFits 12 imm
  | .movi _ imm => signedFits 16 imm
  | i => match i.memOp? with
    | some m => m.paired
    | none => true

/-- Whether the instruction has a lone form for its operands; every one that has no own lone form has the carried form
(03 R59). -/
def Instr.fitsLone : Instr → Bool
  | .slkset _ (.reg _) => false
  | i => match i.memOp? with
    | some m => m.lone
    | none => true

/-- A bundle that the encodings of 02 and 03 can hold. -/
def Bundle.wellFormed : Bundle → Bool
  | .paired _ _ c _ a =>
    c.space == some .c && c.operandsOk && c.fitsPaired && a.space == some .a && a.operandsOk && a.fitsPaired
  | .lone _ _ i => i.space.isSome && i.operandsOk && i.fitsLone

end Sys2Proof
end

