-- ==== Sys2Proof/Decode.lean ====
section
/-! DEFINITION. The decoder, total on any two words, refusing with the class-0 cause of 03 R62, and the encoder beside it.
Both are written from the formats of 02 Table 2.4 and the opcode maps of 03. -/

namespace Sys2Proof

noncomputable section

/-! ### Formats: the operand bits as named fields (02 Table 2.4) -/

/-- A.RRRR, the operand bits of paired word 1. -/
structure RRRR where
  rd : BitVec 4
  ra : BitVec 4
  rb : BitVec 4
  rc : BitVec 4
  fn : BitVec 4
  deriving DecidableEq, Repr

/-- The operand bits of A.RRRR. -/
def RRRR.pack (f : RRRR) : BitVec 20 := f.rd ++ f.ra ++ f.rb ++ f.rc ++ f.fn

/-- The fields of A.RRRR. -/
def RRRR.unpack (w : BitVec 20) : RRRR :=
  ⟨w.extractLsb' 16 4, w.extractLsb' 12 4, w.extractLsb' 8 4, w.extractLsb' 4 4, w.extractLsb' 0 4⟩

/-- C.RRR, the operand bits of paired word 0. -/
structure RRR where
  ra : BitVec 4
  rb : BitVec 4
  rc : BitVec 4
  sc : BitVec 3
  deriving DecidableEq, Repr

/-- The operand bits of C.RRR. -/
def RRR.pack (f : RRR) : BitVec 15 := f.ra ++ f.rb ++ f.rc ++ f.sc

/-- The fields of C.RRR. -/
def RRR.unpack (w : BitVec 15) : RRR :=
  ⟨w.extractLsb' 11 4, w.extractLsb' 7 4, w.extractLsb' 3 4, w.extractLsb' 0 3⟩

/-- A decoded value, or an encoding fault: the number of the field within its word, and for a whole bundle the class-0
cause, slot × 16 + field (02 R35, 03 R62). -/
inductive Enc (α : Type) where
  | ok (a : α)
  | error (n : Nat)
  deriving DecidableEq, Repr

/-- The 4-bit field of a P or K register (02 R34). -/
def pField (p : BitVec 3) : BitVec 4 := 0#1 ++ p

/-- The fn field of a modifier in bit 0. -/
def bitFn (b : Bool) : BitVec 4 := 0#3 ++ BitVec.ofBool b

/-- Field `n` is reserved (03 R61). -/
def zero4 (n : Nat) (r : BitVec 4) (k : Enc Instr) : Enc Instr := if r = 0 then k else .error n

/-- Field `n` is a P or K field (03 R61). -/
def pOf (n : Nat) (r : BitVec 4) (k : BitVec 3 → Enc Instr) : Enc Instr :=
  if r.extractLsb' 3 1 = 1 then .error n else k (r.extractLsb' 0 3)

/-- Field `n` names the even register of a pair (03 R61). -/
def pairOf (n : Nat) (r : BitVec 4) (k : RegPair → Enc Instr) : Enc Instr :=
  if r.extractLsb' 0 1 = 1 then .error n else k (r.extractLsb' 1 3)

/-- Field 5, an fn field of which only bit 0 is defined. -/
def bitOf (fn : BitVec 4) (k : Bool → Enc Instr) : Enc Instr :=
  if fn = 0 then k false else if fn = 1 then k true else .error 5

/-! ### Roles of the fields of A.RRRR (05 Tables 5.2-5.7, 11 Table 11.5, 12 Table 12.3) -/

/-- Fields d a b – –. -/
def dab (f : RRRR) (k : Reg → Reg → Reg → Instr) : Enc Instr :=
  zero4 4 f.rc (zero4 5 f.fn (.ok (k f.rd f.ra f.rb)))
/-- Fields d a – – –. -/
def da (f : RRRR) (k : Reg → Reg → Instr) : Enc Instr :=
  zero4 3 f.rb (zero4 4 f.rc (zero4 5 f.fn (.ok (k f.rd f.ra))))
/-- Fields d a b c –. -/
def dabc (f : RRRR) (k : Reg → Reg → Reg → Reg → Instr) : Enc Instr :=
  zero4 5 f.fn (.ok (k f.rd f.ra f.rb f.rc))
/-- Fields pd a b – –. -/
def pab (f : RRRR) (k : PredReg → Reg → Reg → Instr) : Enc Instr :=
  pOf 1 f.rd fun d => zero4 4 f.rc (zero4 5 f.fn (.ok (k d f.ra f.rb)))
/-- Fields pd pa pb – –. -/
def ppp (f : RRRR) (k : PredReg → PredReg → PredReg → Instr) : Enc Instr :=
  pOf 1 f.rd fun d => pOf 2 f.ra fun a => pOf 3 f.rb fun b => zero4 4 f.rc (zero4 5 f.fn (.ok (k d a b)))
/-- PMOV: pd pa – – –. -/
def pmov (f : RRRR) : Enc Instr :=
  pOf 1 f.rd fun d => pOf 2 f.ra fun a => zero4 3 f.rb (zero4 4 f.rc (zero4 5 f.fn (.ok (.pmov d a))))
/-- SEL: d a b pc –. -/
def sel (f : RRRR) : Enc Instr := pOf 4 f.rc fun c => zero4 5 f.fn (.ok (.sel f.rd f.ra f.rb c))
/-- PMK: rb is reserved when fn is 0 or 2, and fn values 4 to 15 are undefined (05 R100). -/
def pmk (f : RRRR) : Enc Instr :=
  match f.fn with
  | 0 => zero4 3 f.rb (.ok (.pmk f.rd f.ra f.rc .ver))
  | 1 => .ok (.pmk f.rd f.ra f.rc (.tlm f.rb))
  | 2 => zero4 3 f.rb (.ok (.pmk f.rd f.ra f.rc .imm))
  | 3 => .ok (.pmk f.rd f.ra f.rc (.peer f.rb))
  | _ => .error 5
/-- PSET: d a b – fn (05 R103). -/
def pset (f : RRRR) : Enc Instr :=
  zero4 4 f.rc <| match f.fn with
  | 0 => .ok (.pset f.rd f.ra f.rb .fmt)
  | 1 => .ok (.pset f.rd f.ra f.rb .blk)
  | 2 => .ok (.pset f.rd f.ra f.rb .id)
  | 3 => .ok (.pset f.rd f.ra f.rb .loc)
  | _ => .error 5
/-- PGET: d a – – fn (05 R103). -/
def pget (f : RRRR) : Enc Instr :=
  zero4 3 f.rb <| zero4 4 f.rc <| match f.fn with
  | 0 => .ok (.pget f.rd f.ra .fmt)
  | 1 => .ok (.pget f.rd f.ra .blk)
  | 2 => .ok (.pget f.rd f.ra .space)
  | 3 => .ok (.pget f.rd f.ra .id)
  | 4 => .ok (.pget f.rd f.ra .loc)
  | _ => .error 5
/-- PIDX: d a b – fn; under fn 1 rd and ra are pair fields (05 R102). -/
def pidx (f : RRRR) : Enc Instr :=
  match f.fn with
  | 0 => zero4 4 f.rc (.ok (.pidx (.one f.rd f.ra) f.rb))
  | 1 => pairOf 1 f.rd fun d => pairOf 2 f.ra fun a => zero4 4 f.rc (.ok (.pidx (.pair d a) f.rb))
  | _ => zero4 4 f.rc (.error 5)
/-- FCVT.bf16.f32.rn: fn 0 or 1 (05 Table 5.7). -/
def cvtRn (f : RRRR) : Enc Instr :=
  zero4 3 f.rb (zero4 4 f.rc (bitOf f.fn fun s => .ok (.fcvtBf16F32Rn f.rd f.ra s)))
/-- FCVT.bf16.f32.sr: fn 0 or 1, with rb (05 Table 5.7). -/
def cvtSr (f : RRRR) : Enc Instr :=
  zero4 4 f.rc (bitOf f.fn fun s => .ok (.fcvtBf16F32Sr f.rd f.ra f.rb s))
/-- FCVT.f16: fn 0, 1 or 2 (05 Table 5.7). -/
def cvtF16 (f : RRRR) : Enc Instr :=
  zero4 3 f.rb <| zero4 4 f.rc <| match f.fn with
  | 0 => .ok (.fcvtF16 f.rd f.ra .toF16)
  | 1 => .ok (.fcvtF16 f.rd f.ra .toF32)
  | 2 => .ok (.fcvtF16 f.rd f.ra .toF16Sat)
  | _ => .error 5
/-- dest, P, and P or a scalar chosen by fn (12 Table 12.3). DESIGN CHOICE: under an undefined fn the kind of rc is not known, so fn is
reported and never rc (log entry 65). -/
def vsrc (f : RRRR) (k : Reg → Reg → RegPair → VSrc → Instr) : Enc Instr :=
  pairOf 3 f.rb fun b =>
  match f.fn with
  | 0 => pairOf 4 f.rc fun c => .ok (k f.rd f.ra b (.array c))
  | 1 => .ok (k f.rd f.ra b (.sf f.rc))
  | 2 => .ok (k f.rd f.ra b (.si f.rc))
  | _ => .error 5
/-- dest, P, – and fn 0. -/
def vab (f : RRRR) (k : Reg → Reg → RegPair → Instr) : Enc Instr :=
  pairOf 3 f.rb fun b => zero4 4 f.rc (zero4 5 f.fn (.ok (k f.rd f.ra b)))
/-- dest, P, a register and fn 0. -/
def vabc (f : RRRR) (k : Reg → Reg → RegPair → Reg → Instr) : Enc Instr :=
  pairOf 3 f.rb fun b => zero4 5 f.fn (.ok (k f.rd f.ra b f.rc))
/-- VQNT: P, P, a register. -/
def vqnt (f : RRRR) : Enc Instr :=
  pairOf 2 f.ra fun a => pairOf 3 f.rb fun b => zero4 5 f.fn (.ok (.vqnt f.rd a b f.rc))
/-- VMXS: P, P, –. -/
def vmxs (f : RRRR) : Enc Instr :=
  pairOf 2 f.ra fun a => pairOf 3 f.rb fun b => zero4 4 f.rc (zero4 5 f.fn (.ok (.vmxs f.rd a b)))
/-- VDOT: one element, P, P. -/
def vdot (f : RRRR) : Enc Instr :=
  pairOf 3 f.rb fun b => pairOf 4 f.rc fun c => zero4 5 f.fn (.ok (.vdot f.rd f.ra b c))
/-- VSCAN: fn 0 or 1. -/
def vscan (f : RRRR) : Enc Instr :=
  pairOf 3 f.rb fun b => zero4 4 f.rc (bitOf f.fn fun x => .ok (.vscan f.rd f.ra b x))
/-- VFILL: dest, –, a scalar of the kind fn names. -/
def vfill (f : RRRR) : Enc Instr :=
  zero4 3 f.rb (bitOf f.fn fun x => .ok (.vfill f.rd f.ra (if x then .si f.rc else .fp32 f.rc)))
/-- VIOTA: dest, –, a register. -/
def viota (f : RRRR) : Enc Instr := zero4 3 f.rb (zero4 5 f.fn (.ok (.viota f.rd f.ra f.rc)))
/-- VSORTK: rc names the permutation under fn 1 and is reserved under fn 0. DESIGN CHOICE: under an undefined fn it is neither, and fn is
reported (log entry 65). -/
def vsortk (f : RRRR) : Enc Instr :=
  match f.fn with
  | 0 => zero4 4 f.rc (.ok (.vsortk f.rd f.ra f.rb none))
  | 1 => .ok (.vsortk f.rd f.ra f.rb (some f.rc))
  | _ => .error 5
/-- VHIST: fn 0 or 1. -/
def vhist (f : RRRR) : Enc Instr := bitOf f.fn fun x => .ok (.vhist f.rd f.ra f.rb f.rc x)
/-- VAND to VANDN: fn 0, or 1 for .sb. -/
def vbits (f : RRRR) (k : Reg → Reg → Reg → VBits → Instr) : Enc Instr :=
  bitOf f.fn fun x => .ok (k f.rd f.ra f.rb (if x then .sb f.rc else .array f.rc))
/-- VSHL to VSHR.s. -/
def vshift (f : RRRR) (k : Reg → Reg → Reg → Reg → Instr) : Enc Instr :=
  zero4 5 f.fn (.ok (k f.rd f.ra f.rb f.rc))
/-- MZERO: only rc. -/
def mzero (f : RRRR) : Enc Instr := zero4 2 f.ra (zero4 3 f.rb (zero4 5 f.fn (.ok (.mzero f.rd f.rc))))
/-- LATB: B pair and descriptor. -/
def latb (f : RRRR) : Enc Instr :=
  pairOf 2 f.ra fun a => zero4 3 f.rb (zero4 5 f.fn (.ok (.latb f.rd a f.rc)))
/-- A slack class in fn bits 3:1, with bit 0 reserved. -/
def classFn (fn : BitVec 4) (k : SlackReg → Enc Instr) : Enc Instr :=
  if fn.extractLsb' 0 1 = 1 then .error 5 else k (fn.extractLsb' 1 3)
/-- ROTB: only the slack class. -/
def rotb (f : RRRR) : Enc Instr :=
  zero4 2 f.ra (zero4 3 f.rb (zero4 4 f.rc (classFn f.fn fun k => .ok (.rotb f.rd k))))
/-- MST: destination, descriptor, slack class and SAT. -/
def mst (f : RRRR) : Enc Instr :=
  zero4 3 f.rb (.ok (.mst f.rd f.ra f.rc (f.fn.extractLsb' 1 3) (f.fn.extractLsb' 0 1 = 1)))
/-- MLDC: source, descriptor and slack class. -/
def mldc (f : RRRR) : Enc Instr :=
  zero4 3 f.rb (classFn f.fn fun k => .ok (.mldc f.rd f.ra f.rc k))
/-- MSCL: fn 0 for .f32 and 1 for .s32. -/
def mscl (f : RRRR) : Enc Instr := zero4 3 f.rb (bitOf f.fn fun s => .ok (.mscl f.rd f.ra f.rc s))
/-- MMA: A pair, B pair, descriptor and OVW. -/
def mma (f : RRRR) (k : Reg → RegPair → RegPair → Reg → Bool → Instr) : Enc Instr :=
  pairOf 2 f.ra fun a => pairOf 3 f.rb fun b => bitOf f.fn fun o => .ok (k f.rd a b f.rc o)
/-- MMAL: A pair, descriptor and OVW. -/
def mmal (f : RRRR) (k : Reg → RegPair → Reg → Bool → Instr) : Enc Instr :=
  pairOf 2 f.ra fun a => zero4 3 f.rb (bitOf f.fn fun o => .ok (k f.rd a f.rc o))

/-- The instructions of format A.RRRR (03 Tables 3.2, 3.4); field 0 stands for a code that has no such form. -/
def decRRRR (op : BitVec 8) (f : RRRR) : Enc Instr :=
  match op.toNat with
  | 0x00 => dab f .add
  | 0x01 => dab f .sub
  | 0x03 => dab f .mul
  | 0x05 => dab f .mulhS
  | 0x06 => dab f .mulhZ
  | 0x07 => dab f .divS
  | 0x08 => dab f .divZ
  | 0x09 => dab f .remS
  | 0x0A => dab f .remZ
  | 0x10 => dab f .and
  | 0x11 => dab f .or
  | 0x12 => dab f .xor
  | 0x13 => dab f .andn
  | 0x18 => dab f .shl
  | 0x1A => dab f .shrZ
  | 0x1C => dab f .shrS
  | 0x1E => dab f .rot
  | 0x20 => dab f .minS
  | 0x21 => dab f .minZ
  | 0x22 => dab f .maxS
  | 0x23 => dab f .maxZ
  | 0x24 => da f .abs
  | 0x25 => da f .clz
  | 0x26 => da f .ctz
  | 0x27 => da f .popc
  | 0x28 => da f .bswap
  | 0x2C => da f .sext8
  | 0x2D => da f .sext16
  | 0x2E => da f .sext32
  | 0x33 => sel f
  | 0x34 => ppp f .pand
  | 0x35 => ppp f .por
  | 0x36 => ppp f .pxor
  | 0x37 => ppp f .pandn
  | 0x38 => pmov f
  | 0x39 => pmk f
  | 0x3A => dab f .padd
  | 0x3C => pset f
  | 0x3D => pget f
  | 0x3E => pidx f
  | 0x40 => da f .fsgnAbs
  | 0x41 => da f .fsgnNeg
  | 0x42 => dab f .fsgnCopy
  | 0x43 => dab f .fadd
  | 0x44 => dab f .fsub
  | 0x45 => dab f .fmul
  | 0x46 => dabc f .ffma
  | 0x47 => dabc f .ffms
  | 0x48 => dabc f .fnma
  | 0x49 => dabc f .fnms
  | 0x4A => dab f .fdiv
  | 0x4B => da f .fsqrt
  | 0x4C => dab f .fmin
  | 0x4D => dab f .fmax
  | 0x4E => da f .fclass
  | 0x50 => pab f .fcmpEq
  | 0x51 => pab f .fcmpLt
  | 0x52 => pab f .fcmpLe
  | 0x53 => pab f .fcmpUn
  | 0x58 => da f .fcvtF32S32
  | 0x59 => da f .fcvtS32F32Rz
  | 0x5A => da f .fcvtS32F32Rn
  | 0x5B => da f .fcvtF32Z32
  | 0x5C => cvtRn f
  | 0x5D => cvtSr f
  | 0x5E => da f .fcvtF32Bf16
  | 0x5F => cvtF16 f
  | 0x60 => pab f .cmpEq
  | 0x61 => pab f .cmpNe
  | 0x62 => pab f .cmpLtS
  | 0x63 => pab f .cmpLtZ
  | 0x64 => pab f .cmpLeS
  | 0x65 => pab f .cmpLeZ
  | 0x80 => vsrc f .vadd
  | 0x81 => vsrc f .vsub
  | 0x82 => vsrc f .vmul
  | 0x83 => vsrc f .vfma
  | 0x84 => vsrc f .vmin
  | 0x85 => vsrc f .vmax
  | 0x86 => vab f .vabs
  | 0x87 => vab f .vneg
  | 0x88 => vabc f .vclamp
  | 0x90 => vab f .vcvt
  | 0x91 => vqnt f
  | 0x92 => vabc f .vdq
  | 0x93 => vmxs f
  | 0x94 => vab f .vsum
  | 0x95 => vab f .vamax
  | 0x96 => vdot f
  | 0x97 => vscan f
  | 0x98 => vab f .vexp2
  | 0x99 => vsrc f .vdiv
  | 0x9A => vab f .vsqrt
  | 0x9B => vab f .vrsq
  | 0x9C => vsrc f .vcmpEq
  | 0x9D => vsrc f .vcmpLt
  | 0x9E => vsrc f .vcmpLe
  | 0xA0 => vsrc f .vsel
  | 0xA1 => vfill f
  | 0xA2 => viota f
  | 0xA3 => vabc f .vgath
  | 0xA4 => vabc f .vscat
  | 0xA5 => vsortk f
  | 0xA6 => vhist f
  | 0xA8 => vbits f .vand
  | 0xA9 => vbits f .vor
  | 0xAA => vbits f .vxor
  | 0xAB => vbits f .vandn
  | 0xAC => vshift f .vshl
  | 0xAD => vshift f .vshrZ
  | 0xAE => vshift f .vshrS
  | 0xC0 => da f .mcfg
  | 0xC1 => mzero f
  | 0xC2 => latb f
  | 0xC3 => rotb f
  | 0xC4 => mst f
  | 0xC5 => mldc f
  | 0xC6 => mscl f
  | 0xC8 => mma f .mmaE4m3
  | 0xC9 => mma f .mmaE5m2
  | 0xCA => mma f .mmaE3m2
  | 0xCB => mma f .mmaE2m3
  | 0xCC => mma f .mmaE2m1
  | 0xCD => mma f .mmaBf16
  | 0xCE => mma f .mmaF16
  | 0xCF => mma f .mmaS8
  | 0xD0 => mmal f .mmalE4m3
  | 0xD1 => mmal f .mmalE5m2
  | 0xD2 => mmal f .mmalE3m2
  | 0xD3 => mmal f .mmalE2m3
  | 0xD4 => mmal f .mmalE2m1
  | 0xD5 => mmal f .mmalBf16
  | 0xD6 => mmal f .mmalF16
  | 0xD7 => mmal f .mmalS8
  | _ => .error 0

/-! ### The formats A.RRI and A.RI -/

/-- Which codes take A.RRI and how their immediate stands in the lone form (03 Table 3.4). -/
inductive ImmForm where
  | wide | bits
  deriving DecidableEq, Repr

/-- The A codes of format A.RRI (03 Table 3.4). -/
def immForm (op : BitVec 8) : Option ImmForm :=
  match op.toNat with
  | 0x02 | 0x04 | 0x14 | 0x15 | 0x16 | 0x19 | 0x1B | 0x1D | 0x1F | 0x3B | 0x68 | 0x69 | 0x6A | 0x6B | 0x6C => some .wide
  | 0x29 | 0x2A | 0x2B => some .bits
  | _ => none

/-- The A codes whose rd names a predicate in format A.RRI: the compares with an immediate (05 Table 5.5). -/
def immPred (op : BitVec 8) : Bool :=
  match op.toNat with
  | 0x68 | 0x69 | 0x6A | 0x6B | 0x6C => true
  | _ => false

/-- imm12 extended: CMPI.lt.z zero-extends, the others sign-extend (05 R92, R97). -/
def extendImm (op : BitVec 8) (imm : BitVec 12) : BitVec 32 :=
  match op.toNat with
  | 0x6B => imm.setWidth 32
  | _ => imm.signExtend 32

/-- The immediate of a shift: 0 to 63 are defined (05 R95). -/
def shiftImm (rd ra : Reg) (imm : BitVec 32) (k : Reg → Reg → BitVec 6 → Instr) : Enc Instr :=
  if imm.toNat < 64 then .ok (k rd ra (imm.setWidth 6)) else .error 3

/-- The position and width of a bit field: p + w at most 64 (05 R95). -/
def bitField (rd ra : Reg) (imm : BitVec 32) (k : Reg → Reg → BitVec 6 → BitVec 6 → Instr) : Enc Instr :=
  if (imm.extractLsb' 0 6).toNat + (imm.extractLsb' 6 6).toNat < 64
  then .ok (k rd ra (imm.extractLsb' 0 6) (imm.extractLsb' 6 6)) else .error 3

/-- The instructions of format A.RRI, from their extended immediate; the only faults left are those of the immediate. -/
def decRRI (op : BitVec 8) (rd ra : Reg) (imm : BitVec 32) : Enc Instr :=
  match op.toNat with
  | 0x02 => .ok (.addi rd ra imm)
  | 0x04 => .ok (.muli rd ra imm)
  | 0x14 => .ok (.andi rd ra imm)
  | 0x15 => .ok (.ori rd ra imm)
  | 0x16 => .ok (.xori rd ra imm)
  | 0x19 => shiftImm rd ra imm .shli
  | 0x1B => shiftImm rd ra imm .shriZ
  | 0x1D => shiftImm rd ra imm .shriS
  | 0x1F => shiftImm rd ra imm .roti
  | 0x29 => bitField rd ra imm .bextS
  | 0x2A => bitField rd ra imm .bextZ
  | 0x2B => bitField rd ra imm .bins
  | 0x3B => .ok (.paddi rd ra imm)
  | 0x68 => .ok (.cmpiEq (rd.setWidth 3) ra imm)
  | 0x69 => .ok (.cmpiNe (rd.setWidth 3) ra imm)
  | 0x6A => .ok (.cmpiLtS (rd.setWidth 3) ra imm)
  | 0x6B => .ok (.cmpiLtZ (rd.setWidth 3) ra imm)
  | 0x6C => .ok (.cmpiLeS (rd.setWidth 3) ra imm)
  | _ => .error 0

/-- An A instruction in word 1 of a paired bundle (03 R63). -/
def decPairedA (op : BitVec 8) (x : BitVec 20) : Enc Instr :=
  if op = 0x30 then .ok (.movi (x.extractLsb' 16 4) ((x.extractLsb' 0 16).signExtend 32))
  else if (immForm op).isSome then
    if immPred op && x.extractLsb' 19 1 = 1 then .error 1
    else decRRI op (x.extractLsb' 16 4) (x.extractLsb' 12 4) (extendImm op (x.extractLsb' 0 12))
  else decRRRR op (.unpack x)

/-! ### The formats of the C space -/

/-- Fields a – – –. -/
def fa (f : RRR) (k : Reg → Instr) : Enc Instr :=
  zero4 2 f.rb (zero4 3 f.rc (if f.sc = 0 then .ok (k f.ra) else .error 4))
/-- No field of C.RRR. -/
def fnone (f : RRR) (i : Instr) : Enc Instr :=
  zero4 1 f.ra (zero4 2 f.rb (zero4 3 f.rc (if f.sc = 0 then .ok i else .error 4)))
/-- Fields a b – –. -/
def fab (f : RRR) (k : Reg → Reg → Instr) : Enc Instr :=
  zero4 3 f.rc (if f.sc = 0 then .ok (k f.ra f.rb) else .error 4)
/-- Fields a b – and the slack class. -/
def fabk (f : RRR) (k : Reg → Reg → SlackReg → Instr) : Enc Instr := zero4 3 f.rc (.ok (k f.ra f.rb f.sc))
/-- Fields a – – and the slack class. -/
def fak (f : RRR) (k : Reg → SlackReg → Instr) : Enc Instr := zero4 2 f.rb (zero4 3 f.rc (.ok (k f.ra f.sc)))
/-- Fields a b, the destination in rc, and the slack class. -/
def fabck (f : RRR) (k : Reg → Reg → Reg → SlackReg → Instr) : Enc Instr := .ok (k f.rc f.ra f.rb f.sc)
/-- Fields a –, the destination in rc, and the slack class. -/
def fack (f : RRR) (k : Reg → Reg → SlackReg → Instr) : Enc Instr := zero4 2 f.rb (.ok (k f.rc f.ra f.sc))
/-- Fields a b, the predicate destination in rc, and the slack class. -/
def fabpk (f : RRR) (k : PredReg → Reg → Reg → SlackReg → Instr) : Enc Instr :=
  pOf 3 f.rc fun d => .ok (k d f.ra f.rb f.sc)
/-- Fields a –, the predicate destination in rc, and the slack class. -/
def fapk (f : RRR) (k : PredReg → Reg → SlackReg → Instr) : Enc Instr :=
  zero4 2 f.rb (pOf 3 f.rc fun d => .ok (k d f.ra f.sc))
/-- Fields a –, the predicate destination in rc, –. -/
def fap (f : RRR) (k : PredReg → Reg → Instr) : Enc Instr :=
  zero4 2 f.rb (pOf 3 f.rc fun d => if f.sc = 0 then .ok (k d f.ra) else .error 4)
/-- CAS: rb is a pair field. -/
def fabbck (f : RRR) (k : Reg → Reg → RegPair → SlackReg → Instr) : Enc Instr :=
  pairOf 2 f.rb fun b => .ok (k f.rc f.ra b f.sc)
/-- CPSRC and CPDST: a pair field alone. -/
def fpair (f : RRR) (k : RegPair → Instr) : Enc Instr :=
  pairOf 1 f.ra fun a => zero4 2 f.rb (zero4 3 f.rc (if f.sc = 0 then .ok (k a) else .error 4))
/-- CPGO: id in rb, status in rc. -/
def fbck (f : RRR) (k : Reg → Reg → SlackReg → Instr) : Enc Instr := zero4 1 f.ra (.ok (k f.rb f.rc f.sc))
/-- CPGO.mc: rectangle in ra, id in rb, status in rc. -/
def fmc (f : RRR) (k : Reg → Reg → Reg → SlackReg → Instr) : Enc Instr := .ok (k f.rb f.rc f.ra f.sc)
/-- SEND: the three sources in order. -/
def fsend (f : RRR) (k : Reg → Reg → Reg → SlackReg → Instr) : Enc Instr := .ok (k f.ra f.rb f.rc f.sc)
/-- Fields a –, the destination in rc, –. -/
def fac (f : RRR) (k : Reg → Reg → Instr) : Enc Instr :=
  zero4 2 f.rb (if f.sc = 0 then .ok (k f.rc f.ra) else .error 4)
/-- The destination in rc alone. -/
def fc (f : RRR) (k : Reg → Instr) : Enc Instr :=
  zero4 1 f.ra (zero4 2 f.rb (if f.sc = 0 then .ok (k f.rc) else .error 4))
/-- Fields a b, the destination in rc, –. -/
def fabc (f : RRR) (k : Reg → Reg → Reg → Instr) : Enc Instr :=
  if f.sc = 0 then .ok (k f.rc f.ra f.rb) else .error 4
/-- SLKGET: the destination in rc and the entry in sc. -/
def fck (f : RRR) (k : Reg → SlackReg → Instr) : Enc Instr := zero4 1 f.ra (zero4 2 f.rb (.ok (k f.rc f.sc)))
/-- RPGO and RPGO.fine: ra is a pair field. -/
def frpgo (f : RRR) (k : Reg → RegPair → Reg → SlackReg → Instr) : Enc Instr :=
  pairOf 1 f.ra fun a => .ok (k f.rc a f.rb f.sc)
/-- The operations of SYNCR by their codes; 9 to 15 are undefined (13 R300). -/
def syncOps : BitVec 4 → Option SyncOp
  | 0 => some .add | 1 => some .min | 2 => some .max | 3 => some .and | 4 => some .or | 5 => some .xor
  | 6 => some .fmin | 7 => some .fmax | 8 => some .fadd
  | _ => none
/-- SYNCR: the operation in rb. -/
def fsyncr (f : RRR) (k : Reg → Reg → SyncOp → Instr) : Enc Instr :=
  match syncOps f.rb with
  | some o => if f.sc = 0 then .ok (k f.rc f.ra o) else .error 4
  | none => .error 2
/-- SLKSET in its paired form: the entry in sc (14 Table 14.12). -/
def fslkset (f : RRR) (k : SlackReg → SlkSrc → Instr) : Enc Instr :=
  zero4 2 f.rb (zero4 3 f.rc (.ok (k f.sc (.reg f.ra))))

/-- The instructions of format C.RRR (03 Tables 3.3, 3.5). -/
def decRRR (op : BitVec 8) (f : RRR) : Enc Instr :=
  match op.toNat with
  | 0x02 => fa f .br
  | 0x03 => fa f .brl
  | 0x10 => fa f .haltKeep
  | 0x12 => fab f .spawn
  | 0x14 => fa f .join
  | 0x15 => fa f .leave
  | 0x16 => fa f .gbar
  | 0x17 => fab f .waitr
  | 0x18 => fabk f .moveat
  | 0x3C => fabck f .waitvEq
  | 0x3D => fabck f .waitvNe
  | 0x3E => fabck f .waitvGeS
  | 0x3F => fabck f .waitvEq32
  | 0x40 => fack f .lrw32
  | 0x41 => fack f .lrw64
  | 0x42 => fabpk f .sch32
  | 0x43 => fabpk f .sch64
  | 0x44 => fapk f .rlsv
  | 0x45 => fabck f .amoAdd
  | 0x46 => fabck f .amoAnd
  | 0x47 => fabck f .amoOr
  | 0x48 => fabck f .amoXor
  | 0x49 => fabck f .amoMinS
  | 0x4A => fabck f .amoMaxS
  | 0x4B => fabck f .amoMinZ
  | 0x4C => fabck f .amoMaxZ
  | 0x4D => fabck f .amoSwap
  | 0x4E => fabck f .amoAdd32
  | 0x4F => fabck f .amoSwap32
  | 0x50 => fabbck f .cas32
  | 0x51 => fabbck f .cas64
  | 0x52 => fabck f .amoFaddF32
  | 0x53 => fabk f .redAddS64
  | 0x54 => fabk f .redAddF32
  | 0x55 => fabk f .redAddBf16
  | 0x56 => fabk f .redAddBf16Sr
  | 0x57 => fabk f .redMinS64
  | 0x58 => fabk f .redMaxS64
  | 0x59 => fabk f .redMaxF32
  | 0x5A => fabk f .redOr64
  | 0x60 => fpair f .cpsrc
  | 0x61 => fpair f .cpdst
  | 0x62 => fab f .cpshp
  | 0x63 => fab f .cpstr
  | 0x64 => fbck f .cpgo
  | 0x65 => fmc f .cpgoMc
  | 0x66 => fap f .cpcan
  | 0x67 => fac f .cpqry
  | 0x68 => fabpk f .pflAdd
  | 0x69 => fc f .pflClr
  | 0x80 => fsend f .send
  | 0x82 => fabc f .recv
  | 0x83 => fabc f .recvNb
  | 0x84 => fac f .inpeek
  | 0x85 => fabk f .tcon
  | 0x86 => fabk f .tconV
  | 0x87 => fabc f .tget
  | 0x88 => fac f .tgrp
  | 0x89 => fab f .tarm
  | 0x8A => fak f .token
  | 0x8B => fabk f .tcnt
  | 0x8C => fa f .tclr
  | 0x8D => fabck f .collAllred
  | 0x8E => fabck f .collBcast
  | 0x8F => fabck f .collAllgat
  | 0x90 => fabck f .collRedsc
  | 0xA0 => fa f .rpcfg
  | 0xA1 => frpgo f .rpgo
  | 0xA2 => frpgo f .rpgoFine
  | 0xA3 => fac f .rpstat
  | 0xB0 => fc f .sync
  | 0xB1 => fsyncr f .syncr
  | 0xB2 => fa f .vote
  | 0xB3 => fnone f .abort
  | 0xB4 => fc f .ssnum
  | 0xB5 => fac f .undoq
  | 0xB6 => fac f .bdef
  | 0xC0 => fslkset f .slkset
  | 0xC1 => fck f .slkget
  | 0xC2 => fac f .slkev
  | 0xD7 => fabck f .mapt
  | 0xD8 => fabk f .xinv
  | 0xD9 => fa f .gstop
  | 0xDA => fabck f .pwgive
  | 0xDB => fabc f .clkepoch
  | _ => .error 0

/-- A load or store whose rd is a register. -/
def memReg (rd : Reg) (m : MemOp) (k : Reg → MemOp → Instr) : Enc Instr := .ok (k rd m)
/-- LDP and STP, whose rd is a pair field. -/
def memPair (rd : Reg) (m : MemOp) (k : RegPair → MemOp → Instr) : Enc Instr := pairOf 1 rd fun d => .ok (k d m)
/-- PREF, whose rd is reserved. -/
def memPref (rd : Reg) (m : MemOp) (k : MemOp → Instr) : Enc Instr := zero4 1 rd (.ok (k m))

/-- The instructions of formats C.M and C.ML (03 Table 3.5), from their memory operand. -/
def decMem (op : BitVec 8) (rd : Reg) (m : MemOp) : Enc Instr :=
  match op.toNat with
  | 0x20 => memReg rd m .ldS8
  | 0x21 => memReg rd m .ldZ8
  | 0x22 => memReg rd m .ldS16
  | 0x23 => memReg rd m .ldZ16
  | 0x24 => memReg rd m .ldS32
  | 0x25 => memReg rd m .ldZ32
  | 0x26 => memReg rd m .ld64
  | 0x27 => memReg rd m .st8
  | 0x28 => memReg rd m .st16
  | 0x29 => memReg rd m .st32
  | 0x2A => memReg rd m .st64
  | 0x2B => memPair rd m .ldp
  | 0x2C => memPair rd m .stp
  | 0x2D => memReg rd m .ldf
  | 0x2E => memReg rd m .stf
  | 0x2F => memPref rd m .pref
  | 0x30 => memReg rd m .ld64Pi
  | 0x31 => memReg rd m .st64Pi
  | 0x32 => memReg rd m .ldfPi
  | 0x33 => memReg rd m .stfPi
  | 0x38 => memReg rd m .lda32
  | 0x39 => memReg rd m .lda64
  | 0x3A => memReg rd m .stl32
  | 0x3B => memReg rd m .stl64
  | _ => .error 0

/-- The C codes of formats C.M and C.ML (03 Table 3.5). -/
def isMemCode (op : BitVec 8) : Bool :=
  (0x20 ≤ op.toNat && op.toNat ≤ 0x33) || (0x38 ≤ op.toNat && op.toNat ≤ 0x3B)

/-- The C instructions that take no operand and no extension (03 Table 3.5). -/
def decNone (op : BitVec 8) : Option Instr :=
  match op.toNat with
  | 0x01 => some .nop
  | 0x06 => some .ret
  | 0x0E => some .yield
  | 0x0F => some .halt
  | 0x13 => some .taskend
  | 0xD5 => some .eret
  | 0xD6 => some .idle
  | _ => none

/-- The branches of format C.RRB, from their extended offset (03 Table 3.5). -/
def decRRB (op : BitVec 8) (ra rb : Reg) (off : BitVec 32) : Enc Instr :=
  match op.toNat with
  | 0x07 => if rb = 0 then .ok (.loop ra off) else .error 2
  | 0x08 => .ok (.beq ra rb off)
  | 0x09 => .ok (.bne ra rb off)
  | 0x0A => .ok (.bltS ra rb off)
  | 0x0B => .ok (.bltZ ra rb off)
  | 0x0C => .ok (.bgeS ra rb off)
  | 0x0D => .ok (.bgeZ ra rb off)
  | _ => .error 0

/-- The C codes of format C.RRB. -/
def isRRBCode (op : BitVec 8) : Bool := 0x07 ≤ op.toNat && op.toNat ≤ 0x0D

/-- The ordering class of a code (09 Table 9.3). -/
def fenceOrds : BitVec 2 → FenceOrd
  | 0 => .acq | 1 => .rel | 2 => .ar | 3 => .sc
/-- The scope of a code (09 Table 9.1); 5 to 7 are undefined. -/
def scopes : BitVec 3 → Option Scope
  | 0 => some .strand | 1 => some .tile | 2 => some .die | 3 => some .device | 4 => some .fabric
  | _ => none
/-- FENCE, from off15 (09 Table 9.4). -/
def decFence (x : BitVec 15) : Enc Instr :=
  if x.extractLsb' 6 9 ≠ 0 then .error 1
  else match scopes (x.extractLsb' 0 3) with
    | some s => .ok (.fence (x.extractLsb' 5 1 = 1) (fenceOrds (x.extractLsb' 3 2)) s)
    | none => .error 1

/-- The memory operand of C.M: field 5 is reserved when m is 1 (02 Table 2.4). -/
def pairedMemOp (x : BitVec 15) : Enc MemOp :=
  if x.extractLsb' 6 1 = 0 then .ok ⟨x.extractLsb' 7 4, .units (x.extractLsb' 0 6), false, 0⟩
  else if x.extractLsb' 0 2 = 0 then .ok ⟨x.extractLsb' 7 4, .index (x.extractLsb' 2 4), false, 0⟩
  else .error 5

/-- A C instruction in word 0 of a paired bundle (03 R63); a fault of rd comes before those of later fields. -/
def decPairedC (op : BitVec 8) (x : BitVec 15) : Enc Instr :=
  if isMemCode op then
    match pairedMemOp x with
    | .ok m => decMem op (x.extractLsb' 11 4) m
    | .error n =>
      match decMem op (x.extractLsb' 11 4) ⟨0, .units 0, false, 0⟩ with
      | .ok _ => .error n
      | .error n' => .error n'
  else if isRRBCode op then
    decRRB op (x.extractLsb' 11 4) (x.extractLsb' 7 4) ((x.extractLsb' 0 7).signExtend 32)
  else if op = 0x04 then .ok (.bri (x.signExtend 32))
  else if op = 0x05 then .ok (.brli (x.signExtend 32))
  else if op = 0x5F then decFence x
  else match decNone op with
    | some i => if x = 0 then .ok i else .error 1
    | none => decRRR op (.unpack x)

/-! ### Lone bundles -/

/-- The cause of a fault of field `n` in slot 1 (03 R62). -/
def inSlot1 (r : Enc Instr) : Enc Instr :=
  match r with
  | .ok i => .ok i
  | .error n => .error (0x10 + n)

/-- The carried form of an operand field that decoded to `r`: word 0's operand bits and the rest of EXT are reserved
(03 R59). -/
def carried (r : Enc Instr) (x : BitVec 14) (restZero : Bool) : Enc Instr :=
  match r with
  | .error 0 => .error 0
  | r => if x ≠ 0 then .error 1 else
    match inSlot1 r with
    | .ok i => if restZero then .ok i else .error 0x16
    | e => e

/-- An A instruction in a lone bundle (03 R58, R59, R63). -/
def decLoneA (op : BitVec 8) (x : BitVec 14) (ext : BitVec 32) : Enc Instr :=
  let rd : BitVec 4 := x.extractLsb' 10 4
  let ra : BitVec 4 := x.extractLsb' 6 4
  let rb : BitVec 4 := x.extractLsb' 2 4
  let fn : BitVec 2 := x.extractLsb' 0 2
  if op = 0x30 then
    zero4 2 ra (zero4 3 rb (if fn = 0 then .ok (.movi rd ext) else .error 4))
  else if op = 0x31 then
    zero4 2 ra (zero4 3 rb (if ext.extractLsb' 16 16 = 0 then .ok (.movk rd fn (ext.extractLsb' 0 16)) else .error 0x12))
  else if op = 0x32 then
    zero4 2 ra (zero4 3 rb (if fn = 0 then .ok (.movx rd ext) else .error 4))
  else match immForm op with
    | some form =>
      if immPred op && x.extractLsb' 13 1 = 1 then .error 1
      else zero4 3 rb <| if fn ≠ 0 then .error 4 else
        match form with
        | .wide =>
          match decRRI op rd ra ext with
          | .ok i => .ok i
          | .error _ => .error 0x11
        | .bits =>
          match decRRI op rd ra (ext.setWidth 12 |>.setWidth 32) with
          | .ok i => if ext.extractLsb' 12 20 = 0 then .ok i else .error 0x12
          | .error _ => .error 0x11
    | none => carried (decRRRR op (.unpack (ext.extractLsb' 0 20))) x (ext.extractLsb' 20 12 = 0)

/-- The memory operand of C.ML: EXT is the byte offset, or the index register with reserved bits above (02 R34). -/
def loneMemOp (x : BitVec 14) (ext : BitVec 32) : Enc MemOp :=
  if x.extractLsb' 0 1 ≠ 0 then .error 6
  else if x.extractLsb' 5 1 = 0 then
    .ok ⟨x.extractLsb' 6 4, .bytes ext, x.extractLsb' 4 1 = 1, x.extractLsb' 1 3⟩
  else if ext.extractLsb' 4 28 = 0 then
    .ok ⟨x.extractLsb' 6 4, .index (ext.extractLsb' 0 4), x.extractLsb' 4 1 = 1, x.extractLsb' 1 3⟩
  else .error 0x12

/-- The codes of C.ML whose nb field is reserved: PREF, LDA and STL (07 R157, 09 R201). -/
def noNb (op : BitVec 8) : Bool := op.toNat == 0x2F || (0x38 ≤ op.toNat && op.toNat ≤ 0x3B)

/-- A C instruction in a lone bundle (03 R58-R60, R63). -/
def decLoneC (op : BitVec 8) (x : BitVec 14) (ext : BitVec 32) : Enc Instr :=
  let rd : BitVec 4 := x.extractLsb' 10 4
  let ra : BitVec 4 := x.extractLsb' 6 4
  let rb : BitVec 4 := x.extractLsb' 2 4
  let fn : BitVec 2 := x.extractLsb' 0 2
  let fn0 (k : Enc Instr) : Enc Instr := if fn = 0 then k else .error 4
  let ext16 (k : BitVec 16 → Instr) : Enc Instr :=
    if ext.extractLsb' 16 16 = 0 then .ok (k (ext.extractLsb' 0 16)) else .error 0x12
  let ext12 (k : BitVec 12 → Instr) : Enc Instr :=
    if ext.extractLsb' 12 20 = 0 then .ok (k (ext.extractLsb' 0 12)) else .error 0x12
  if isMemCode op then
    if noNb op && x.extractLsb' 4 1 = 1 && (op ≠ 0x2F || rd = 0) then .error 4
    else match loneMemOp x ext with
      | .ok m => decMem op rd m
      | .error n =>
        match decMem op rd ⟨0, .bytes 0, false, 0⟩ with
        | .ok _ => .error n
        | .error n' => .error n'
  else if isRRBCode op then
    zero4 1 rd <|
      match decRRB op ra rb ext with
      | .ok i => fn0 (.ok i)
      | .error _ => .error 3
  else match op.toNat with
    | 0x04 => zero4 1 rd (zero4 2 ra (zero4 3 rb (fn0 (.ok (.bri ext)))))
    | 0x05 => zero4 1 rd (zero4 2 ra (zero4 3 rb (fn0 (.ok (.brli ext)))))
    | 0x11 => zero4 1 rd (zero4 2 ra (zero4 3 rb (fn0 (ext16 .sigchk))))
    | 0xD4 => zero4 1 rd (zero4 2 ra (zero4 3 rb (fn0 (ext16 .trap))))
    | 0x81 => fn0 (ext12 (.sendl rd ra rb))
    | 0xC0 => pOf 1 rd fun k => zero4 2 ra (zero4 3 rb (fn0 (ext12 fun g => .slkset k (.grains g))))
    | 0xD0 =>
      if ra ≠ 0 && ext.extractLsb' 0 12 ≠ dmapNumber then .error 2
      else zero4 3 rb (fn0 (ext12 (.csrr rd ra)))
    | 0xD1 => zero4 3 rb (fn0 (ext12 (.csrw rd ra)))
    | 0xD2 => zero4 3 rb (fn0 (ext12 (.csrs rd ra)))
    | 0xD3 => zero4 3 rb (fn0 (ext12 (.csrc rd ra)))
    | 0x5F => carried (decFence (ext.extractLsb' 0 15)) x (ext.extractLsb' 15 17 = 0)
    | _ => match decNone op with
      | some i =>
        zero4 1 rd (zero4 2 ra (zero4 3 rb (fn0 (if ext = 0 then .ok i else .error 0x10))))
      | none => carried (decRRR op (.unpack (ext.extractLsb' 0 15))) x (ext.extractLsb' 15 17 = 0)

/-! ### Bundles -/

/-- The two words of a bundle at ascending addresses, each little-endian (02 R25). -/
structure Words where
  w0 : Half
  w1 : Half
  deriving DecidableEq, Repr

/-- The decoder: the bundle, or the class-0 cause that it raises (03 R63). -/
def decodeBundle (w : Words) : Enc Bundle :=
  let stall : BitVec 4 := w.w0.extractLsb' 27 4
  let g : Guard := ⟨w.w0.extractLsb' 24 3, w.w0.extractLsb' 23 1 = 1⟩
  if w.w0.extractLsb' 31 1 = 0 then
    match decPairedC (w.w0.extractLsb' 15 8) (w.w0.extractLsb' 0 15) with
    | .error n => .error n
    | .ok c =>
      match inSlot1 (decPairedA (w.w1.extractLsb' 20 8) (w.w1.extractLsb' 0 20)) with
      | .error n => .error n
      | .ok a => .ok (.paired stall g c ⟨w.w1.extractLsb' 29 3, w.w1.extractLsb' 28 1 = 1⟩ a)
  else
    match (if w.w0.extractLsb' 22 1 = 0 then decLoneC (w.w0.extractLsb' 14 8) (w.w0.extractLsb' 0 14) w.w1
      else decLoneA (w.w0.extractLsb' 14 8) (w.w0.extractLsb' 0 14) w.w1) with
    | .error n => .error n
    | .ok i => .ok (.lone stall g i)

/-! ### The encoder -/

/-- An instruction as its code and operand fields, before the choice of the paired or the lone form. -/
inductive Raw where
  | rrrr (op : BitVec 8) (f : RRRR)
  | rri (op : BitVec 8) (rd ra : Reg) (imm : BitVec 32)
  | bits (op : BitVec 8) (rd ra : Reg) (pw : BitVec 12)
  | movi (rd : Reg) (imm : BitVec 32)
  | movl (op : BitVec 8) (rd : Reg) (lane : BitVec 2) (ext : BitVec 32)
  | none (op : BitVec 8)
  | rrr (op : BitVec 8) (f : RRR)
  | b (op : BitVec 8) (off : BitVec 32)
  | rrb (op : BitVec 8) (ra rb : Reg) (off : BitVec 32)
  | fence (code : BitVec 6)
  | mem (op : BitVec 8) (rd : Reg) (m : MemOp)
  | loneC (op : BitVec 8) (rd ra rb : Reg) (ext : BitVec 32)
  deriving DecidableEq, Repr

/-- The register of a two-operand vector instruction's second source. -/
def VSrc.reg : VSrc → Reg
  | .array c => c.even
  | .sf c | .si c => c
/-- The fn value of a two-operand vector instruction. -/
def VSrc.fn : VSrc → BitVec 4
  | .array _ => 0
  | .sf _ => 1
  | .si _ => 2
/-- The register of a bitwise vector instruction's second source. -/
def VBits.reg : VBits → Reg
  | .array c | .sb c => c
/-- The fn value of a bitwise vector instruction. -/
def VBits.fn : VBits → BitVec 4
  | .array _ => 0
  | .sb _ => 1
/-- The register of VFILL's scalar. -/
def VScalar.reg : VScalar → Reg
  | .fp32 c | .si c => c
/-- The fn value of VFILL. -/
def VScalar.fn : VScalar → BitVec 4
  | .fp32 _ => 0
  | .si _ => 1
/-- The rb field of PMK. -/
def PmkSpace.reg : PmkSpace → Reg
  | .ver | .imm => 0
  | .tlm b | .peer b => b
/-- The fn value of PMK. -/
def PmkSpace.fn : PmkSpace → BitVec 4
  | .ver => 0
  | .tlm _ => 1
  | .imm => 2
  | .peer _ => 3
/-- The fn value of PSET. -/
def PsetField.fn : PsetField → BitVec 4
  | .fmt => 0 | .blk => 1 | .id => 2 | .loc => 3
/-- The fn value of PGET. -/
def PgetField.fn : PgetField → BitVec 4
  | .fmt => 0 | .blk => 1 | .space => 2 | .id => 3 | .loc => 4
/-- The rd field of PIDX. -/
def PidxRegs.rd : PidxRegs → Reg
  | .one d _ => d
  | .pair d _ => d.even
/-- The ra field of PIDX. -/
def PidxRegs.ra : PidxRegs → Reg
  | .one _ a => a
  | .pair _ a => a.even
/-- The fn value of PIDX. -/
def PidxRegs.fn : PidxRegs → BitVec 4
  | .one .. => 0
  | .pair .. => 1
/-- The fn value of FCVT.f16. -/
def F16Conv.fn : F16Conv → BitVec 4
  | .toF16 => 0 | .toF32 => 1 | .toF16Sat => 2
/-- The rb field of SYNCR. -/
def SyncOp.code : SyncOp → BitVec 4
  | .add => 0 | .min => 1 | .max => 2 | .and => 3 | .or => 4 | .xor => 5 | .fmin => 6 | .fmax => 7 | .fadd => 8
/-- The code of an ordering class (09 Table 9.3). -/
def FenceOrd.code : FenceOrd → BitVec 2
  | .acq => 0 | .rel => 1 | .ar => 2 | .sc => 3
/-- The code of a scope (09 Table 9.1). -/
def Scope.code : Scope → BitVec 3
  | .strand => 0 | .tile => 1 | .die => 2 | .device => 3 | .fabric => 4

/-- The code and operand fields of an instruction (03 Tables 3.2-3.5); none for an operation no bundle holds. -/
def Instr.raw : Instr → Option Raw
  | .add d a b => some (.rrrr 0x00 ⟨d, a, b, 0, 0⟩)
  | .sub d a b => some (.rrrr 0x01 ⟨d, a, b, 0, 0⟩)
  | .mul d a b => some (.rrrr 0x03 ⟨d, a, b, 0, 0⟩)
  | .mulhS d a b => some (.rrrr 0x05 ⟨d, a, b, 0, 0⟩)
  | .mulhZ d a b => some (.rrrr 0x06 ⟨d, a, b, 0, 0⟩)
  | .divS d a b => some (.rrrr 0x07 ⟨d, a, b, 0, 0⟩)
  | .divZ d a b => some (.rrrr 0x08 ⟨d, a, b, 0, 0⟩)
  | .remS d a b => some (.rrrr 0x09 ⟨d, a, b, 0, 0⟩)
  | .remZ d a b => some (.rrrr 0x0A ⟨d, a, b, 0, 0⟩)
  | .and d a b => some (.rrrr 0x10 ⟨d, a, b, 0, 0⟩)
  | .or d a b => some (.rrrr 0x11 ⟨d, a, b, 0, 0⟩)
  | .xor d a b => some (.rrrr 0x12 ⟨d, a, b, 0, 0⟩)
  | .andn d a b => some (.rrrr 0x13 ⟨d, a, b, 0, 0⟩)
  | .shl d a b => some (.rrrr 0x18 ⟨d, a, b, 0, 0⟩)
  | .shrZ d a b => some (.rrrr 0x1A ⟨d, a, b, 0, 0⟩)
  | .shrS d a b => some (.rrrr 0x1C ⟨d, a, b, 0, 0⟩)
  | .rot d a b => some (.rrrr 0x1E ⟨d, a, b, 0, 0⟩)
  | .minS d a b => some (.rrrr 0x20 ⟨d, a, b, 0, 0⟩)
  | .minZ d a b => some (.rrrr 0x21 ⟨d, a, b, 0, 0⟩)
  | .maxS d a b => some (.rrrr 0x22 ⟨d, a, b, 0, 0⟩)
  | .maxZ d a b => some (.rrrr 0x23 ⟨d, a, b, 0, 0⟩)
  | .padd d a b => some (.rrrr 0x3A ⟨d, a, b, 0, 0⟩)
  | .fsgnCopy d a b => some (.rrrr 0x42 ⟨d, a, b, 0, 0⟩)
  | .fadd d a b => some (.rrrr 0x43 ⟨d, a, b, 0, 0⟩)
  | .fsub d a b => some (.rrrr 0x44 ⟨d, a, b, 0, 0⟩)
  | .fmul d a b => some (.rrrr 0x45 ⟨d, a, b, 0, 0⟩)
  | .fdiv d a b => some (.rrrr 0x4A ⟨d, a, b, 0, 0⟩)
  | .fmin d a b => some (.rrrr 0x4C ⟨d, a, b, 0, 0⟩)
  | .fmax d a b => some (.rrrr 0x4D ⟨d, a, b, 0, 0⟩)
  | .abs d a => some (.rrrr 0x24 ⟨d, a, 0, 0, 0⟩)
  | .clz d a => some (.rrrr 0x25 ⟨d, a, 0, 0, 0⟩)
  | .ctz d a => some (.rrrr 0x26 ⟨d, a, 0, 0, 0⟩)
  | .popc d a => some (.rrrr 0x27 ⟨d, a, 0, 0, 0⟩)
  | .bswap d a => some (.rrrr 0x28 ⟨d, a, 0, 0, 0⟩)
  | .sext8 d a => some (.rrrr 0x2C ⟨d, a, 0, 0, 0⟩)
  | .sext16 d a => some (.rrrr 0x2D ⟨d, a, 0, 0, 0⟩)
  | .sext32 d a => some (.rrrr 0x2E ⟨d, a, 0, 0, 0⟩)
  | .fsgnAbs d a => some (.rrrr 0x40 ⟨d, a, 0, 0, 0⟩)
  | .fsgnNeg d a => some (.rrrr 0x41 ⟨d, a, 0, 0, 0⟩)
  | .fsqrt d a => some (.rrrr 0x4B ⟨d, a, 0, 0, 0⟩)
  | .fclass d a => some (.rrrr 0x4E ⟨d, a, 0, 0, 0⟩)
  | .fcvtF32S32 d a => some (.rrrr 0x58 ⟨d, a, 0, 0, 0⟩)
  | .fcvtS32F32Rz d a => some (.rrrr 0x59 ⟨d, a, 0, 0, 0⟩)
  | .fcvtS32F32Rn d a => some (.rrrr 0x5A ⟨d, a, 0, 0, 0⟩)
  | .fcvtF32Z32 d a => some (.rrrr 0x5B ⟨d, a, 0, 0, 0⟩)
  | .fcvtF32Bf16 d a => some (.rrrr 0x5E ⟨d, a, 0, 0, 0⟩)
  | .mcfg d a => some (.rrrr 0xC0 ⟨d, a, 0, 0, 0⟩)
  | .ffma d a b c => some (.rrrr 0x46 ⟨d, a, b, c, 0⟩)
  | .ffms d a b c => some (.rrrr 0x47 ⟨d, a, b, c, 0⟩)
  | .fnma d a b c => some (.rrrr 0x48 ⟨d, a, b, c, 0⟩)
  | .fnms d a b c => some (.rrrr 0x49 ⟨d, a, b, c, 0⟩)
  | .fcmpEq d a b => some (.rrrr 0x50 ⟨pField d, a, b, 0, 0⟩)
  | .fcmpLt d a b => some (.rrrr 0x51 ⟨pField d, a, b, 0, 0⟩)
  | .fcmpLe d a b => some (.rrrr 0x52 ⟨pField d, a, b, 0, 0⟩)
  | .fcmpUn d a b => some (.rrrr 0x53 ⟨pField d, a, b, 0, 0⟩)
  | .cmpEq d a b => some (.rrrr 0x60 ⟨pField d, a, b, 0, 0⟩)
  | .cmpNe d a b => some (.rrrr 0x61 ⟨pField d, a, b, 0, 0⟩)
  | .cmpLtS d a b => some (.rrrr 0x62 ⟨pField d, a, b, 0, 0⟩)
  | .cmpLtZ d a b => some (.rrrr 0x63 ⟨pField d, a, b, 0, 0⟩)
  | .cmpLeS d a b => some (.rrrr 0x64 ⟨pField d, a, b, 0, 0⟩)
  | .cmpLeZ d a b => some (.rrrr 0x65 ⟨pField d, a, b, 0, 0⟩)
  | .pand d a b => some (.rrrr 0x34 ⟨pField d, pField a, pField b, 0, 0⟩)
  | .por d a b => some (.rrrr 0x35 ⟨pField d, pField a, pField b, 0, 0⟩)
  | .pxor d a b => some (.rrrr 0x36 ⟨pField d, pField a, pField b, 0, 0⟩)
  | .pandn d a b => some (.rrrr 0x37 ⟨pField d, pField a, pField b, 0, 0⟩)
  | .vadd d a b s => some (.rrrr 0x80 ⟨d, a, b.even, s.reg, s.fn⟩)
  | .vsub d a b s => some (.rrrr 0x81 ⟨d, a, b.even, s.reg, s.fn⟩)
  | .vmul d a b s => some (.rrrr 0x82 ⟨d, a, b.even, s.reg, s.fn⟩)
  | .vfma d a b s => some (.rrrr 0x83 ⟨d, a, b.even, s.reg, s.fn⟩)
  | .vmin d a b s => some (.rrrr 0x84 ⟨d, a, b.even, s.reg, s.fn⟩)
  | .vmax d a b s => some (.rrrr 0x85 ⟨d, a, b.even, s.reg, s.fn⟩)
  | .vdiv d a b s => some (.rrrr 0x99 ⟨d, a, b.even, s.reg, s.fn⟩)
  | .vcmpEq d a b s => some (.rrrr 0x9C ⟨d, a, b.even, s.reg, s.fn⟩)
  | .vcmpLt d a b s => some (.rrrr 0x9D ⟨d, a, b.even, s.reg, s.fn⟩)
  | .vcmpLe d a b s => some (.rrrr 0x9E ⟨d, a, b.even, s.reg, s.fn⟩)
  | .vsel d a b s => some (.rrrr 0xA0 ⟨d, a, b.even, s.reg, s.fn⟩)
  | .vabs d a b => some (.rrrr 0x86 ⟨d, a, b.even, 0, 0⟩)
  | .vneg d a b => some (.rrrr 0x87 ⟨d, a, b.even, 0, 0⟩)
  | .vcvt d a b => some (.rrrr 0x90 ⟨d, a, b.even, 0, 0⟩)
  | .vsum d a b => some (.rrrr 0x94 ⟨d, a, b.even, 0, 0⟩)
  | .vamax d a b => some (.rrrr 0x95 ⟨d, a, b.even, 0, 0⟩)
  | .vexp2 d a b => some (.rrrr 0x98 ⟨d, a, b.even, 0, 0⟩)
  | .vsqrt d a b => some (.rrrr 0x9A ⟨d, a, b.even, 0, 0⟩)
  | .vrsq d a b => some (.rrrr 0x9B ⟨d, a, b.even, 0, 0⟩)
  | .vclamp d a b c => some (.rrrr 0x88 ⟨d, a, b.even, c, 0⟩)
  | .vdq d a b c => some (.rrrr 0x92 ⟨d, a, b.even, c, 0⟩)
  | .vgath d a b c => some (.rrrr 0xA3 ⟨d, a, b.even, c, 0⟩)
  | .vscat d a b c => some (.rrrr 0xA4 ⟨d, a, b.even, c, 0⟩)
  | .vand d a b s => some (.rrrr 0xA8 ⟨d, a, b, s.reg, s.fn⟩)
  | .vor d a b s => some (.rrrr 0xA9 ⟨d, a, b, s.reg, s.fn⟩)
  | .vxor d a b s => some (.rrrr 0xAA ⟨d, a, b, s.reg, s.fn⟩)
  | .vandn d a b s => some (.rrrr 0xAB ⟨d, a, b, s.reg, s.fn⟩)
  | .vshl d a b c => some (.rrrr 0xAC ⟨d, a, b, c, 0⟩)
  | .vshrZ d a b c => some (.rrrr 0xAD ⟨d, a, b, c, 0⟩)
  | .vshrS d a b c => some (.rrrr 0xAE ⟨d, a, b, c, 0⟩)
  | .mmaE4m3 d a b c o => some (.rrrr 0xC8 ⟨d, a.even, b.even, c, bitFn o⟩)
  | .mmaE5m2 d a b c o => some (.rrrr 0xC9 ⟨d, a.even, b.even, c, bitFn o⟩)
  | .mmaE3m2 d a b c o => some (.rrrr 0xCA ⟨d, a.even, b.even, c, bitFn o⟩)
  | .mmaE2m3 d a b c o => some (.rrrr 0xCB ⟨d, a.even, b.even, c, bitFn o⟩)
  | .mmaE2m1 d a b c o => some (.rrrr 0xCC ⟨d, a.even, b.even, c, bitFn o⟩)
  | .mmaBf16 d a b c o => some (.rrrr 0xCD ⟨d, a.even, b.even, c, bitFn o⟩)
  | .mmaF16 d a b c o => some (.rrrr 0xCE ⟨d, a.even, b.even, c, bitFn o⟩)
  | .mmaS8 d a b c o => some (.rrrr 0xCF ⟨d, a.even, b.even, c, bitFn o⟩)
  | .mmalE4m3 d a c o => some (.rrrr 0xD0 ⟨d, a.even, 0, c, bitFn o⟩)
  | .mmalE5m2 d a c o => some (.rrrr 0xD1 ⟨d, a.even, 0, c, bitFn o⟩)
  | .mmalE3m2 d a c o => some (.rrrr 0xD2 ⟨d, a.even, 0, c, bitFn o⟩)
  | .mmalE2m3 d a c o => some (.rrrr 0xD3 ⟨d, a.even, 0, c, bitFn o⟩)
  | .mmalE2m1 d a c o => some (.rrrr 0xD4 ⟨d, a.even, 0, c, bitFn o⟩)
  | .mmalBf16 d a c o => some (.rrrr 0xD5 ⟨d, a.even, 0, c, bitFn o⟩)
  | .mmalF16 d a c o => some (.rrrr 0xD6 ⟨d, a.even, 0, c, bitFn o⟩)
  | .mmalS8 d a c o => some (.rrrr 0xD7 ⟨d, a.even, 0, c, bitFn o⟩)
  | .sel d a b c => some (.rrrr 0x33 ⟨d, a, b, pField c, 0⟩)
  | .pmov d a => some (.rrrr 0x38 ⟨pField d, pField a, 0, 0, 0⟩)
  | .pmk d a c s => some (.rrrr 0x39 ⟨d, a, s.reg, c, s.fn⟩)
  | .pset d a b f => some (.rrrr 0x3C ⟨d, a, b, 0, f.fn⟩)
  | .pget d a f => some (.rrrr 0x3D ⟨d, a, 0, 0, f.fn⟩)
  | .pidx r b => some (.rrrr 0x3E ⟨r.rd, r.ra, b, 0, r.fn⟩)
  | .fcvtBf16F32Rn d a s => some (.rrrr 0x5C ⟨d, a, 0, 0, bitFn s⟩)
  | .fcvtBf16F32Sr d a b s => some (.rrrr 0x5D ⟨d, a, b, 0, bitFn s⟩)
  | .fcvtF16 d a f => some (.rrrr 0x5F ⟨d, a, 0, 0, f.fn⟩)
  | .vqnt d a b c => some (.rrrr 0x91 ⟨d, a.even, b.even, c, 0⟩)
  | .vmxs d a b => some (.rrrr 0x93 ⟨d, a.even, b.even, 0, 0⟩)
  | .vdot d a b c => some (.rrrr 0x96 ⟨d, a, b.even, c.even, 0⟩)
  | .vscan d a b x => some (.rrrr 0x97 ⟨d, a, b.even, 0, bitFn x⟩)
  | .vfill d a s => some (.rrrr 0xA1 ⟨d, a, 0, s.reg, s.fn⟩)
  | .viota d a c => some (.rrrr 0xA2 ⟨d, a, 0, c, 0⟩)
  | .vsortk d a b p => some (.rrrr 0xA5 ⟨d, a, b, p.getD 0, bitFn p.isSome⟩)
  | .vhist d a b c x => some (.rrrr 0xA6 ⟨d, a, b, c, bitFn x⟩)
  | .mzero d c => some (.rrrr 0xC1 ⟨d, 0, 0, c, 0⟩)
  | .latb d a c => some (.rrrr 0xC2 ⟨d, a.even, 0, c, 0⟩)
  | .rotb d k => some (.rrrr 0xC3 ⟨d, 0, 0, 0, k ++ 0#1⟩)
  | .mst d a c k s => some (.rrrr 0xC4 ⟨d, a, 0, c, k ++ BitVec.ofBool s⟩)
  | .mldc d a c k => some (.rrrr 0xC5 ⟨d, a, 0, c, k ++ 0#1⟩)
  | .mscl d a c s => some (.rrrr 0xC6 ⟨d, a, 0, c, bitFn s⟩)
  | .addi d a i => some (.rri 0x02 d a i)
  | .muli d a i => some (.rri 0x04 d a i)
  | .andi d a i => some (.rri 0x14 d a i)
  | .ori d a i => some (.rri 0x15 d a i)
  | .xori d a i => some (.rri 0x16 d a i)
  | .paddi d a i => some (.rri 0x3B d a i)
  | .shli d a s => some (.rri 0x19 d a (s.setWidth 32))
  | .shriZ d a s => some (.rri 0x1B d a (s.setWidth 32))
  | .shriS d a s => some (.rri 0x1D d a (s.setWidth 32))
  | .roti d a s => some (.rri 0x1F d a (s.setWidth 32))
  | .bextS d a p w => some (.bits 0x29 d a (w ++ p))
  | .bextZ d a p w => some (.bits 0x2A d a (w ++ p))
  | .bins d a p w => some (.bits 0x2B d a (w ++ p))
  | .cmpiEq d a i => some (.rri 0x68 (pField d) a i)
  | .cmpiNe d a i => some (.rri 0x69 (pField d) a i)
  | .cmpiLtS d a i => some (.rri 0x6A (pField d) a i)
  | .cmpiLtZ d a i => some (.rri 0x6B (pField d) a i)
  | .cmpiLeS d a i => some (.rri 0x6C (pField d) a i)
  | .movi d i => some (.movi d i)
  | .movk d l i => some (.movl 0x31 d l (i.setWidth 32))
  | .movx d i => some (.movl 0x32 d 0 i)
  | .br a => some (.rrr 0x02 ⟨a, 0, 0, 0⟩)
  | .brl a => some (.rrr 0x03 ⟨a, 0, 0, 0⟩)
  | .haltKeep a => some (.rrr 0x10 ⟨a, 0, 0, 0⟩)
  | .join a => some (.rrr 0x14 ⟨a, 0, 0, 0⟩)
  | .leave a => some (.rrr 0x15 ⟨a, 0, 0, 0⟩)
  | .gbar a => some (.rrr 0x16 ⟨a, 0, 0, 0⟩)
  | .vote a => some (.rrr 0xB2 ⟨a, 0, 0, 0⟩)
  | .rpcfg a => some (.rrr 0xA0 ⟨a, 0, 0, 0⟩)
  | .gstop a => some (.rrr 0xD9 ⟨a, 0, 0, 0⟩)
  | .tclr a => some (.rrr 0x8C ⟨a, 0, 0, 0⟩)
  | .spawn a b => some (.rrr 0x12 ⟨a, b, 0, 0⟩)
  | .waitr a b => some (.rrr 0x17 ⟨a, b, 0, 0⟩)
  | .tarm a b => some (.rrr 0x89 ⟨a, b, 0, 0⟩)
  | .cpshp a b => some (.rrr 0x62 ⟨a, b, 0, 0⟩)
  | .cpstr a b => some (.rrr 0x63 ⟨a, b, 0, 0⟩)
  | .waitvEq d a b k => some (.rrr 0x3C ⟨a, b, d, k⟩)
  | .waitvNe d a b k => some (.rrr 0x3D ⟨a, b, d, k⟩)
  | .waitvGeS d a b k => some (.rrr 0x3E ⟨a, b, d, k⟩)
  | .waitvEq32 d a b k => some (.rrr 0x3F ⟨a, b, d, k⟩)
  | .amoAdd d a b k => some (.rrr 0x45 ⟨a, b, d, k⟩)
  | .amoAnd d a b k => some (.rrr 0x46 ⟨a, b, d, k⟩)
  | .amoOr d a b k => some (.rrr 0x47 ⟨a, b, d, k⟩)
  | .amoXor d a b k => some (.rrr 0x48 ⟨a, b, d, k⟩)
  | .amoMinS d a b k => some (.rrr 0x49 ⟨a, b, d, k⟩)
  | .amoMaxS d a b k => some (.rrr 0x4A ⟨a, b, d, k⟩)
  | .amoMinZ d a b k => some (.rrr 0x4B ⟨a, b, d, k⟩)
  | .amoMaxZ d a b k => some (.rrr 0x4C ⟨a, b, d, k⟩)
  | .amoSwap d a b k => some (.rrr 0x4D ⟨a, b, d, k⟩)
  | .amoAdd32 d a b k => some (.rrr 0x4E ⟨a, b, d, k⟩)
  | .amoSwap32 d a b k => some (.rrr 0x4F ⟨a, b, d, k⟩)
  | .amoFaddF32 d a b k => some (.rrr 0x52 ⟨a, b, d, k⟩)
  | .collAllred d a b k => some (.rrr 0x8D ⟨a, b, d, k⟩)
  | .collBcast d a b k => some (.rrr 0x8E ⟨a, b, d, k⟩)
  | .collAllgat d a b k => some (.rrr 0x8F ⟨a, b, d, k⟩)
  | .collRedsc d a b k => some (.rrr 0x90 ⟨a, b, d, k⟩)
  | .mapt d a b k => some (.rrr 0xD7 ⟨a, b, d, k⟩)
  | .pwgive d a b k => some (.rrr 0xDA ⟨a, b, d, k⟩)
  | .lrw32 d a k => some (.rrr 0x40 ⟨a, 0, d, k⟩)
  | .lrw64 d a k => some (.rrr 0x41 ⟨a, 0, d, k⟩)
  | .sch32 d a b k => some (.rrr 0x42 ⟨a, b, pField d, k⟩)
  | .sch64 d a b k => some (.rrr 0x43 ⟨a, b, pField d, k⟩)
  | .pflAdd d a b k => some (.rrr 0x68 ⟨a, b, pField d, k⟩)
  | .rlsv d a k => some (.rrr 0x44 ⟨a, 0, pField d, k⟩)
  | .cas32 d a b k => some (.rrr 0x50 ⟨a, b.even, d, k⟩)
  | .cas64 d a b k => some (.rrr 0x51 ⟨a, b.even, d, k⟩)
  | .redAddS64 a b k => some (.rrr 0x53 ⟨a, b, 0, k⟩)
  | .redAddF32 a b k => some (.rrr 0x54 ⟨a, b, 0, k⟩)
  | .redAddBf16 a b k => some (.rrr 0x55 ⟨a, b, 0, k⟩)
  | .redAddBf16Sr a b k => some (.rrr 0x56 ⟨a, b, 0, k⟩)
  | .redMinS64 a b k => some (.rrr 0x57 ⟨a, b, 0, k⟩)
  | .redMaxS64 a b k => some (.rrr 0x58 ⟨a, b, 0, k⟩)
  | .redMaxF32 a b k => some (.rrr 0x59 ⟨a, b, 0, k⟩)
  | .redOr64 a b k => some (.rrr 0x5A ⟨a, b, 0, k⟩)
  | .tcon a b k => some (.rrr 0x85 ⟨a, b, 0, k⟩)
  | .tconV a b k => some (.rrr 0x86 ⟨a, b, 0, k⟩)
  | .tcnt a b k => some (.rrr 0x8B ⟨a, b, 0, k⟩)
  | .xinv a b k => some (.rrr 0xD8 ⟨a, b, 0, k⟩)
  | .moveat a b k => some (.rrr 0x18 ⟨a, b, 0, k⟩)
  | .cpsrc a => some (.rrr 0x60 ⟨a.even, 0, 0, 0⟩)
  | .cpdst a => some (.rrr 0x61 ⟨a.even, 0, 0, 0⟩)
  | .cpgo i s k => some (.rrr 0x64 ⟨0, i, s, k⟩)
  | .cpgoMc i s m k => some (.rrr 0x65 ⟨m, i, s, k⟩)
  | .cpcan d a => some (.rrr 0x66 ⟨a, 0, pField d, 0⟩)
  | .cpqry d a => some (.rrr 0x67 ⟨a, 0, d, 0⟩)
  | .inpeek d a => some (.rrr 0x84 ⟨a, 0, d, 0⟩)
  | .tgrp d a => some (.rrr 0x88 ⟨a, 0, d, 0⟩)
  | .rpstat d a => some (.rrr 0xA3 ⟨a, 0, d, 0⟩)
  | .undoq d a => some (.rrr 0xB5 ⟨a, 0, d, 0⟩)
  | .bdef d a => some (.rrr 0xB6 ⟨a, 0, d, 0⟩)
  | .slkev d a => some (.rrr 0xC2 ⟨a, 0, d, 0⟩)
  | .pflClr d => some (.rrr 0x69 ⟨0, 0, d, 0⟩)
  | .sync d => some (.rrr 0xB0 ⟨0, 0, d, 0⟩)
  | .ssnum d => some (.rrr 0xB4 ⟨0, 0, d, 0⟩)
  | .send a b c k => some (.rrr 0x80 ⟨a, b, c, k⟩)
  | .recv d a b => some (.rrr 0x82 ⟨a, b, d, 0⟩)
  | .recvNb d a b => some (.rrr 0x83 ⟨a, b, d, 0⟩)
  | .tget d a b => some (.rrr 0x87 ⟨a, b, d, 0⟩)
  | .clkepoch d a b => some (.rrr 0xDB ⟨a, b, d, 0⟩)
  | .token a k => some (.rrr 0x8A ⟨a, 0, 0, k⟩)
  | .rpgo d a b k => some (.rrr 0xA1 ⟨a.even, b, d, k⟩)
  | .rpgoFine d a b k => some (.rrr 0xA2 ⟨a.even, b, d, k⟩)
  | .syncr d a o => some (.rrr 0xB1 ⟨a, o.code, d, 0⟩)
  | .slkset k (.reg a) => some (.rrr 0xC0 ⟨a, 0, 0, k⟩)
  | .slkset k (.grains g) => some (.loneC 0xC0 (pField k) 0 0 (g.setWidth 32))
  | .slkget d k => some (.rrr 0xC1 ⟨0, 0, d, k⟩)
  | .abort => some (.rrr 0xB3 ⟨0, 0, 0, 0⟩)
  | .ldS8 d m => some (.mem 0x20 d m)
  | .ldZ8 d m => some (.mem 0x21 d m)
  | .ldS16 d m => some (.mem 0x22 d m)
  | .ldZ16 d m => some (.mem 0x23 d m)
  | .ldS32 d m => some (.mem 0x24 d m)
  | .ldZ32 d m => some (.mem 0x25 d m)
  | .ld64 d m => some (.mem 0x26 d m)
  | .ldf d m => some (.mem 0x2D d m)
  | .ld64Pi d m => some (.mem 0x30 d m)
  | .ldfPi d m => some (.mem 0x32 d m)
  | .lda32 d m => some (.mem 0x38 d m)
  | .lda64 d m => some (.mem 0x39 d m)
  | .st8 d m => some (.mem 0x27 d m)
  | .st16 d m => some (.mem 0x28 d m)
  | .st32 d m => some (.mem 0x29 d m)
  | .st64 d m => some (.mem 0x2A d m)
  | .stf d m => some (.mem 0x2E d m)
  | .st64Pi d m => some (.mem 0x31 d m)
  | .stfPi d m => some (.mem 0x33 d m)
  | .stl32 d m => some (.mem 0x3A d m)
  | .stl64 d m => some (.mem 0x3B d m)
  | .ldp d m => some (.mem 0x2B d.even m)
  | .stp d m => some (.mem 0x2C d.even m)
  | .pref m => some (.mem 0x2F 0 m)
  | .nop => some (.none 0x01)
  | .ret => some (.none 0x06)
  | .yield => some (.none 0x0E)
  | .halt => some (.none 0x0F)
  | .taskend => some (.none 0x13)
  | .eret => some (.none 0xD5)
  | .idle => some (.none 0xD6)
  | .loop a o => some (.rrb 0x07 a 0 o)
  | .beq a b o => some (.rrb 0x08 a b o)
  | .bne a b o => some (.rrb 0x09 a b o)
  | .bltS a b o => some (.rrb 0x0A a b o)
  | .bltZ a b o => some (.rrb 0x0B a b o)
  | .bgeS a b o => some (.rrb 0x0C a b o)
  | .bgeZ a b o => some (.rrb 0x0D a b o)
  | .bri o => some (.b 0x04 o)
  | .brli o => some (.b 0x05 o)
  | .fence v o s => some (.fence (BitVec.ofBool v ++ o.code ++ s.code))
  | .sigchk s => some (.loneC 0x11 0 0 0 (s.setWidth 32))
  | .sendl d a b g => some (.loneC 0x81 d a b (g.setWidth 32))
  | .csrr d a x => some (.loneC 0xD0 d a 0 (x.setWidth 32))
  | .csrw d a x => some (.loneC 0xD1 d a 0 (x.setWidth 32))
  | .csrs d a x => some (.loneC 0xD2 d a 0 (x.setWidth 32))
  | .csrc d a x => some (.loneC 0xD3 d a 0 (x.setWidth 32))
  | .trap x => some (.loneC 0xD4 0 0 0 (x.setWidth 32))
  | .yieldWake | .waitrWake | .moveatArrival | .waitvMonitorFree | .reservationGrant | .reservationRevokeTimeout |
    .copyChunkStart | .copyChunkAck | .copyTransferEnd | .inputFetchStart | .pageFetchStart | .messageArrival |
    .messageAccept | .heldMessageSend | .treeContributionCombine | .treeRoundComplete | .treeResultDelivery |
    .tokenArrival | .counterArrival | .triggerFire | .collectiveComplete | .repartitionStart |
    .repartitionHistogramResult | .repartitionItemArrival | .repartitionComplete | .tileArrive | .arriveReceipt |
    .rootDecide | .commitApply | .abortApply | .doneReceipt | .openReceipt | .saveFirkin | .firkinRestore |
    .xinvComplete | .gangStopArrival | .gangResume | .stonesArrival | .divideComplete | .vectorCommandStart |
    .vectorCommandComplete | .rotbPanelArrival | .matrixCommandStart | .matrixCommandComplete | .bundleFetch |
    .taskPop | .stealRequest | .stealRequestService | .stealReply | .stealBackoffExpiry | .bankRetentionEntry |
    .bankWake | .remoteAccessService | .translationWalk | .forwardedAccess | .replyArrival | .deferredFaultTrap |
    .packetGrant | .rejectNoticeArrival | .pathLostNotice | .trapEntry | .asyncCauseTaken | .sliceTimerExpiry |
    .preemptDeadlineExpiry | .entryMakeResident | .launchSlotWrite | .launchStart | .directoryEntryWrite |
    .regionHeaderWrite | .contextEntryWrite | .contextKick | .bar4Read | .bar4Write | .interruptCauseClear |
    .hostRegisterWrite | .getVersion | .getCapabilities | .negotiateAlgorithms | .getDigests | .getCertificate |
    .challenge | .getMeasurements | .deviceReset | .discoveryFlood | .discoveryTimeout | .mapInstallRequest |
    .pwrbalWrite | .powerAverageUpdate | .dutyRecompute | .energyInterval | .scrubSector | .tileLost |
    .railSliceError | .railLost | .pause | .resume | .repair | .retrain | .clrerr | .linkCommandComplete |
    .linkEventDelivery | .keepCopyComplete | .ownTlmLoadReturn | .packetArrival | .receiveBufferEntryRetired |
    .memoryBitError => none

/-- Operand bits of C.M and C.ML without rd: m with its offset or index. -/
def MemOp.pairedBits (m : MemOp) : Option (BitVec 7) :=
  match m.disp with
  | .units u => some (0#1 ++ u)
  | .index x => some (1#1 ++ x ++ 0#2)
  | .bytes _ => none

/-- Code and operand bits in word 0 of a paired bundle (02 Table 2.4). -/
def Raw.pairedC : Raw → Option (BitVec 8 × BitVec 15)
  | .none op => some (op, 0)
  | .rrr op f => some (op, f.pack)
  | .b op off => some (op, off.setWidth 15)
  | .rrb op ra rb off => some (op, ra ++ rb ++ off.setWidth 7)
  | .fence c => some (0x5F, 0#9 ++ c)
  | .mem op rd m => m.pairedBits.map fun x => (op, rd ++ m.base ++ x)
  | .rrrr .. | .rri .. | .bits .. | .movi .. | .movl .. | .loneC .. => Option.none

/-- Code and operand bits in word 1 of a paired bundle. -/
def Raw.pairedA : Raw → Option (BitVec 8 × BitVec 20)
  | .rrrr op f => some (op, f.pack)
  | .rri op rd ra imm => some (op, rd ++ ra ++ imm.setWidth 12)
  | .bits op rd ra pw => some (op, rd ++ ra ++ pw)
  | .movi rd imm => some (0x30, rd ++ imm.setWidth 16)
  | .movl .. | .none .. | .rrr .. | .b .. | .rrb .. | .fence .. | .mem .. | .loneC .. => Option.none

/-- CLS, code, operand bits and EXT of a lone bundle (02 R27, 03 R58, R59). -/
def Raw.lone : Raw → Option (BitVec 1 × BitVec 8 × BitVec 14 × Half)
  | .rrrr op f => some (1, op, 0, 0#12 ++ f.pack)
  | .rri op rd ra imm => some (1, op, rd ++ ra ++ 0#6, imm)
  | .bits op rd ra pw => some (1, op, rd ++ ra ++ 0#6, 0#20 ++ pw)
  | .movi rd imm => some (1, 0x30, rd ++ 0#10, imm)
  | .movl op rd lane ext => some (1, op, rd ++ 0#8 ++ lane, ext)
  | .none op => some (0, op, 0, 0)
  | .rrr op f => some (0, op, 0, 0#17 ++ f.pack)
  | .b op off => some (0, op, 0, off)
  | .rrb op ra rb off => some (0, op, 0#4 ++ ra ++ rb ++ 0#2, off)
  | .fence c => some (0, 0x5F, 0, 0#26 ++ c)
  | .mem op rd m =>
    match m.disp with
    | .bytes off => some (0, op, rd ++ m.base ++ 0#1 ++ BitVec.ofBool m.nb ++ m.sc ++ 0#1, off)
    | .index x => some (0, op, rd ++ m.base ++ 1#1 ++ BitVec.ofBool m.nb ++ m.sc ++ 0#1, 0#28 ++ x)
    | .units _ => Option.none
  | .loneC op rd ra rb ext => some (0, op, rd ++ ra ++ rb ++ 0#2, ext)

/-- The guard bits G and GN. -/
def Guard.bits (g : Guard) : BitVec 4 := g.p ++ BitVec.ofBool g.neg

/-- The encoder: the words of a bundle; none where it has no such form. -/
def encodeBundle : Bundle → Option Words
  | .paired stall gc c ga a =>
    match c.raw.bind Raw.pairedC, a.raw.bind Raw.pairedA with
    | some (oc, xc), some (oa, xa) => some ⟨0#1 ++ stall ++ gc.bits ++ oc ++ xc, ga.bits ++ oa ++ xa⟩
    | _, _ => none
  | .lone stall g i =>
    match i.raw.bind Raw.lone with
    | some (cls, op, x, ext) => some ⟨1#1 ++ stall ++ g.bits ++ cls ++ op ++ x, ext⟩
    | none => none

/-! ### Bytes -/

/-- The words of a bundle from its 64 bits, word 0 in the low half (02 R25). -/
def Words.ofBits (b : Word) : Words := ⟨b.extractLsb' 0 32, b.extractLsb' 32 32⟩

/-- The 64 bits of a bundle, word 0 in the low half. -/
def Words.bits (w : Words) : Word := w.w1 ++ w.w0

/-- The bundle that 8 bytes hold, lowest address first; a missing byte reads as 0. -/
def Words.ofBytes (l : List Byte) : Words :=
  let b (n : Nat) : Byte := l.getD n 0
  ⟨b 3 ++ b 2 ++ b 1 ++ b 0, b 7 ++ b 6 ++ b 5 ++ b 4⟩

/-- The 8 bytes of a bundle, lowest address first (02 R25). -/
def Words.bytes (w : Words) : List Byte :=
  (List.range 8).map fun k => w.bits.extractLsb' (8 * k) 8

/-! ### The rows of the opcode table -/

/-- The A word that fills word 1 beside a single C instruction (02 R33). -/
def emptyA : Half := 0x10000000

/-- The C word that stands beside a single A instruction: NOP with stall count 1 (02 R33). -/
def nopC : Half := 0x08008000

/-- The bundle of one opcode-table row's word (log entry 7): C rows number the bits of word 0, A rows those of word 1.
A word is read as word 0 when it decodes as an unguarded, unstalled C slot, else as word 1, else as any word 0. -/
def tableBundle (w : Nat) : Words :=
  let h : Half := BitVec.ofNat 32 w
  let asC : Words := ⟨h, emptyA⟩
  let asA : Words := ⟨nopC, h⟩
  match decodeBundle asC with
  | .ok _ =>
    if h.extractLsb' 23 9 = 0 then asC
    else match decodeBundle asA with
      | .ok _ => asA
      | .error _ => asC
  | .error _ => asA

/-- The instruction that the decoder reads from an opcode-table row's word (log entry 7). -/
def decodeTableWord (_nbits w : Nat) : Option Instr :=
  let b := tableBundle w
  match decodeBundle b with
  | .ok (.paired _ _ c _ a) => if b.w1 = emptyA then some c else some a
  | .ok (.lone _ _ i) => some i
  | .error _ => none

end

end Sys2Proof
end

