-- ==== Sys2Proof/Config.lean ====
section
/-! DEFINITION. Constants of the OZ9 and the values that the spec leaves open, which nothing can evaluate. -/

namespace Sys2Proof.Config

/-- Values that the spec leaves open (log entry 6): uninterpreted, applied to the counter `freeCtr` of the state. -/
opaque freeWord : Nat → BitVec 64

/-- A count that the spec leaves open (log entry 6). -/
opaque freeNat : Nat → Nat

/-- Trap values that the spec does not state, by the tile's rank, the slot, the cause and how many such traps its strand took before
(log entry 6). -/
opaque freeTval : Nat → Nat → Nat → Nat → BitVec 64

/-- Whether an engine leaves out what it may leave out after a fault, by the tile's rank, the engine, the command's id and the position in
the command (log entry 6). -/
opaque freePart : Nat → Nat → Nat → Nat → Bool

/-- A count of a faulted command that the spec leaves open, by the tile's rank, the engine and the command's id (log entry 6). -/
opaque freeCount : Nat → Nat → Nat → Nat

/-- A result that bounds do not decide, by its format and its operand's significand and exponent (log entry 6). -/
opaque freeRound : Nat → Nat → Int → Nat

/-- SSNUM on a tile that belongs to no partition (log entry 6). -/
opaque freeSsnum : Nat → BitVec 32

/-- A choice that the spec leaves open (log entry 6). -/
opaque freeBool : Nat → Bool

/-- A byte that the spec leaves open (log entry 6). -/
opaque freeByte : Nat → BitVec 8

/-- Whether a tile of another device lies in a partition's rectangle there, which that device's directory gives (18 R433). -/
opaque tileElsewhere : Nat → Nat → Nat → Bool

/-- The device's certificate chain in slot 0 (18 R427): its length and its bytes. -/
opaque certificateLength : Nat
/-- A byte of the certificate chain (18 R427). -/
opaque certificateByte : Nat → BitVec 8
/-- What the signature of a firmware image signs: its security version and its body, in a form that the spec does not state (18 R426). -/
opaque signedMessage : Nat → List (BitVec 8) → List (BitVec 8)
/-- The bytes that a measurement block measures where the model holds nothing of them: calibration data, or an absent image (18 R427). -/
opaque measuredBytes : Nat → List (BitVec 8)
/-- The fuses and CAPS in the form in which block 4 measures them: fused-off tiles, the key's digest, the least security version, CAPS
(18 R427). -/
opaque fuseBytes : List Nat → List (BitVec 8) → Nat → BitVec 64 → List (BitVec 8)

/-- Bytes of a tile's TLM (01 R9). -/
def tlmSize : Nat := 0x80000

/-- Undo granules of a tile (13 Table 13.2). -/
def undoCap : Nat := 2048

/-- Delta-buffer entries of a tile (13 Table 13.2). -/
def deltaCap : Nat := 512

/-- Version-directory lines of a station (13 Table 13.2). -/
def versionCap : Nat := 131072

/-- Undo-journal entries of a station (13 Table 13.2). -/
def journalCap : Nat := 16384

/-- Reduction accumulators of a station (13 Table 13.2). -/
def accCap : Nat := 16384

/-- Outstanding remote requests of a tile and of a strand (07 R149). -/
def tileReqCap : Nat := 256
/-- Outstanding remote requests of a strand (07 R149). -/
def strandReqCap : Nat := 64

/-- Operations that a divide unit holds (05 R91). -/
def divCap : Nat := 16

/-- Entries of an inbox (15 R332). -/
def inboxCap : Nat := 64

/-- Records of a deque (06 R119). -/
def dequeCap : Nat := 64

/-- The module power envelope in stones, by CAPS.VAR: 2 the OZ9-E, 3 the OZ9-H, else the OZ9-F (01 R24, 18 R428). -/
def powerMax (var : Nat) : Nat := if var = 2 then 3150 else if var = 3 then 1750 else 3300

end Sys2Proof.Config
end

