-- ==== Sys2Proof/Machine/Bits.lean ====
section
/-! DEFINITION. Small helpers on words, bytes and lists that the machine's definitions share. -/

namespace Sys2Proof.Machine

/-- Bits hi:lo of a word, as a number. -/
def fieldOf (w : Word) (hi lo : Nat) : Nat := (w.toNat >>> lo) % 2 ^ (hi + 1 - lo)

/-- One bit of a word. -/
def bitOf (w : Word) (n : Nat) : Bool := w.getLsbD n

/-- A word with bits hi:lo replaced by a number. -/
def setField (w : Word) (hi lo v : Nat) : Word :=
  let m : Nat := (2 ^ (hi + 1 - lo) - 1) <<< lo
  (w &&& ~~~(BitVec.ofNat 64 m)) ||| BitVec.ofNat 64 ((v % 2 ^ (hi + 1 - lo)) <<< lo)

/-- The little-endian bytes of a number, lowest first (04 R68). -/
def toBytes (n v : Nat) : List Byte := (List.range n).map fun k => BitVec.ofNat 8 (v >>> (8 * k))

/-- The number that little-endian bytes hold. -/
def ofBytes : List Byte → Nat
  | [] => 0
  | b :: l => b.toNat + 256 * ofBytes l

/-- The low `8 * n` bits of a value, sign-extended to a word. -/
def signedOf (n v : Nat) : Word := BitVec.ofInt 64 ((BitVec.ofNat (8 * n) v).toInt)

/-- A number as a word. -/
def word (n : Nat) : Word := BitVec.ofNat 64 n

/-- Replace element `n` of a list. -/
def setAt {α : Type} (l : List α) (n : Nat) (a : α) : List α := l.set n a

/-- Change the elements of a list that meet a condition. -/
def updateWhere {α : Type} (l : List α) (p : α → Bool) (f : α → α) : List α :=
  l.map fun a => if p a then f a else a

/-- The least element of a list under a key, ties to the earliest. -/
def leastBy {α : Type} (key : α → Nat) : List α → Option α
  | [] => none
  | a :: l =>
    match leastBy key l with
    | none => some a
    | some b => if key b < key a then some b else some a

/-- An element enters a list that rises under a key, behind those of the same key. -/
def insertBy {α : Type} (key : α → Nat) (a : α) : List α → List α
  | [] => [a]
  | b :: l => if key a < key b then a :: b :: l else b :: insertBy key a l

/-- A list in rising order of a key. -/
def sortBy {α : Type} (key : α → Nat) (l : List α) : List α := l.foldl (fun m a => insertBy key a m) []

/-- Whether two byte ranges share a byte. -/
def overlaps (a n b m : Nat) : Bool := decide (a < b + m) && decide (b < a + n)

/-- Round up to a quotient. -/
def ceilDiv (a b : Nat) : Nat := (a + b - 1) / b

/-- The greatest number whose square is at most `n`, by Newton's steps from above. -/
def isqrtFrom : Nat → Nat → Nat → Nat
  | 0, _, x => x
  | fuel + 1, n, x =>
    let y := (x + n / x) / 2
    if y < x then isqrtFrom fuel n y else x

/-- Integer square root. -/
def isqrt (n : Nat) : Nat := if n = 0 then 0 else isqrtFrom (Nat.log2 n + 2) n (2 ^ (Nat.log2 n / 2 + 1))

/-- The count of one bits among the low `n` bits of a number. -/
def popCount : Nat → Nat → Nat
  | 0, _ => 0
  | n + 1, v => v % 2 + popCount n (v / 2)

/-- The numbers of the set bits among the low `n` bits of a number, ascending. -/
def bitList (n v : Nat) : List Nat := (List.range n).filter fun k => (v >>> k) % 2 == 1

/-- The mask whose bit `k` is set for each `k` of a list. -/
def maskOf (l : List Nat) : Nat := l.foldl (fun m k => m ||| (1 <<< k)) 0

end Sys2Proof.Machine
end

