-- ==== Sys2Proof/Machine/Numbers.lean ====
section
/-! DEFINITION. Number formats, rounding, random words, the exact accumulator and chunk sums (04 R67-R87). -/

namespace Sys2Proof.Machine

/-! ### Formats (04 Tables 4.1, 4.2) -/

/-- The format codes of a fat pointer, in the order of their codes (04 Table 4.1). -/
inductive Format where
  | raw | s8 | s16 | s32 | fp32 | bf16 | fp16 | e4m3 | e5m2 | e3m2 | e2m3 | e2m1 | z8 | z32 | s64 | reserved
  deriving DecidableEq, Repr

/-- The format of a code (04 Table 4.1). -/
def Format.ofCode (n : Nat) : Format :=
  match n % 16 with
  | 0 => .raw | 1 => .s8 | 2 => .s16 | 3 => .s32 | 4 => .fp32 | 5 => .bf16 | 6 => .fp16 | 7 => .e4m3
  | 8 => .e5m2 | 9 => .e3m2 | 10 => .e2m3 | 11 => .e2m1 | 12 => .z8 | 13 => .z32 | 14 => .s64 | _ => .reserved

/-- The code of a format (04 Table 4.1). -/
def Format.code : Format → Nat
  | .raw => 0 | .s8 => 1 | .s16 => 2 | .s32 => 3 | .fp32 => 4 | .bf16 => 5 | .fp16 => 6 | .e4m3 => 7
  | .e5m2 => 8 | .e3m2 => 9 | .e2m3 => 10 | .e2m1 => 11 | .z8 => 12 | .z32 => 13 | .s64 => 14 | .reserved => 15

/-- Bits per element (04 Table 4.1); 0 for the reserved code. -/
def Format.bits : Format → Nat
  | .raw | .s8 | .e4m3 | .e5m2 | .z8 => 8
  | .s16 | .bf16 | .fp16 => 16
  | .s32 | .fp32 | .z32 => 32
  | .s64 => 64
  | .e3m2 | .e2m3 => 6
  | .e2m1 => 4
  | .reserved => 0

/-- Bytes of a granule (04 Table 4.1). -/
def Format.granBytes : Format → Nat
  | .raw | .s8 | .e4m3 | .e5m2 | .z8 | .e2m1 => 1
  | .s16 | .bf16 | .fp16 => 2
  | .s32 | .fp32 | .z32 => 4
  | .s64 => 8
  | .e3m2 | .e2m3 => 3
  | .reserved => 1

/-- Elements of a granule (04 Table 4.1). -/
def Format.granElems : Format → Nat
  | .e3m2 | .e2m3 => 4
  | .e2m1 => 2
  | _ => 1

/-- Whether a format takes block scales (04 Table 4.1). -/
def Format.scalable : Format → Bool
  | .s8 | .e4m3 | .e5m2 | .e3m2 | .e2m3 | .e2m1 => true
  | _ => false

/-- The kinds of format (04 Table 4.1). -/
inductive Kind where
  | raw | signed | unsigned | float | none
  deriving DecidableEq, Repr

/-- The kind of a format (04 Table 4.1). -/
def Format.kind : Format → Kind
  | .raw => .raw
  | .s8 | .s16 | .s32 | .s64 => .signed
  | .z8 | .z32 => .unsigned
  | .fp32 | .bf16 | .fp16 | .e4m3 | .e5m2 | .e3m2 | .e2m3 | .e2m1 => .float
  | .reserved => .none

/-- What the top exponent of a floating-point format encodes (04 Table 4.2). -/
inductive Special where
  | ieee | topNaN | none
  deriving DecidableEq, Repr

/-- The parameters of a floating-point format: exponent and significand widths, bias, what its top encodings are and its
canonical NaN (04 Table 4.2). -/
structure FloatFmt where
  e       : Nat
  m       : Nat
  bias    : Nat
  special : Special
  nan     : Nat
  deriving DecidableEq, Repr

/-- The floating-point formats (04 Table 4.2); other formats have no parameters. -/
def Format.float? : Format → Option FloatFmt
  | .fp32 => some ⟨8, 23, 127, .ieee, 0x7FC00000⟩
  | .bf16 => some ⟨8, 7, 127, .ieee, 0x7FC0⟩
  | .fp16 => some ⟨5, 10, 15, .ieee, 0x7E00⟩
  | .e4m3 => some ⟨4, 3, 7, .topNaN, 0x7F⟩
  | .e5m2 => some ⟨5, 2, 15, .ieee, 0x7E⟩
  | .e3m2 => some ⟨3, 2, 3, .none, 0⟩
  | .e2m3 => some ⟨2, 3, 1, .none, 0⟩
  | .e2m1 => some ⟨2, 1, 1, .none, 0⟩
  | _ => none

/-- The encoding of the largest finite magnitude (04 Table 4.2). -/
def FloatFmt.maxFinite (f : FloatFmt) : Nat :=
  match f.special with
  | .ieee => (2 ^ f.e - 1) * 2 ^ f.m - 1
  | .topNaN => 2 ^ (f.e + f.m) - 2
  | .none => 2 ^ (f.e + f.m) - 1

/-! ### Exact values -/

/-- An exact value: NaN, an infinity, or (−1)^neg × m × 2^e, where m = 0 is a signed zero. -/
inductive Num where
  | nan
  | inf (neg : Bool)
  | fin (neg : Bool) (m : Nat) (e : Int)
  deriving DecidableEq, Repr

/-- An integer as an exact value. -/
def Num.ofInt (n : Int) : Num := .fin (decide (n < 0)) n.natAbs 0

/-- Positive zero. -/
def Num.zero : Num := .fin false 0 0

/-- The value of a floating-point encoding (04 R70). -/
def FloatFmt.decode (f : FloatFmt) (v : Nat) : Num :=
  let neg := (v >>> (f.e + f.m)) % 2 == 1
  let ex := (v >>> f.m) % 2 ^ f.e
  let mant := v % 2 ^ f.m
  let sub : Num := .fin neg mant (1 - (f.bias : Int) - f.m)
  let nor : Num := .fin neg (2 ^ f.m + mant) ((ex : Int) - f.bias - f.m)
  match f.special with
  | .ieee => if ex = 2 ^ f.e - 1 then (if mant = 0 then .inf neg else .nan) else if ex = 0 then sub else nor
  | .topNaN => if v % 2 ^ (f.e + f.m) = 2 ^ (f.e + f.m) - 1 then .nan else if ex = 0 then sub else nor
  | .none => if ex = 0 then sub else nor

/-- The exact value of an encoding (04 R68-R71); raw bytes read as unsigned bytes. -/
def Format.decode (f : Format) (v : Nat) : Num :=
  match f.float? with
  | some p => p.decode (v % 2 ^ f.bits)
  | none =>
    match f.kind with
    | .signed => .ofInt (BitVec.ofNat f.bits v).toInt
    | _ => .ofInt (v % 2 ^ f.bits)

/-- A magnitude shifted by 2^k, as its integer part and whether bits were lost. -/
def shiftMag (m : Nat) (k : Int) : Nat × Bool :=
  if 0 ≤ k then (m <<< k.toNat, false)
  else (m >>> (-k).toNat, decide (m % 2 ^ (-k).toNat ≠ 0))

/-- −x. -/
def Num.neg : Num → Num
  | .nan => .nan
  | .inf s => .inf (!s)
  | .fin s m e => .fin (!s) m e

/-- |x|. -/
def Num.abs : Num → Num
  | .nan => .nan
  | .inf _ => .inf false
  | .fin _ m e => .fin false m e

/-- Whether a value is NaN. -/
def Num.isNaN : Num → Bool
  | .nan => true
  | _ => false

/-- The signed integer x × 2^k of a finite value whose bits reach no lower than 2^-k; bits below are dropped toward
minus infinity. -/
def Num.scaledInt (s : Bool) (m : Nat) (e : Int) (k : Int) : Int :=
  let r := shiftMag m (e + k)
  if s then -((r.1 : Int) + (if r.2 then 1 else 0)) else r.1

/-- The exact sum, with IEEE 754's rules for infinities and the sign of an exact zero (04 R86, 05 R104). -/
def Num.add : Num → Num → Num
  | .nan, _ | _, .nan => .nan
  | .inf s, .inf t => if s = t then .inf s else .nan
  | .inf s, .fin .. => .inf s
  | .fin .., .inf t => .inf t
  | .fin s m e, .fin t n f =>
    let l := min e f
    let a : Int := (m <<< (e - l).toNat : Nat)
    let b : Int := (n <<< (f - l).toNat : Nat)
    let sum := (if s then -a else a) + (if t then -b else b)
    if sum = 0 then .fin (m == 0 && n == 0 && s && t) 0 0 else .fin (decide (sum < 0)) sum.natAbs l

/-- The exact product (05 R104). -/
def Num.mul : Num → Num → Num
  | .nan, _ | _, .nan => .nan
  | .inf s, .inf t => .inf (s != t)
  | .inf s, .fin t n _ => if n = 0 then .nan else .inf (s != t)
  | .fin s m _, .inf t => if m = 0 then .nan else .inf (s != t)
  | .fin s m e, .fin t n f => .fin (s != t) (m * n) (e + f)

/-- Multiplication by a power of two. -/
def Num.scale (x : Num) (k : Int) : Num :=
  match x with
  | .fin s m e => .fin s m (e + k)
  | y => y

/-- The quotient, to 192 significant bits with a sticky bit below them, so that every rounding of it is that of the exact
quotient (05 R104). -/
def Num.div : Num → Num → Num
  | .nan, _ | _, .nan => .nan
  | .inf _, .inf _ => .nan
  | .inf s, .fin t _ _ => .inf (s != t)
  | .fin s _ _, .inf t => .fin (s != t) 0 0
  | .fin s m e, .fin t n f =>
    if n = 0 then (if m = 0 then .nan else .inf (s != t))
    else if m = 0 then .fin (s != t) 0 0
    else
      let k := 192 + Nat.log2 n + (e - f).toNat
      let q := (m <<< k) / n
      let sticky := if (m <<< k) % n = 0 then 0 else 1
      .fin (s != t) (2 * q + sticky) (e - f - k - 1)

/-- The square root, to at least 128 significant bits with a sticky bit (05 R104). -/
def Num.sqrt : Num → Num
  | .nan => .nan
  | .inf s => if s then .nan else .inf false
  | .fin s m e =>
    if m = 0 then .fin s 0 0
    else if s then .nan
    else
      let k : Nat := 256 + (e % 2).toNat
      let a := m <<< k
      let r := isqrt a
      .fin false (2 * r + (if r * r = a then 0 else 1)) ((e - k) / 2 - 1)

/-- Numerical order of two values that are not NaN, −0 equal to +0. -/
def Num.lt (x y : Num) : Bool :=
  match x, y with
  | .nan, _ | _, .nan => false
  | .inf s, .inf t => s && !t
  | .inf s, .fin .. => s
  | .fin .., .inf t => !t
  | .fin s m e, .fin t n f =>
    let l := min e f
    let a : Int := (m <<< (e - l).toNat : Nat)
    let b : Int := (n <<< (f - l).toNat : Nat)
    decide ((if s then -a else a) < (if t then -b else b))

/-- Equality of two values, false on NaN, −0 equal to +0 (05 R106). -/
def Num.eq (x y : Num) : Bool := !x.isNaN && !y.isNaN && !Num.lt x y && !Num.lt y x

/-- Whether x sorts below y when −0 is ordered below +0 (05 R105); neither is NaN. -/
def Num.below (x y : Num) : Bool :=
  Num.lt x y || (Num.eq x y && (match x, y with
    | .fin s 0 _, .fin t 0 _ => s && !t
    | _, _ => false))

/-! ### Rounding to a format (04 R77-R79) -/

/-- The rounding modes (04 R77). -/
inductive Rnd where
  | rn | rz | sr
  deriving DecidableEq, Repr

/-- NaNOut (04 Table 4.5). -/
def FloatFmt.nanOut (f : FloatFmt) : Nat := f.nan

/-- Overflow (04 Table 4.5). -/
def FloatFmt.overflow (f : FloatFmt) (s sat : Bool) : Nat :=
  let sign := if s then 2 ^ (f.e + f.m) else 0
  match f.special with
  | .ieee => sign + (if sat then f.maxFinite else (2 ^ f.e - 1) * 2 ^ f.m)
  | .topNaN => if sat then sign + f.maxFinite else f.nan
  | .none => sign + f.maxFinite

/-- Whether the kept significand is incremented: `frac / 2^bits` is the discarded fraction g (04 R77). -/
def roundUp (mode : Rnd) (odd : Bool) (frac bits : Nat) (rw : Nat) : Bool :=
  match mode with
  | .rn => decide (2 * frac > 2 ^ bits) || (decide (2 * frac = 2 ^ bits) && odd)
  | .rz => false
  | .sr => decide ((frac * 2 ^ 16) / 2 ^ bits + rw ≥ 2 ^ 16)

/-- RoundToFormat (04 R77): the encoding nearest to an exact value. -/
def FloatFmt.round (f : FloatFmt) (x : Num) (mode : Rnd) (sat : Bool) (rw : Nat) : Nat :=
  match x with
  | .nan => f.nanOut
  | .inf s => f.overflow s sat
  | .fin s m e =>
    let sign := if s then 2 ^ (f.e + f.m) else 0
    if m = 0 then sign
    else
      let b : Int := max ((Nat.log2 m : Int) + e) (1 - (f.bias : Int))
      let u : Int := b - f.m
      -- a / u = m × 2^(e − u)
      let q := (shiftMag m (e - u)).1
      let bits := (u - e).toNat
      let frac := m % 2 ^ bits
      let q := if roundUp mode (q % 2 == 1) frac bits rw then q + 1 else q
      -- encode q × 2^u
      let enc : Nat :=
        if q < 2 ^ f.m then q
        else ((b + f.bias).toNat - 1) * 2 ^ f.m + q
      if enc > f.maxFinite then f.overflow s (sat || mode = .rz) else sign + enc

/-- RoundToFormat for a format code; a format that is not floating-point gives 0 (never asked for). -/
def roundToFormat (x : Num) (f : Format) (mode : Rnd) (sat : Bool) (rw : Nat) : Nat :=
  match f.float? with
  | some p => p.round x mode sat rw
  | none => 0

/-- FP32 to nearest, without saturation. -/
def roundFp32 (x : Num) : Nat := roundToFormat x .fp32 .rn false 0

/-- The least value of an integer format (04 R79). -/
def Format.minInt (f : Format) : Int :=
  match f.kind with
  | .signed => -(2 ^ (f.bits - 1) : Nat)
  | _ => 0

/-- The greatest value of an integer format (04 R79). -/
def Format.maxInt (f : Format) : Int :=
  match f.kind with
  | .signed => (2 ^ (f.bits - 1) : Nat) - 1
  | _ => (2 ^ f.bits : Nat) - 1

/-- Saturate to an integer format (04 R79). -/
def saturate (v : Int) (f : Format) : Int := min (max v f.minInt) f.maxInt

/-- Wrap to an integer format (04 R79). -/
def wrap (v : Int) (f : Format) : Int :=
  match f.kind with
  | .signed => (BitVec.ofInt f.bits v).toInt
  | _ => v % (2 ^ f.bits : Nat)

/-- The encoding of an integer in a format's bits. -/
def encodeInt (v : Int) (f : Format) : Nat := (BitVec.ofInt f.bits v).toNat

/-- RoundToInt (04 R79). -/
def roundToInt (x : Num) (f : Format) (mode : Rnd) (rw : Nat) : Int :=
  match x with
  | .nan => 0
  | .inf s => if s then f.minInt else f.maxInt
  | .fin s m e =>
    let q := (shiftMag m e).1
    let bits := (-e).toNat
    let frac := m % 2 ^ bits
    let q := if roundUp mode (q % 2 == 1) frac bits rw then q + 1 else q
    saturate (if s then -(q : Int) else q) f

/-- Narrow an exact value to any arithmetic format: rounding to nearest into a floating-point format, RoundToInt otherwise. -/
def narrow (x : Num) (f : Format) (mode : Rnd) (sat : Bool) (rw : Nat) : Nat :=
  match f.float? with
  | some p => p.round x mode sat rw
  | none => encodeInt (roundToInt x f mode rw) f

/-! ### Random words (04 R80, R81) -/

/-- Mix64, the SplitMix64 finaliser (04 R80). -/
def mix64 (z : Word) : Word :=
  let z := (z ^^^ (z >>> 30)) * 0xBF58476D1CE4E5B9#64
  let z := (z ^^^ (z >>> 27)) * 0x94D049BB133111EB#64
  z ^^^ (z >>> 31)

/-- RandomWord (04 R81). -/
def randomWord (seed a : Word) (n : Nat) : Nat :=
  (mix64 (seed ^^^ (a >>> 1) ^^^ (BitVec.ofNat 64 (n <<< 40))) >>> 48).toNat

/-! ### The exact accumulator (04 R83-R85) -/

/-- The accumulator (04 Table 4.7); bit i of V has weight 2^(i − 149). -/
structure Acc where
  v    : Int
  cnt  : Nat
  nan  : Bool
  pinf : Bool
  ninf : Bool
  nz   : Bool
  deriving DecidableEq, Repr

/-- AccClear (04 R84). -/
def Acc.clear : Acc := ⟨0, 0, false, false, false, true⟩

/-- ExactAdd (04 R84). -/
def Acc.add (a : Acc) (x : Num) : Acc :=
  let a := if a.cnt = 2 ^ 42 then { a with nan := true } else { a with cnt := a.cnt + 1 }
  match x with
  | .nan => { a with nan := true, nz := false }
  | .inf s => if s then { a with ninf := true, nz := false } else { a with pinf := true, nz := false }
  | .fin s m e => { a with v := a.v + Num.scaledInt s m e 149, nz := a.nz && s && m == 0 }

/-- ExactAddPair (04 R84). -/
def Acc.addPair (a : Acc) (n e : Int) : Acc :=
  if (0 ≤ e ∧ (n.natAbs <<< e.toNat) ≥ 2 ^ 128) ∨ (e < 0 ∧ n.natAbs ≥ 2 ^ (128 + (-e).toNat)) then { a with nan := true }
  else a.add (.fin (decide (n < 0)) n.natAbs e)

/-- Two accumulators of disjoint contributions as one: every step of ExactAdd commutes (04 R84). -/
def Acc.merge (a b : Acc) : Acc :=
  { v := a.v + b.v, cnt := min (a.cnt + b.cnt) (2 ^ 42),
    nan := a.nan || b.nan || decide (a.cnt + b.cnt > 2 ^ 42), pinf := a.pinf || b.pinf, ninf := a.ninf || b.ninf,
    nz := a.nz && b.nz }

/-- The exact value that AccRound reads, with its special cases (04 R85). -/
def Acc.value (a : Acc) : Num :=
  if a.nan || (a.pinf && a.ninf) then .nan
  else if a.pinf then .inf false
  else if a.ninf then .inf true
  else if a.v = 0 then .fin (decide (a.cnt > 0) && a.nz) 0 0
  else .fin (decide (a.v < 0)) a.v.natAbs (-149)

/-- AccRound (04 R85). -/
def Acc.round (a : Acc) (f : Format) (mode : Rnd) (sat : Bool) (rw : Nat) : Nat :=
  roundToFormat a.value f mode sat rw

/-! ### Elements of an operand (04 R71, R72, R76) -/

/-- The value of an E8M0 scale byte as an exponent; none for NaN (04 R72). -/
def scaleExp (s : Byte) : Option Int := if s = 0xFF then none else some ((s.toNat : Int) - 127)

/-- The bit offset of element i from the operand's first byte (04 R71): whole granules are little-endian. -/
def elemBitOffset (f : Format) (i : Nat) : Nat := i * f.bits

/-- Element i of a list of bytes (04 R71, R76). -/
def elemBits (f : Format) (bytes : List Byte) (i : Nat) : Nat :=
  let b := elemBitOffset f i
  (ofBytes ((bytes.drop (b / 8)).take 9) >>> (b % 8)) % 2 ^ f.bits

/-- A value times its block's scale (04 R76). -/
def applyScale (x : Num) (s : Byte) : Num :=
  match scaleExp s with
  | none => .nan
  | some k => x.scale k

/-! ### Chunked matrix sums (04 R86) -/

/-- The exact sum of products, with the sign rule of an exact zero (04 R86). -/
def dotNum (l : List (Num × Num)) : Num :=
  match l with
  | [] => .zero
  | p :: l => l.foldl (fun s p => s.add (p.1.mul p.2)) (p.1.mul p.2)

/-- One chunk's sum with its scales (04 R86). -/
def chunkSum (l : List (Num × Num)) (scales : Option (Byte × Byte)) : Num :=
  match scales with
  | none => dotNum l
  | some (sa, sb) =>
    match scaleExp sa, scaleExp sb with
    | some a, some b => (dotNum l).scale (a + b)
    | _, _ => .nan

end Sys2Proof.Machine
end

