-- ==== Sys2Proof/Machine/State.lean ====
section
/-! DEFINITION. The state of one OZ9 device as plain data, its reset, and the reasons a step can stop.
Each field cites the rule that gives it; fields of the model's own are marked so and named in the assumption log. -/

namespace Sys2Proof.Machine

/-! ### Stops -/

/-- The reasons the machine stops. -/
inductive Fault where
  /-- A table walk or an access reached a physical address at which the device holds no memory (07 R145).
  Safe: the model stops where the spec gives no outcome. -/
  | noMemory (pa : Nat)
  deriving DecidableEq, Repr

/-- The reasons an instruction has no meaning. -/
inductive Refusal where
  /-- The instruction is not modelled yet; raised by its arm of `exec` alone. Safe. -/
  | notModelled (mnemonic : String)
  deriving DecidableEq, Repr

/-! ### Memory -/

/-- Bytes by address in one canonical form: addresses strictly rising, and no byte equal to 0, which every unlisted
address reads as (18 R424: phase 3 of the boot zeroes HBM and TLM). -/
abbrev Memory := List Host.Cell

/-- Bytes that some party wrote, by address, strictly rising; an unlisted byte was not written. -/
abbrev Overlay := List Host.Cell

/-! ### Strands (06 Table 6.1) -/

/-- The state of a strand slot (06 R111). -/
inductive SlotState where
  | free | live | kept
  deriving DecidableEq, Repr

/-- A register that a result is bound for. -/
inductive RegName where
  | x (r : Reg)
  | p (r : PredReg)
  deriving DecidableEq, Repr

/-- A fixed-latency result that is not yet visible: `left` is what remains of its distance (02 R40-R42). -/
structure InFlight where
  reg  : RegName
  val  : Word
  left : Nat
  deriving DecidableEq, Repr

/-- The record of a deferred access in a trap frame (17 Table 17.4). -/
structure DeferredAccess where
  facc   : Word
  faddr  : Word
  fdata0 : Word
  fdata1 : Word
  deriving DecidableEq, Repr

/-- A trap on its way to its entry: what EPC, CAUSE and TVAL receive, and the ASKIP of the saved SSTAT (17 R385). -/
structure TrapInfo where
  cause : Nat
  epc   : Word
  tval  : Word
  askip : Bool
  acc   : DeferredAccess
  deriving DecidableEq, Repr

/-- A deferred fault: the marked registers of a load, none for a store (07 R148). -/
structure DeferredFault where
  regs  : List RegName
  store : Bool
  cause : Nat
  tval  : Word
  acc   : DeferredAccess
  deriving DecidableEq, Repr

/-- An asynchronous cause that a strand holds (17 R387). -/
structure HeldCause where
  cause : Nat
  tval  : Word
  deriving DecidableEq, Repr

/-- What a sleeping strand waits for (06 R111); `request` is a blocking access, LRW or WAITV whose reply wakes it. -/
inductive Sleep where
  | awake
  | yield (till : Nat)
  | gbar (set : Nat)
  | waitr (xd : Reg) (mask : BitVec 16)
  | request (id : Nat)
  | recv (xd : Reg) (off : Nat) (opt : Word)
  | tget (xd : Reg) (group : Word) (ptr : Word)
  | idle
  | sync (xd : Reg) (red : Option (SyncOp × Word))
  | trap (t : TrapInfo)
  deriving DecidableEq, Repr

/-- An outstanding MOVEAT (06 R133): destination register, target device and tile, and slack class. -/
structure MoveReq where
  rd   : Reg
  dev  : Nat
  tile : Nat
  k    : SlackReg
  deriving DecidableEq, Repr

/-- One entry of a strand's reservation table (08 R166): the word, and whether it is granted. -/
structure Reservation where
  word    : Nat
  size    : Nat
  held    : Bool
  deriving DecidableEq, Repr

/-- A strand slot with its context (06 Table 6.1) and what the hardware keeps beside it. -/
structure Strand where
  st      : SlotState          -- STATE, 06 R111
  x       : Vector Word 16     -- x0-x15, 02 R36
  pred    : BitVec 8           -- p0-p7, bit 0 always 1, 02 R37
  pc      : Word               -- PC, 06 R112
  sstat   : Word               -- SSTAT, 17 R380
  sig     : BitVec 16          -- SIG, 06 R126
  k       : Vector (BitVec 12) 8   -- k0-k7, 02 R38
  copy    : Vector Word 8      -- copy shadow registers, 10 R205
  move    : Option MoveReq     -- MV, MRD, MTGT, 06 R133
  banks   : BitVec 32          -- BANKS, 06 R125
  pend    : BitVec 16          -- pending bits of x0-x15, 02 R43
  pendP   : BitVec 8           -- pending bits of p0-p7, 02 R43
  flight  : List InFlight      -- fixed-latency results in flight, 02 R42
  sleep   : Sleep              -- 06 R111
  readyAt : Nat                -- cycle from which the stall count lets it issue, 02 R40
  last    : Option Nat         -- cycle of its latest issue, 06 R115
  handling : List Nat          -- causes of the trap entries without their ERET, innermost first, 06 R126, 14 R323 (log entry 8)
  fetched : Option Word        -- the pc whose bundle has been fetched, 06 R114
  cause   : Word               -- CAUSE, 17 R383
  epc     : Word               -- EPC, 17 R383
  tval    : Word               -- TVAL, 17 R383
  faults  : List DeferredFault -- deferred faults in the order they arrived, 07 R148
  held    : List HeldCause     -- asynchronous causes held, 17 R387
  resv    : List Reservation   -- reservation table, 08 R166
  fenced  : Nat                -- number of the next request at the latest FENCE, 09 R193
  seen    : List Nat           -- stores in transit that the strand observed, 09 R190
  prior   : List (Nat × Nat)   -- stores in transit that its fences ordered before its later writes, with the scope's code, 09 R190
  opens   : Nat                -- model's own, log entry 6: trap values taken that the spec does not state
  deriving DecidableEq, Repr

/-- A free slot: every field at the reset value of 06 Table 6.1 and 17 Table 17.3. -/
def Strand.free : Strand :=
  { st := .free, x := Vector.replicate 16 0, pred := 1, pc := 0, sstat := 0, sig := 0xFFFF,
    k := Vector.replicate 8 0xFFF, copy := Vector.replicate 8 0, move := none, banks := 0, pend := 0, pendP := 0,
    flight := [], sleep := .awake, readyAt := 0, last := none, handling := [], fetched := none, cause := 0, epc := 0, tval := 0,
    faults := [], held := [], resv := [], fenced := 0, seen := [], prior := [], opens := 0 }

/-! ### Requests in flight (07 R149, 08, 09, 14) -/

/-- How a load's bytes become register values (07 Tables 7.4, 7.5). -/
inductive LoadKind where
  | zero | sign | pair | elem (f : Format)
  deriving DecidableEq, Repr

/-- The read-modify-write operations (08 Table 8.4). -/
inductive AmoOp where
  | add | and | or | xor | minS | maxS | minZ | maxZ | swap | fadd
  deriving DecidableEq, Repr

/-- The memory-side reductions (08 Table 8.5). -/
inductive RedOp where
  | addS64 | addF32 | addBf16 | addBf16Sr | minS64 | maxS64 | maxF32 | or64
  deriving DecidableEq, Repr

/-- The conditions of WAITV (09 Table 9.6). -/
inductive WaitCond where
  | eq | ne | geS
  deriving DecidableEq, Repr

/-- A point of the fabric that has queues (14 R305, R314): an input of a tile's outbound port, a tile's port, the router beside a
tile, a station, the receive buffer of a die link on one of its dies, a span or league port, another device. -/
inductive Point where
  | strand (n : Nat)
  | tile (k : Nat)
  | router (k : Nat)
  | station (n : Nat)
  | link (l die : Nat)
  | port (l : Nat)
  | outside
  deriving DecidableEq, Repr

/-- How a packet goes on from its die (14 R307): x first, y first, or through the other two dies. -/
inductive Course where
  | xFirst | yFirst | aroundX | aroundY
  deriving DecidableEq, Repr

/-- What a packet that is no request for memory carries (14 Tables 14.2, 14.3): a steal request, its reply, a moved context, a barrier
packet, stones, a contribution or a result of a collective, a histogram contribution, its result, items of a repartition, a contribution
or a result of the combining tree, a further part of a panel. -/
inductive Cargo where
  | steal | stolen | context | barrier | stones | collective | histogram | splitters | items | result | panelPart
  deriving DecidableEq, Repr

/-- What a request does at its target. An engine's access brings its command's piece there and back; a visit goes to a point and is
acknowledged; cargo is what some operation takes where it arrives; a packet in transit is for another device. -/
inductive ReqOp where
  | load (k : LoadKind)
  | store (bytes : List Byte)
  | lrw
  | sch (v : Word)
  | rlsv
  | amo (f : AmoOp) (b : Word)
  | cas (old new : Word)
  | red (f : RedOp) (b : Word)
  | waitv (c : WaitCond) (b : Word)
  | mapt (ctx va lvl : Nat) (entry : Word)
  | pref
  | message (bytes : List Byte)
  | token (cell idx : Nat)
  | count (cell amount : Nat)
  | contribute (group round : Nat) (bytes : List Byte)
  | panel (full : Bool) (fmt blk n k w : Nat) (data scales : List Byte) (bad : List Nat)
  | engine (write : Bool) (code job : Nat) (bytes : List Byte)
  | visit (code job : Nat) (goal : Point)
  | cargo (c : Cargo) (code job flits : Nat) (goal : Point)
  | transit (hdr : BitVec 128) (bytes : List Byte)
  deriving DecidableEq, Repr

/-- What comes back for a request (14 Table 14.2): an acknowledgement, data, a value, a fault of the access, a capacity cause, a discard, a
reject notice, or the notice that its path is lost. -/
inductive Reply where
  | none
  | data (bytes : List Byte)
  | value (v : Word)
  | fault (cause : Nat)
  | capacity (cause : Nat)
  | discard
  | reject
  | pathLost
  deriving DecidableEq, Repr

/-- Where a request is on its way: at its tile's port, in the fabric on the way to its first target, at the translating station, on
the way to its home, at the target, waiting there (reservation queue, monitor, full inbox), on the way back, an answer that was cut off
on a link that went down, without a path, gone to another device, or back at the engine that sent it. -/
inductive Stage where
  | port | wire | xlate | forward | target | waiting | reply | cut | lost | outside | back
  deriving DecidableEq, Repr

/-- A request in flight, of a strand or of the tile itself (fired commands, held messages): what its packet carries (14 Tables 14.1, 14.2),
how far it is, and what its answer does. -/
structure Req where
  id       : Nat
  seq      : Nat              -- SEQ, 09 R197
  sdev     : Nat              -- source device
  tile     : Nat              -- source tile
  slot     : Nat              -- issuing strand slot
  sv       : Bool             -- SV: the slot is counted against, 14 Table 14.1
  part     : Nat              -- PARTID
  ten      : Nat              -- TEN
  op       : ReqOp
  space    : Nat              -- space code of the target, 01 Table 1.4
  dev      : Nat              -- target device
  ttile    : Nat              -- target tile
  loc      : Nat              -- location: VA or OFF
  size     : Nat              -- S
  ptr      : Word             -- E
  pa       : Option Nat       -- physical address once translated
  slack    : Nat              -- SLK
  budget   : Nat              -- the slack that it was issued with
  counted  : Bool             -- an exhausted answer of it was counted, 14 R318
  xh       : Bool             -- XH
  xhAt     : Nat              -- the grain in which XH was set, 14 R315
  stage    : Stage
  place    : Point            -- the queue in which the packet stands, or that it travels to
  came     : Point            -- the input of that queue: the point it came from
  moving   : Bool             -- on the wire between two queues
  course   : Option Course    -- the course that it keeps from die to die, 14 R307
  stamp    : Nat              -- the grain of its arrival in the queue, 14 R314
  reply    : Reply
  dests    : List RegName     -- destinations, pending
  blocking : Bool             -- the strand sleeps until the reply
  base     : Option (Reg × Word)  -- base update of a .pi form, 07 R158
  epc      : Word             -- bundle of the access
  paired   : Bool             -- that bundle was paired
  posted   : Bool             -- faults are delivered as those of a posted store, 07 R148
  acc      : DeferredAccess   -- for a deferred fault's frame
  granted  : Nat              -- LRW: grain of the grant
  cell     : Option Nat       -- the trigger cell whose fired command it is, 15 R348
  performed : Bool            -- performed at its target, 09 R185, R197
  due      : Nat              -- earliest cycle of the answer, 08 R162
  half     : List Byte        -- what the first half of an LDP has read, 09 R184
  after    : List (Nat × Nat) -- stores in transit that were ordered before this access, with the scope's code, 09 R190
  accepted : Option Nat       -- its turn among the accesses that translating stations accepted, 09 R185
  deriving DecidableEq, Repr

/-- An entry of the window that a station or a tile's port keeps of the requests of a source (09 R197): the point, the source tile and
the translating station through which a forwarded access came, the sequence number, the reply that was returned, and at a
translating station the address to which it forwarded. -/
structure Window where
  point : Nat
  sdev  : Nat
  tile  : Nat
  via   : Option Nat
  seq   : Nat
  reply : Reply
  fwd   : Option Nat
  deriving DecidableEq, Repr

/-- Stores in transit that were ordered before the write that bytes of memory hold (09 R190): at a tile's port or a home station, from a
location on. -/
structure Note where
  place : Point
  loc   : Nat
  size  : Nat
  after : List (Nat × Nat)
  deriving DecidableEq, Repr

/-- An own-TLM load whose data has not yet returned (07 R151): what it writes, its bank, and its earliest cycle. -/
structure OwnLoad where
  id    : Nat
  slot  : Nat
  dests : List (RegName × Word)
  bank  : Nat
  due   : Nat
  deriving DecidableEq, Repr

/-- A station's reservation (08 R165): word, holder and the grain of its grant. -/
structure Holder where
  word  : Nat
  tile  : Nat
  slot  : Nat
  since : Nat
  deriving DecidableEq, Repr

/-! ### Tasks (06 Tables 6.3-6.5) -/

/-- The fetch of one used input (06 R119). -/
structure InFetch where
  begun  : Bool
  key    : Nat                -- the transfer's number in the copy queue
  status : Option Word
  deriving DecidableEq, Repr

/-- A record of the deque. -/
structure Task where
  pc    : Word
  flags : Word
  args  : List Word           -- ARG0-ARG5
  ins   : List (Word × Word)  -- IN0-IN3
  fetch : List InFetch
  deriving DecidableEq, Repr

/-- A membership set (06 R123). -/
structure MemberSet where
  members : BitVec 16
  arrived : BitVec 16
  deriving DecidableEq, Repr

/-- A keep entry (06 R125). -/
structure KeepEntry where
  banks : BitVec 32
  succ  : Word
  slot  : Nat
  deriving DecidableEq, Repr

/-- The stealing position of a tile (06 R122). -/
structure Steal where
  ring    : Nat
  idx     : Nat
  asking  : Bool
  backoff : Option Nat
  deriving DecidableEq, Repr

/-- A steal packet in flight (06 R122): a request, or a reply with the record it carries. -/
structure StealPacket where
  id     : Nat
  thief  : Nat
  victim : Nat
  reply  : Option (Option Task)
  deriving DecidableEq, Repr

/-! ### Engines -/

/-- Who a transfer of the copy engine is for (10, 06 R119, 15 R348). -/
inductive CopyFor where
  | cpgo
  | multicast (w h : Nat)
  | input
  | page
  | trigger (token : Word)
  deriving DecidableEq, Repr

/-- A chunk in flight (10 R215): its number, the data bytes before it and its size, and the slack of its packets (R217). -/
structure Chunk where
  no    : Nat
  pos   : Nat
  size  : Nat
  slack : Nat
  deriving DecidableEq, Repr

/-- A transfer of the copy engine (10 R205-R217). -/
structure Xfer where
  key     : Nat               -- the model's own number of the entry
  id      : Nat               -- TXC at issue; 0 for a page fetch
  why     : CopyFor
  slot    : Nat
  rd      : Option Reg        -- destination of the status word
  words   : Vector Word 8     -- the shadow words, 10 Table 10.1
  cls     : Nat
  priv    : Nat
  slack   : Nat
  issued  : Nat               -- grain of issue
  mark    : Nat               -- requests of the strand before this one's number precede it, 09 R193
  fmark   : Nat               -- and before this number whatever their space, by a FENCE
  total   : Nat               -- T
  started : Nat               -- bytes of the chunks that started
  flight  : List Chunk
  good    : Option Nat        -- after a fault: bytes before the first one not written everywhere
  cancel  : Bool
  deriving DecidableEq, Repr

/-- A page-fetch entry (10 R224, R225). -/
structure PageFetch where
  key     : Nat               -- its transfer's number, once started
  src     : Word
  dst     : Nat
  len     : Nat
  cls     : Nat
  slack   : Nat
  slot    : Nat
  issued  : Nat
  started : Bool
  done    : Bool
  faulted : Bool
  deriving DecidableEq, Repr

/-- A command of the matrix or the vector queue: its instruction, its id and the words captured at issue. -/
structure Cmd where
  id      : Nat
  op      : Instr
  slot    : Nat
  rd      : Reg
  a       : Word              -- the register of ra, and its odd partner
  aq      : Word
  b       : Word
  bq      : Word
  c       : Word
  cq      : Word
  ctl     : Word              -- the control word of a vector command
  priv    : Nat
  slack   : Nat
  issued  : Nat
  mark    : Nat               -- requests of the strand before this one's number precede it, 09 R193
  fmark   : Nat               -- and before this number whatever their space, by a FENCE
  started : Bool
  status  : Option Word       -- the status it will write
  deriving DecidableEq, Repr

/-- An operation of the divide unit (05 R91). -/
structure DivOp where
  slot : Nat
  rd   : Reg
  val  : Word
  due  : Nat                  -- the cycle from which its result may be written
  deriving DecidableEq, Repr

/-- A B operand in the latch (11 R246), with its uncorrectable 8-byte words (R245): those of the data from 0, those of the scales from
4,096. -/
structure Panel where
  fmt    : Nat
  blk    : Nat
  n      : Nat
  k      : Nat
  data   : List Byte
  scales : List Byte
  bad    : List Nat
  deriving DecidableEq, Repr

/-- A panel in the latch's back: the operand, or none for an empty one, and the width of its sender (11 R246, R248). -/
structure BackPanel where
  operand : Option Panel
  w       : Nat
  deriving DecidableEq, Repr

/-- A command of the collective or the repartition queue (15 R351-R354, 16 R361-R370). -/
structure GroupCmd where
  id     : Nat
  op     : Instr
  slot   : Nat
  rd     : Reg
  word   : Word               -- collective or operation word
  buf    : Word               -- buffer, or IN
  out    : Word               -- OUT
  cfg    : List Byte          -- repartition configuration in force at issue
  seq    : Nat                -- sequence number in the group, 15 R353
  priv   : Nat
  slack  : Nat
  issued : Nat
  mark   : Nat                -- requests of the strand before this one's number precede it, 09 R193
  fmark  : Nat                -- and before this number whatever their space, by a FENCE
  phase  : Nat                -- 0 queued, 1 contributed, 2 its contribution went on to another device, 3 its items moved
  deriving DecidableEq, Repr

/-! ### Messages, tree, triggers (15) -/

/-- A trigger cell (15 Table 15.6). -/
structure Cell where
  armed : Bool
  exp   : Nat
  got   : Nat
  cen   : Bool
  csel  : Nat
  thr   : Nat
  step  : Nat
  rearm : Bool
  deriving DecidableEq, Repr

/-- A result in a tree result queue (15 R343). -/
structure TreeResult where
  group : Nat
  round : Nat
  bytes : List Byte
  deriving DecidableEq, Repr

/-- A message held for another partition (15 R335): destination word and the 64-byte entry. -/
structure HeldMessage where
  dest  : Word
  entry : List Byte
  since : Nat                 -- the grain of the OPEN from which it may be sent
  spent : Bool                -- its slack is exhausted, and was counted
  deriving DecidableEq, Repr

/-- The record that RPSTAT reads (16 R377). -/
structure RepStat where
  kept    : Nat
  recv    : Nat
  refin   : Nat
  refused : Nat
  lo      : Nat
  hi      : Nat
  total   : Nat
  p       : Nat
  i       : Nat
  deriving DecidableEq, Repr

/-! ### Tiles -/

/-- The state of a tile's control part that an abort restores (13 Table 13.1). -/
structure TileCore where
  slots   : Vector Strand 16
  deque   : List Task         -- bottom first, 06 R119
  dqSpawn : Nat               -- counters of 06 Table 6.6
  dqDone  : Nat
  dqLost  : Nat
  dqGain  : Nat
  dqFull  : Nat
  sets    : Vector MemberSet 64
  keeps   : List KeepEntry
  steal   : Steal
  inbox   : List (List Byte)  -- oldest first, 15 R332
  cells   : Vector Cell 16
  cnts    : Vector Nat 16     -- CNT, 15 R345
  groups  : List (Nat × Word) -- tree groups: descriptors in force, 15 R340
  gstaged : List (Nat × Word) -- and staged
  rounds  : List (Nat × Nat)  -- contributions made to each group in the superstep
  results : List TreeResult   -- tree result queue, 15 R343
  cseqs   : List (Nat × Nat)  -- collective sequence numbers, 15 R353
  tvec    : Word              -- TVEC, 17 R383
  u       : Nat               -- U, 06 R115
  sent    : Nat               -- messages sent and accepted since launch, 17 R405
  accepted : Nat
  gscyc   : Nat               -- 17 R405
  gssent  : Nat
  gsrecv  : Nat
  deriving DecidableEq, Repr

/-- The registers and queues of a tile's engines that an abort restores. -/
structure TileEng where
  txc     : Nat               -- 10 R211
  mcc     : Nat               -- 11 R229
  vcc     : Nat               -- 12 R256
  tcc     : Nat               -- 15 R352
  rcc     : Nat               -- 16 R363
  mcfg    : Word              -- 11 R236
  cpquant : Word              -- 10 R216
  scrbase : Nat               -- 07 R137
  scrNext : Option Nat        -- its staged value
  rpcfg   : Option (List Byte) -- 16 R356
  rpstat  : RepStat           -- 16 R377
  xfers   : List Xfer         -- every command entry of the copy queue, 10 R214
  vq      : Vector (List Nat) 4 -- the virtual queues, by transfer number
  deficit : Vector Nat 4      -- D[0..3], 10 R215
  turn    : Nat               -- c, 10 R215
  chunkAt : Nat               -- the cycle from which the next chunk may start, 10 R215
  pages   : List PageFetch    -- page-fetch list, 10 R224
  mq      : List Cmd          -- matrix queue, 11 R228
  vcq     : List Cmd          -- vector queue, 12 R256
  collq   : List GroupCmd     -- collective queue, 15 R352
  repq    : List GroupCmd     -- repartition queue, 16 R363
  divq    : List DivOp        -- divide unit, 05 R91
  front   : Option Panel      -- operand latch, 11 R246
  back    : Option BackPanel
  ownLoads : List OwnLoad     -- 07 R151
  held    : List HeldMessage  -- messages to other partitions, 15 R335
  fired   : List Nat          -- cells whose command waits to be issued or is outstanding, 15 R348
  deriving DecidableEq, Repr

/-- A tile. -/
structure Tile where
  core     : TileCore         -- as it stands
  eng      : TileEng
  openCore : TileCore         -- as it stood at superstep open, 13 R278
  openEng  : TileEng
  tlm      : Memory           -- 07 R136
  undo     : List (Nat × List Byte) -- granules written in the superstep with their old contents, 07 R138
  undoBad  : List Nat         -- 8-byte words whose undo copy is uncorrectable, 17 R407
  own      : List Nat         -- bytes below SCRBASE that the tile itself wrote, ascending, 07 R142
  deltas   : List (Nat × Overlay)   -- held deltas by the source's rank, 07 R139
  bad      : List Nat         -- uncorrectable 8-byte words of TLM, 17 R407
  ts       : List (Nat × BitVec 32) -- tile store by cell 128 × row + column, zero cells unlisted, 11 R233
  tsBad    : List Nat         -- uncorrectable 8-byte words of the tile store, 17 R407
  keepOpen : Bool             -- KEEP in force at open, 11 R233
  keepCopy : Bool             -- the KEEP copy runs, 11 R234
  outgoing : List HeldMessage -- committed messages not yet sent, 15 R335
  port     : List Nat         -- messages waiting at the port, by request id, 15 R334
  inAfter  : List (List (Nat × Nat)) -- what was ordered before the inbox's messages, 09 R190
  xpIn     : List (List Byte) -- entries with XP accepted in the superstep, oldest first, 15 R339
  retained : BitVec 32        -- banks in retention, 06 R125
  touched  : List (Nat × Nat) -- cycle of each bank's latest access
  seq      : Nat              -- SEQ, 09 R197
  psel     : Nat              -- PSEL, 17 R383
  xev      : Vector Nat 16    -- XEV of the slots, 14 R318
  xevt     : Nat              -- XEVT
  hwake    : Nat              -- 15 Table 15.3
  tflt     : Nat
  tdup     : Nat
  heapOpen : Vector Nat 3     -- HWAKE, TFLT and TDUP as they stood at superstep open, 07 R139
  coming   : Nat              -- contexts of other devices bound for the tile at this commit, 13 R288
  nextIssue : Nat             -- the cycle from which its issue stage is free, 06 R115
  nextPop  : Nat              -- the cycle from which it may pop a record, 06 R113
  nextFire : Nat              -- the cycle from which a trigger cell may fire, 15 R347
  causes   : List Nat         -- causes recorded in the superstep, oldest first, 13 R282
  vote     : Bool             -- abort vote recorded
  cast     : Bool             -- an immediate abort was cast, 13 R291
  recast   : List Nat         -- causes cast between DECIDE and OPEN, 13 R291
  capCause : Option Nat       -- first capacity cause, 13 R280
  lcause   : Nat              -- LCAUSE, 13 Table 13.9
  arrived  : Bool             -- 13 R281
  decided  : Bool             -- DECIDE applied, OPEN not yet received
  gstopped : Bool             -- stopped by GSTOP, 17 R405
  halted   : Bool             -- stopped by ABORT, by an abort DECIDE or by a fatal cause
  lost     : Bool             -- 17 R409
  deriving DecidableEq, Repr

/-! ### Partitions -/

/-- A node of the barrier chain (13 R283). -/
inductive BarNode where
  | tile (key : Nat)
  | die (d : Nat)
  | device
  | parent
  | station (n : Nat)
  | child (dev : Nat)
  deriving DecidableEq, Repr

/-- The packets of the barrier (13 Table 13.3). -/
inductive BarKind where
  | arrive | decide | done | open | save
  deriving DecidableEq, Repr

/-- The reduction part of a barrier packet (13 R284, Table 13.7). -/
inductive BarRed where
  | none
  | int (op : SyncOp) (v : Word)
  | acc (a : Acc)
  deriving DecidableEq, Repr

/-- A barrier packet in flight, or one that a node has received (13 R284). -/
structure BarMsg where
  id    : Nat
  kind  : BarKind
  src   : BarNode
  dst   : BarNode
  vote  : Nat
  ssnum : Nat
  red   : BarRed
  deriving DecidableEq, Repr

/-- Where a partition's barrier stands (13 R287). -/
structure Barrier where
  flight  : List BarMsg
  got     : List BarMsg       -- received at nodes of this superstep
  sent    : List (BarNode × BarKind)
  commit  : Option Bool       -- the decision, once known on this device
  vote    : Nat               -- the root's VOTE
  result  : BarRed            -- the combined reduction
  applied : List BarNode      -- nodes that have applied DECIDE
  opened  : List BarNode      -- nodes that have received OPEN
  saving  : Bool              -- SAVE takes OPEN's place
  changed : List Nat          -- 64-byte lines that the commit changed, held until OPEN, 13 R290
  deriving DecidableEq, Repr

/-- A barrier-tree entry (14 R306, 13 R304). -/
structure BarTree where
  parent : Nat
  root   : Bool
  nchild : Nat
  deriving DecidableEq, Repr

/-- A staged write of a partition's control register (17 R382). -/
structure StagedCsr where
  num  : Nat
  val  : Word
  rank : Nat
  deriving DecidableEq, Repr

/-- A journal entry (07 R143): physical address, the bytes it replaced, and the uncorrectable words that it covered whole (17 R407). -/
structure JournalEntry where
  pa  : Nat
  old : List Byte
  bad : List Nat
  deriving DecidableEq, Repr

/-- An element with pending reductions (08 R174). -/
structure RedElem where
  pa    : Nat
  op    : RedOp
  parts : List Word
  deriving DecidableEq, Repr

/-- An open round of a tree group (15 R342): the contributions that nodes of this device accepted, by member; the members on other
devices among them whose contributions have come, with their least slack and whether one was exhausted; and the members whose
contributions went on to another device. -/
structure Round where
  job   : Nat                 -- the number under which its packets go
  group : Nat
  round : Nat
  parts : List (Nat × List Byte)
  slack : Nat
  spent : Bool
  relayed : List Nat
  result : Option (List Byte)
  served : List Nat
  carried : Option (List Nat) -- of a round of an earlier superstep: the members served at open
  deriving DecidableEq, Repr

/-- A sequence number of a group's collectives (15 R353, 16 R369), once its outcome is formed: the members on this device by
partition rank, those of other devices with their capacities and data, the status code of every member, what each member's
buffer receives and what its input keeps, and the counts of a repartition. -/
structure CollRound where
  group   : Nat
  seq     : Nat
  cmds    : List (Nat × GroupCmd)
  foreign : List (Nat × Nat × List Byte)
  status  : Nat
  result  : List (Nat × List Byte)
  refused : List (Nat × List Byte)
  stats   : List (Nat × RepStat)
  moved   : Bool              -- the items have moved, 16 R367
  deriving DecidableEq, Repr

/-- A partition on this device (18 R433, 13, 17). -/
structure Part where
  valid    : Bool             -- resident on this device
  ten      : Nat
  orgx     : Nat
  orgy     : Nat
  pw       : Nat
  ph       : Nat
  nd       : Nat
  di       : Nat
  devs     : List Nat
  region   : Nat
  entry    : Nat
  ssnum    : Nat              -- 13 R277
  seed     : Word             -- SEED, 17 R383; staged, so it holds its value of the open, 04 R81
  sspol    : Word             -- 13 Table 13.8
  expbase  : Word             -- 17 R383
  explen   : Word
  staged   : List StagedCsr   -- 17 R382
  troot    : Word             -- 17 R395
  mgbase   : Word
  mglen    : Word
  ktab     : Vector (BitVec 12) 8  -- default slack table, 18 R421
  running  : Option (Nat × Nat)    -- function and slot of the running launch
  launchId : Nat
  stealOff : Bool
  abcnt    : Nat              -- 13 Table 13.9
  lvote    : Nat
  cretry   : Bool
  bar      : Barrier
  tree     : BarTree
  treeNext : Option BarTree   -- staged by BDEF
  rounds   : List Round
  others   : List Byte        -- members of each tree group on other devices, 4 bytes a group, 15 R340
  clash    : Word             -- groups whose members on other devices hold differing descriptors, 15 R340
  colls    : List CollRound
  give     : List (Nat × Nat) -- PWGIVE staged: device, stones, 17 R410
  epochNew : List (Nat × Nat) -- CLKEPOCH staged: superstep, step, 17 R411
  epochs   : List (Nat × Nat) -- and installed
  ceiling  : Nat              -- this device's ceiling as its commit computed it, 18 R430
  entryPc  : Word             -- entry pc of the latest launch, 18 R421
  penergy  : Nat              -- 18 Table 18.6
  lenergy  : Nat
  versions : List (Nat × Overlay)  -- pending versions by writing tile's rank, 07 R141
  journal  : List JournalEntry     -- newest first, 07 R143
  reds     : List RedElem     -- 08 R174
  forced   : Bool             -- a pre-emption deadline was delivered, 13 R291
  forcedLate : Bool           -- one was delivered between the decision and OPEN, and is cast again there, 13 R291
  slice    : Option Nat       -- the slice timer, 17 R402: the grain of its start; while stopped the grains that it has run
  deadline : Option Nat       -- the time since the slice's end, likewise
  stopped  : Bool             -- by GSTOP, 17 R405
  due      : List HeldCause   -- causes to be delivered at the next OPEN, 17 R392
  deriving DecidableEq, Repr

/-! ### Device -/

/-- A firmware image as it stands for the Perroed controller (18 R426): its key (a modulus of 512 bytes and an exponent, most significant
byte first, log entry 58), what is signed without the security version, the version, and the signature. -/
structure Firmware where
  key       : List Byte
  body      : List Byte
  version   : Nat
  signature : List Byte
  deriving DecidableEq, Repr

/-- A link's registers and training state (14 Tables 14.5-14.7). -/
structure Link where
  stat    : Word
  ctl     : Word
  rails   : Vector Word 5
  retired : Nat               -- receive-buffer entries retired, 14 R322
  lostMod : List (Nat × Nat)  -- modules (rail, module) that have no lane lock
  fails   : Vector Nat 5      -- slices that each rail failed in a row, 14 R319
  deriving DecidableEq, Repr

/-- A launch slot of a function (18 R416-R420). -/
structure LaunchSlot where
  record : List Byte          -- bytes as the host wrote them
  state  : Nat
  reason : Nat
  fault  : Nat
  energy : Nat
  launch : Nat
  taken  : Nat                -- order of taking
  deps   : List Nat           -- slots that unsatisfied dependencies are bound to
  deriving DecidableEq, Repr

/-- The registers of a virtual function (18 Table 18.1). -/
structure Function where
  slots  : List (Nat × LaunchSlot)
  cause  : BitVec 16
  mask   : BitVec 16
  energy : List (Nat × Nat)
  hwbase : Word
  hwpart : Nat
  deriving DecidableEq, Repr

/-- A firkin (13 R296), kept as data beside its bytes in HBM (log entry 43): what its device header names, the partition's
registers, and the slot of each tile by its rank on the device. -/
structure Firkin where
  partid : Nat
  imgver : Nat
  ssnum  : Nat
  pw     : Nat
  ph     : Nat
  nd     : Nat
  di     : Nat
  orgx   : Nat
  part   : Part
  tiles  : List (Nat × Tile)
  deriving DecidableEq, Repr

/-- A region's context-list entry (18 Table 18.9). -/
structure ContextEntry where
  partid : Nat
  state  : Nat
  slice  : Nat
  limit  : Nat
  firkin : Nat
  fault  : Nat
  fresh  : Bool               -- not resident since it was made ready from empty, 18 R435
  deriving DecidableEq, Repr

/-- A region (18 Table 18.8). -/
structure Region where
  orgx    : Nat
  orgy    : Nat
  pw      : Nat
  ph      : Nat
  nent    : Nat
  valid   : Bool
  refused : Bool
  last    : Nat               -- the entry that was resident last
  entries : List (Nat × ContextEntry)
  deriving DecidableEq, Repr

/-- A directory entry as the host wrote it (18 Table 18.7). -/
structure DirEntry where
  bytes : List Byte
  valid : Bool
  dres  : Nat
  list  : List Nat
  deriving DecidableEq, Repr

/-- A move of a context between tiles in flight (06 R133). -/
structure Moving where
  id   : Nat
  src  : Nat
  dst  : Nat
  ctx  : Strand
  part : Nat
  deriving DecidableEq, Repr

/-- An XINV in progress (17 R399). -/
structure Xinv where
  id    : Nat
  tile  : Nat
  slot  : Nat
  ctx   : Nat
  first : Nat
  count : Nat
  slack : Nat
  deriving DecidableEq, Repr

/-- An entry that MAPT replaced and that a translation may still use (17 R400). -/
structure Stale where
  ctx   : Nat
  va    : Nat
  lvl   : Nat
  entry : Word
  deriving DecidableEq, Repr

/-- An access of the host through BAR 4, translated (18 R415): its function, its bytes, and what a write writes. -/
structure HostAccess where
  fn   : Nat
  pa   : Nat
  size : Nat
  data : Option (List Byte)
  deriving DecidableEq, Repr

/-- What an operation of another agent acts on (the model's own, log entry 4). -/
structure Ev where
  dev   : Nat
  part  : Nat
  op    : Nat
  tile  : Nat
  slot  : Nat
  id    : Nat
  a     : Nat
  b     : Nat
  ok    : Bool
  w     : Word
  node  : BarNode
  bytes : List Byte
  ctx   : Option Strand
  hdr   : BitVec 128
  image : Option Firkin
  csrs  : List StagedCsr
  epochs : List (Nat × Nat)
  shared : List (Nat × Nat)
  deriving DecidableEq, Repr

/-- The event record with every field zero. -/
def Ev.zero : Ev := ⟨0, 0, 0, 0, 0, 0, 0, 0, false, 0, .device, [], none, 0, none, [], [], []⟩

/-- One choice of the agenda (log entry 4): the issue stage of a tile takes its turn, where the next bundles of the slots whose bits
are set in `late` have not been fetched yet (06 R114) and a fetch uses a replaced entry that no XINV has covered when `old` is set
(17 R400); or an operation takes place. -/
inductive Choice where
  | issue (tile late : Nat) (old : Bool)
  | event (op : Instr) (ev : Ev)
  deriving DecidableEq, Repr

/-- The issue in progress (log entry 5): the strand, its bundle's address, and what the bundle reads (02 R28). -/
structure Issue where
  tile    : Nat
  slot    : Nat
  pc      : Word
  paired  : Bool
  askip   : Bool              -- SSTAT.ASKIP was set: only the C slot issues, 02 R31
  fold    : BitVec 16         -- SIG before the bundle was folded
  probing : Bool              -- only issue-time traps and reasons to wait are looked for
  waits   : Bool              -- found while probing: the bundle is not eligible
  trap    : Option (Nat × Word)
  x       : Vector Word 16
  pred    : BitVec 8
  pend    : BitVec 16         -- the pending bits of x0-x15 that the bundle reads
  pendP   : BitVec 8          -- and those of p0-p7
  ev      : Ev
  deriving DecidableEq, Repr

/-- An answer to an SPDM request (18 R427): the protocol version with its message's other bytes, the capabilities (secured sessions are not offered), the
algorithms, the digests of the certificate chains, a part of the slot-0 chain, a signed challenge, measurement blocks by index, or
an error. -/
inductive SpdmAnswer where
  | version (major minor : Nat) (bytes : List Byte)
  | capabilities (sessions : Bool) (bytes : List Byte)
  | algorithms (rsaPss4096 sha512 : Bool)
  | digests (chain : List Byte)
  | certificate (part : List Byte)
  | challengeAuth (signature : List Byte)
  | measurements (blocks : List (Nat × List Byte))
  | error
  deriving DecidableEq, Repr

/-- What left the device: packets to other devices, interrupts, host read results, SPDM answers, and what the management plane carries to
the other devices of a partition: its stop or its pre-emption deadline (17 R394, R404, 13 R291; cause 0 for GSTOP), its resume (17 R405),
a cause for the lowest-ranked tile (17 R392), what is staged here for the whole partition (17 R382, R411), and this device's ceiling (18 R430). -/
inductive Output where
  | packet (port : Nat) (header : BitVec 128) (r : Req)
  | interrupt (fn vector : Nat)
  | hostRead (bytes : List Byte)
  | stop (part cause : Nat)
  | resume (part : Nat)
  | cause (part cause : Nat) (tval : Word)
  | staged (part : Nat) (csrs : List StagedCsr) (epochs : List (Nat × Nat)) (ceiling : Nat)
  | spdm (a : SpdmAnswer)
  deriving DecidableEq, Repr

/-- The state of one device. -/
structure State where
  tiles    : List (Nat × Tile)     -- by logical id, ascending; an unlisted tile is as reset
  parts    : List (Nat × Part)     -- resident partitions by PARTID
  hbm      : Memory                -- committed HBM by physical address, 07 R145
  hbmBad   : List Nat              -- uncorrectable 8-byte words of HBM, 17 R407
  reqs     : List Req              -- 07 R149
  holders  : List Holder           -- 08 R165
  counters : List (Nat × Nat)      -- space-10 arrival counters by station, 08 R176
  stationErrs : List (Nat × Nat)   -- errors that a station counted, 08 R175
  xcnt     : List (Nat × Nat)      -- XCNT by point, 14 R318
  trej     : List (Nat × Nat)      -- TREJ by router, 14 R309
  linkErrs : List (Nat × Nat)      -- packets that a port discarded as link errors, 14 R310
  lastIn   : List (Nat × Nat)      -- the input that each arbiter granted last, 14 R315
  outFree  : List (Nat × Nat)      -- the fabric cycle from which each output is free, 14 R315, R316
  windows  : List Window           -- what targets performed of late, 09 R197
  notes    : List Note             -- 09 R190
  gclk     : Nat                   -- GCLK, 14 R305
  cyc      : Nat                   -- CYCLE, 17 R383
  links    : List (Nat × Link)     -- 14 R320; an unlisted link is as reset
  linkEvents : List (Nat × Nat × Nat)  -- held link events: die, cause, TVAL, 14 R323
  l2p      : List (Nat × Word)     -- L2P entries by die × 1,024 + index, 17 R406
  pts      : List (Nat × Word)     -- PTS entries that differ from reset, 17 R406
  l2pOk    : BitVec 4              -- dies whose L2P table is installed, 22 R452
  caps     : Word                  -- 00 R2
  fused    : List Nat              -- fused-off tiles, die × 1,024 + physical index
  keyFuse  : List Byte             -- the fused digest of the firmware key, 18 R426
  minFuse  : Nat                   -- the fused minimum of the security version, 18 R426
  firmware : List Firmware         -- the firmware images: the Perroed controller's and the service tile's, 18 R426
  devId    : Nat                   -- 01 R16
  ngroups  : Nat                   -- G, 14 R308
  devstat  : Word                  -- 18 R425
  entryPc  : Word                  -- entry address of the firmware image, 22 R449
  pwrbal   : Nat                   -- 18 Table 18.6
  pwravg   : Nat
  duty     : Nat                   -- D, 18 R429
  clkstep  : Nat                   -- STEP
  reqBal   : Nat                   -- requested PWRBAL, 18 Table 18.1
  balDue   : Bool                  -- it is still to be installed
  energy   : Nat                   -- the device's total, 18 R431
  moved    : List (Nat × Nat)      -- bytes that partitions' packets moved through each consumer in the interval, 18 R431
  hostHeld : List HostAccess       -- held BAR 4 accesses, oldest first, 18 R415
  flooded  : BitVec 4              -- dies on which discovery ran, 22 R450
  stones   : List (Nat × Nat × Nat) -- stones in flight: id, device they came from, count, 17 R410
  functions : List (Nat × Function)
  directory : List (Nat × DirEntry)
  regions  : List (Nat × Region)
  firkins  : List (Nat × Firkin)   -- by physical base
  saved    : List (Nat × List (Nat × List (List Byte)))  -- message save areas: partition, rank, entries, 15 R335
  moving   : List Moving
  steals   : List StealPacket
  xinvs    : List Xinv
  stale    : List Stale
  takes    : Nat                   -- launch records taken
  out      : List Output           -- newest last
  cur      : Issue                 -- model's own, log entry 5
  agenda   : List Choice           -- model's own, log entry 4
  turn     : Nat                   -- model's own, log entry 4
  alternate : Bool                 -- model's own, log entry 4
  missing  : Option Nat            -- model's own, log entry 51: an address without memory that the step reached
  snag     : Bool                  -- model's own, log entry 28: an engine's access cannot be made yet, so that the step does not happen
  wants    : List Req              -- model's own, log entry 28: the packets that the step's accesses still lack
  freeCtr  : Nat                   -- model's own, log entry 6
  nextReq  : Nat                   -- model's own, log entry 4: number of the next request
  deriving DecidableEq, Repr

/-! ### Reset -/

/-- Trigger cell at reset (15 Table 15.6). -/
def Cell.reset : Cell := ⟨false, 0, 0, false, 0, 0, 0, false⟩

/-- RPSTAT record with every field 0 (16 R377). -/
def RepStat.zero : RepStat := ⟨0, 0, 0, 0, 0, 0, 0, 0, 0⟩

/-- The control part of a tile as a launch leaves it, without its task (18 R421, 06). -/
def TileCore.reset : TileCore :=
  { slots := Vector.replicate 16 Strand.free, deque := [], dqSpawn := 0, dqDone := 0, dqLost := 0, dqGain := 0, dqFull := 0,
    sets := Vector.replicate 64 ⟨0, 0⟩, keeps := [], steal := ⟨1, 0, false, none⟩, inbox := [],
    cells := Vector.replicate 16 Cell.reset, cnts := Vector.replicate 16 0, groups := [], gstaged := [], rounds := [],
    results := [], cseqs := [], tvec := 0, u := 0, sent := 0, accepted := 0, gscyc := 0, gssent := 0, gsrecv := 0 }

/-- The engines of a tile as a launch leaves them (18 R421). -/
def TileEng.reset : TileEng :=
  { txc := 1, mcc := 1, vcc := 1, tcc := 1, rcc := 1, mcfg := 0, cpquant := 0x0100008000400020, scrbase := 0x80000,
    scrNext := none, rpcfg := none, rpstat := .zero, xfers := [], vq := Vector.replicate 4 [],
    deficit := Vector.replicate 4 0, turn := 3, chunkAt := 0, pages := [], mq := [], vcq := [], collq := [], repq := [], divq := [],
    front := none, back := none, ownLoads := [], held := [], fired := [] }

/-- A tile after reset, its memories zero (18 R424 phase 3). -/
def Tile.reset : Tile :=
  { core := .reset, eng := .reset, openCore := .reset, openEng := .reset, tlm := [], undo := [], undoBad := [], own := [], deltas := [],
    bad := [], ts := [], tsBad := [], keepOpen := false, keepCopy := false, outgoing := [], port := [], inAfter := [], xpIn := [], retained := 0,
    touched := [], seq := 0, psel := 0, xev := Vector.replicate 16 0, xevt := 0, hwake := 0, tflt := 0,
    tdup := 0, heapOpen := Vector.replicate 3 0, coming := 0, nextIssue := 0, nextPop := 0, nextFire := 0, causes := [], vote := false, cast := false,
    recast := [], capCause := none, lcause := 0x1FF, arrived := false, decided := false, gstopped := false, halted := false,
    lost := false }

/-- A barrier in which nothing has arrived. -/
def Barrier.clear : Barrier := ⟨[], [], [], none, 0, .none, [], [], false, []⟩

/-- A partition that is not resident, with its control registers at their reset values (17 Table 17.3, 13 Table 13.8). -/
def Part.reset : Part :=
  { valid := false, ten := 0, orgx := 0, orgy := 0, pw := 0, ph := 0, nd := 1, di := 0, devs := [], region := 0, entry := 0,
    ssnum := 0, seed := 0, sspol := 6, expbase := 0, explen := 0, staged := [], troot := 0, mgbase := 0,
    mglen := 0, ktab := Vector.replicate 8 0xFFF, running := none, launchId := 0, stealOff := false, abcnt := 0, lvote := 0,
    cretry := false, bar := .clear, tree := ⟨0, true, 0⟩, treeNext := none, rounds := [], others := [], clash := 0, colls := [], give := [],
    epochNew := [], epochs := [], ceiling := 100, entryPc := 0, penergy := 0, lenergy := 0, versions := [], journal := [], reds := [], forced := false, forcedLate := false,
    slice := none, deadline := none, stopped := false, due := [] }

/-- A link after reset (14 Tables 14.5-14.7). -/
def Link.reset : Link :=
  { stat := 0x0000601F00000002, ctl := 0, rails := Vector.replicate 5 0x0100000000000000, retired := 0, lostMod := [], fails := Vector.replicate 5 0 }

/-- A virtual function after reset. -/
def Function.reset : Function := ⟨[], 0, 0, [], 0, 0⟩

/-- No issue in progress. -/
def Issue.none : Issue :=
  { tile := 0, slot := 0, pc := 0, paired := false, askip := false, fold := 0xFFFF, probing := false, waits := false, trap := .none,
    x := Vector.replicate 16 0, pred := 1, pend := 0, pendP := 0, ev := .zero }

/-- The machine right after reset: boot phase 0, before the Perroed controller runs the phases (18 R424). -/
def State.reset : State :=
  { tiles := [], parts := [], hbm := [], hbmBad := [], reqs := [], holders := [], counters := [], stationErrs := [],
    xcnt := [], trej := [], linkErrs := [], lastIn := [], outFree := [], windows := [], notes := [],
    gclk := 0, cyc := 0, links := [], linkEvents := [], l2p := [], pts := [], l2pOk := 0, caps := 0x00000000011FFFE0,
    fused := [], keyFuse := [], minFuse := 0, firmware := [], devId := 0, ngroups := 1, devstat := 0, entryPc := 0, pwrbal := 3000, pwravg := 0, duty := 16,
    clkstep := 100, reqBal := 0, balDue := false, energy := 0, moved := [], hostHeld := [], flooded := 0, stones := [], functions := [], directory := [], regions := [], firkins := [],
    saved := [], moving := [], steals := [], xinvs := [], stale := [], takes := 0, out := [], cur := .none, agenda := [],
    turn := 0, alternate := false, missing := none, snag := false, wants := [], freeCtr := 0, nextReq := 0 }

end Sys2Proof.Machine
end

