-- ==== Sys2Proof/Machine/Ops.lean ====
section
/-! DEFINITION. The named operations that meanings share: keyed lists, memory, tiles and strands, registers, interrupts,
recorded causes, tile-local memory, taking a trap and returning from one (02, 06, 07, 13, 17, 18). -/

namespace Sys2Proof.Machine

/-- What a meaning answers. -/
abbrev Out := Host.Outcome State Fault Refusal

/-! ### Keyed lists -/

/-- The value under a key. -/
def assoc {α : Type} : List (Nat × α) → Nat → Option α
  | [], _ => none
  | p :: l, n => if p.1 = n then some p.2 else assoc l n

/-- A list with strictly rising keys, with one key given a value. -/
def assocPut {α : Type} : List (Nat × α) → Nat → α → List (Nat × α)
  | [], n, v => [(n, v)]
  | p :: l, n, v =>
    if n < p.1 then (n, v) :: p :: l
    else if n = p.1 then (n, v) :: l
    else p :: assocPut l n v

/-- The list without a key. -/
def assocDrop {α : Type} : List (Nat × α) → Nat → List (Nat × α)
  | [], _ => []
  | p :: l, n => if p.1 = n then l else p :: assocDrop l n

/-- Whether the keys of a list rise strictly. -/
def rising {α : Type} : List (Nat × α) → Bool
  | [] => true
  | p :: l => l.all (fun q => decide (p.1 < q.1)) && rising l

/-! ### Memory -/

/-- The canonical form of a memory: addresses strictly rising, no byte equal to what an unlisted address reads as. -/
def Memory.wf (m : Memory) : Bool := rising m && m.all (fun c => c.2 != 0)

/-- What an unlisted address reads as (18 R424, R435). -/
def emptyByte : Byte := 0

/-- The byte at an address. -/
def memByte (m : Memory) (a : Nat) : Byte := (assoc m a).getD emptyByte

/-- Write one byte, keeping the canonical form. -/
def memPut (m : Memory) (a : Nat) (b : Byte) : Memory := if b = emptyByte then assocDrop m a else assocPut m a b

/-- `n` bytes from an address. -/
def memBytes (m : Memory) (a n : Nat) : List Byte := (List.range n).map fun k => memByte m (a + k)

/-- Write bytes from an address on. -/
def memWrite (m : Memory) (a : Nat) : List Byte → Memory
  | [] => m
  | b :: l => memWrite (memPut m a b) (a + 1) l

/-- Record written bytes in an overlay. -/
def overWrite (o : Overlay) (a : Nat) : List Byte → Overlay
  | [] => o
  | b :: l => overWrite (assocPut o a b) (a + 1) l

/-- Apply an overlay to a memory. -/
def overApply (m : Memory) : Overlay → Memory
  | [] => m
  | p :: l => overApply (memPut m p.1 p.2) l

/-! ### Tiles, strands, partitions -/

/-- The tile of a logical id. -/
def State.tile (s : State) (k : Nat) : Tile := (assoc s.tiles k).getD Tile.reset

/-- Replace a tile. -/
def State.setTile (s : State) (k : Nat) (t : Tile) : State := { s with tiles := assocPut s.tiles k t }

/-- Another tile takes a tile's place; the sequence numbers of its requests go on (09 R197). -/
def State.renewTile (s : State) (k : Nat) (t : Tile) : State := s.setTile k { t with seq := (s.tile k).seq }

/-- Change a tile. -/
def State.modTile (s : State) (k : Nat) (f : Tile → Tile) : State := s.setTile k (f (s.tile k))

/-- Change the control part of a tile. -/
def State.modCore (s : State) (k : Nat) (f : TileCore → TileCore) : State :=
  s.modTile k fun t => { t with core := f t.core }

/-- Change the engines of a tile. -/
def State.modEng (s : State) (k : Nat) (f : TileEng → TileEng) : State :=
  s.modTile k fun t => { t with eng := f t.eng }

/-- Element `n` of a vector, or a default. -/
def vget {α : Type} {m : Nat} (v : Vector α m) (n : Nat) (d : α) : α := (v[n]?).getD d

/-- Replace element `n` of a vector. -/
def vset {α : Type} {m : Nat} (v : Vector α m) (n : Nat) (a : α) : Vector α m := v.setIfInBounds n a

/-- The strand in a slot. -/
def TileCore.strand (c : TileCore) (n : Nat) : Strand := vget c.slots n Strand.free

/-- Change the strand in a slot. -/
def TileCore.modStrand (c : TileCore) (n : Nat) (f : Strand → Strand) : TileCore :=
  { c with slots := vset c.slots n (f (c.strand n)) }

/-- The strand in slot `n` of tile `k`. -/
def State.strand (s : State) (k n : Nat) : Strand := (s.tile k).core.strand n

/-- Change the strand in slot `n` of tile `k`. -/
def State.modStrand (s : State) (k n : Nat) (f : Strand → Strand) : State := s.modCore k fun c => c.modStrand n f

/-- The strand whose bundle issues. -/
def State.me (s : State) : Strand := s.strand s.cur.tile s.cur.slot

/-- Change the strand whose bundle issues. -/
def State.modMe (s : State) (f : Strand → Strand) : State := s.modStrand s.cur.tile s.cur.slot f

/-- Whether the device still boots: DEVSTAT.READY is 0 (18 R425, 22 R449). -/
def State.booting (s : State) : Bool := !bitOf s.devstat 0

/-- Column of a logical id in the device grid (01 R6). -/
def gridX (k : Nat) : Nat := 32 * (k / 1024 % 2) + k % 32

/-- Row of a logical id in the device grid (01 R6). -/
def gridY (k : Nat) : Nat := 31 * (k / 2048) + k / 32 % 32

/-- The logical id at a place of the device grid (01 R6, R8). -/
def gridId (x y : Nat) : Nat := 1024 * (2 * (y / 31) + x / 32) + 32 * (y % 31) + x % 32

/-- The id under which the model keeps the service tile of a die (17 Table 17.3). -/
def serviceTile (d : Nat) : Nat := 1024 * d + 0x3E0

/-- Whether an id is a service tile's. -/
def isService (k : Nat) : Bool := k / 32 % 32 == 31

/-- Whether a partition's rectangle on this device holds a tile. -/
def Part.holds (p : Part) (k : Nat) : Bool :=
  !isService k && decide (p.orgx ≤ gridX k) && decide (gridX k < p.orgx + p.pw) &&
    decide (p.orgy ≤ gridY k) && decide (gridY k < p.orgy + p.ph)

/-- The tiles of a partition's rectangle on this device, in rank order (06 R121). -/
def Part.tiles (p : Part) : List Nat :=
  (List.range p.ph).flatMap fun j => (List.range p.pw).map fun i => gridId (p.orgx + i) (p.orgy + j)

/-- The corner of a partition's rectangle on this device, beside which its device root stands (13 R283). -/
def Part.corner (p : Part) : Nat := gridId p.orgx p.orgy

/-- The partition with a PARTID. -/
def State.part (s : State) (id : Nat) : Part := (assoc s.parts id).getD Part.reset

/-- Change a partition. -/
def State.modPart (s : State) (id : Nat) (f : Part → Part) : State :=
  { s with parts := assocPut s.parts id (f (s.part id)) }

/-- The resident partition whose rectangle holds a tile; a service tile belongs to none (17 R395). -/
def State.partOf (s : State) (k : Nat) : Option Nat :=
  (s.parts.find? fun p => p.2.valid && p.2.holds k).map (·.1)

/-- The rank of a tile of this device (07 R142). -/
def State.rank (s : State) (k : Nat) : Nat := s.devId * 4096 + k

/-- Whether a tile runs supersteps: it belongs to a partition and the device has booted (22 R449). -/
def State.versioned (s : State) (k : Nat) : Bool := !s.booting && (s.partOf k).isSome

/-- The offset from which TLM is scratch: SCRBASE, or 0 where nothing is versioned (07 R137, 22 R449). -/
def State.scratchFrom (s : State) (k : Nat) : Nat := if s.versioned k then (s.tile k).eng.scrbase else 0

/-- SSNUM of a tile's partition; where the tile belongs to none the spec gives it no value. -/
def State.ssnumOf (s : State) (k : Nat) : Nat :=
  match s.partOf k with
  | some id => (s.part id).ssnum
  | none => (Config.freeSsnum s.freeCtr).toNat

/-- PWRMAX of the device (18 R428). -/
def State.pwrMax (s : State) : Nat := Config.powerMax (fieldOf s.caps 23 20)

/-! ### Free values (log entry 6) -/

/-- A word that the spec leaves open. -/
def State.anyWord (s : State) : Word := Config.freeWord s.freeCtr

/-- A count that the spec leaves open. -/
def State.anyNat (s : State) : Nat := Config.freeNat s.freeCtr

/-- A choice that the spec leaves open. -/
def State.anyBool (s : State) : Bool := Config.freeBool s.freeCtr

/-- Bytes that the spec leaves open. -/
def State.anyBytes (s : State) (n : Nat) : List Byte := (List.range n).map fun i => Config.freeByte (s.freeCtr + i)

/-- Whether an access of the engine command that the step works on cannot be made yet, so that the step will not happen (log entry 28). -/
def State.stalled (s : State) : Bool := s.snag || !s.wants.isEmpty

/-- Whether an engine command of tile `k` leaves out the part at a position that it may leave out after a fault: 1 copy, 2 matrix, 3
vector. The choice is the same in a superstep that runs again (13 R298). -/
def State.skips (s : State) (k engine id pos : Nat) : Bool := !s.stalled && Config.freePart (s.devId * 4096 + k) engine id pos

/-- A count that the spec leaves open, of an engine command of tile `k`. -/
def State.openCount (s : State) (k engine id : Nat) : Nat := Config.freeCount (s.devId * 4096 + k) engine id

/-- The state after `n` free values were used. -/
def State.used (s : State) (n : Nat) : State := { s with freeCtr := s.freeCtr + n }

/-! ### Stops -/

/-- The end of a step whose accesses may have reached an address without memory. -/
def State.finish (s : State) : Out :=
  match s.missing with
  | some pa => .fault (.noMemory pa)
  | none => .next s

/-- Whether the duty withholds this cycle from the tiles (18 R429): they issue, and start engine commands, in D cycles of every 16. -/
def State.withheld (s : State) : Bool := decide (s.duty ≤ s.cyc % 16)

/-- Begin a step that may reach an address without memory, or be held back. -/
def State.begin (s : State) : State := { s with missing := none, snag := false, wants := [] }

/-! ### Registers (02 R36-R44) -/

/-- The value of a general register that the bundle reads (02 R28). -/
def State.rx (s : State) (r : Reg) : Word := vget s.cur.x r.toNat 0

/-- The value of a predicate that the bundle reads; p0 reads 1 (02 R37). -/
def State.rp (s : State) (p : PredReg) : Bool := p == 0 || s.cur.pred.getLsbD p.toNat

/-- A set register of a mask of pending registers. -/
def Strand.pending (st : Strand) : RegName → Bool
  | .x r => st.pend.getLsbD r.toNat
  | .p r => r != 0 && st.pendP.getLsbD r.toNat

/-- Mark a register pending; a write to p0 marks nothing (02 R37, R43). -/
def Strand.mark (st : Strand) : RegName → Strand
  | .x r => { st with pend := st.pend ||| (1#16 <<< r.toNat) }
  | .p r => if r = 0 then st else { st with pendP := st.pendP ||| (1#8 <<< r.toNat) }

/-- Clear a pending bit. -/
def Strand.unmark (st : Strand) : RegName → Strand
  | .x r => { st with pend := st.pend &&& ~~~(1#16 <<< r.toNat) }
  | .p r => { st with pendP := st.pendP &&& ~~~(1#8 <<< r.toNat) }

/-- Set a register's contents; a write to p0 is discarded (02 R37). -/
def Strand.setReg (st : Strand) (r : RegName) (v : Word) : Strand :=
  match r with
  | .x r => { st with x := vset st.x r.toNat v }
  | .p r =>
    if r = 0 then st
    else if bitOf v 0 then { st with pred := st.pred ||| (1#8 <<< r.toNat) }
    else { st with pred := st.pred &&& ~~~(1#8 <<< r.toNat) }

/-- Write a register; an earlier result in flight never overwrites it (02 R42). -/
def Strand.put (st : Strand) (r : RegName) (v : Word) : Strand :=
  { st.setReg r v with flight := st.flight.filter fun f => f.reg != r }

/-- A variable-latency result arrives: the register is written and no longer pending (02 R43). -/
def Strand.land (st : Strand) (r : RegName) (v : Word) : Strand := (st.put r v).unmark r

/-- Results in flight, in issue order, as their distance grows by `d`: those whose latency is reached are written, and
what was issued before them to the same register is dropped (02 R42). -/
def Strand.grow (d : Nat) (st : Strand) : List InFlight → List InFlight → Strand
  | [], kept => { st with flight := kept }
  | f :: l, kept =>
    if f.left ≤ d then Strand.grow d (st.setReg f.reg f.val) l (kept.filter fun g => g.reg != f.reg)
    else Strand.grow d st l (kept ++ [{ f with left := f.left - d }])

/-- The distance from every bundle in flight grows by `d` (02 R40). -/
def Strand.advance (st : Strand) (d : Nat) : Strand := st.grow d st.flight []

/-- Every shadow ends (02 R42): the results in flight become visible in issue order. -/
def Strand.endShadows (st : Strand) : Strand :=
  { st.flight.foldl (fun st f => st.setReg f.reg f.val) st with flight := [] }

/-- A fixed-latency result (02 R41): visible at distance `lat`; with latency 1 that is every later bundle. One for p0 is discarded
(R37). -/
def Strand.result (st : Strand) (lat : Nat) (r : RegName) (v : Word) : Strand :=
  if r = .p 0 then st
  else if lat ≤ 1 then st.put r v
  else { st with flight := st.flight ++ [⟨r, v, lat⟩] }

/-- The issuing strand's fixed-latency result for a general register. -/
def State.putX (s : State) (lat : Nat) (r : Reg) (v : Word) : State := s.modMe fun st => st.result lat (.x r) v

/-- The issuing strand's fixed-latency result for a predicate. -/
def State.putP (s : State) (lat : Nat) (r : PredReg) (v : Bool) : State :=
  s.modMe fun st => st.result lat (.p r) (if v then 1 else 0)

/-- The issuing strand's destination becomes pending. -/
def State.markX (s : State) (r : Reg) : State := s.modMe fun st => st.mark (.x r)

/-- A result arrives in a register of a strand. -/
def State.landX (s : State) (k n : Nat) (r : Reg) (v : Word) : State := s.modStrand k n fun st => st.land (.x r) v

/-- A predicate as a word. -/
def predWord (b : Bool) : Word := if b then 1 else 0

/-- The bundle is not eligible (06 R114): its strand stays at it. While the bundle is probed this is only noted. Where only
the effect of its own A slot holds the C slot back, the C slot alone issues later (02 R31). -/
def State.hold (s : State) : State :=
  if s.cur.probing then { s with cur := { s.cur with waits := true } }
  else s.modMe fun st =>
    { st with pc := s.cur.pc, sstat := if s.cur.paired then setField st.sstat 10 10 1 else st.sstat }

/-- The issuing strand sleeps, its pc at the sleeping bundle (06 R111, R112). -/
def State.sleepOn (s : State) (w : Sleep) : State := s.modMe fun st => { st with sleep := w, pc := s.cur.pc }

/-- A sleeping strand wakes past its bundle. -/
def Strand.wake (st : Strand) : Strand := { st with sleep := .awake, pc := st.pc + 8 }

/-! ### Status fields (17 Table 17.1) -/

/-- SSTAT.PRIV. -/
def Strand.priv (st : Strand) : Nat := fieldOf st.sstat 9 8

/-- SSTAT.INH. -/
def Strand.inh (st : Strand) : Bool := bitOf st.sstat 11

/-- SSTAT.ASKIP. -/
def Strand.askip (st : Strand) : Bool := bitOf st.sstat 10

/-- SSTAT.XTRAP. -/
def Strand.xtrap (st : Strand) : Bool := bitOf st.sstat 2

/-- SSTAT.CHK. -/
def Strand.chk (st : Strand) : Bool := bitOf st.sstat 1

/-- SSTAT.URG. -/
def Strand.urg (st : Strand) : Bool := bitOf st.sstat 0

/-- Privilege of the issuing strand. -/
def State.priv (s : State) : Nat := s.me.priv

/-! ### Interrupts and launches (18 R417-R423) -/

/-- A virtual function's registers. -/
def State.function (s : State) (fn : Nat) : Function := (assoc s.functions fn).getD Function.reset

/-- Change a function. -/
def State.modFunction (s : State) (fn : Nat) (f : Function → Function) : State :=
  { s with functions := assocPut s.functions fn (f (s.function fn)) }

/-- Something leaves the device. -/
def State.emit (s : State) (o : Output) : State := { s with out := s.out ++ [o] }

/-- A cause bit of a function rises; its vector is signalled when the bit was 0 and is not masked (18 R423). -/
def State.raiseBit (s : State) (fn bit : Nat) : State :=
  let f := s.function fn
  let s' := s.modFunction fn fun f => { f with cause := f.cause ||| (1#16 <<< bit) }
  if f.cause.getLsbD bit || f.mask.getLsbD bit then s' else s'.emit (.interrupt fn bit)

/-- The number under which outputs name the physical function. -/
def physical : Nat := 16

/-- Refuse the queued launches of a function bound to a slot that failed or was refused, and those bound to them
(18 R420). -/
def State.refuseBound (fn : Nat) : Nat → State → Nat → State
  | 0, s, _ => s
  | fuel + 1, s, n =>
    (s.function fn).slots.foldl (fun s q =>
      let now := (assoc (s.function fn).slots q.1).getD q.2
      if now.state = 1 && now.deps.contains n then
        State.refuseBound fn fuel
          ((s.modFunction fn fun f =>
            { f with slots := assocPut f.slots q.1 { now with state := 4, reason := 3, deps := [] } }).raiseBit fn 1) q.1
      else s) s

/-- Change a launch slot of a function. -/
def State.modSlot (s : State) (fn n : Nat) (f : LaunchSlot → LaunchSlot) : State :=
  match assoc (s.function fn).slots n with
  | some q => s.modFunction fn fun g => { g with slots := assocPut g.slots n (f q) }
  | none => s

/-- A fatal cause makes a partition's running launch Failed (18 R422). -/
def State.failLaunch (s : State) (id cause : Nat) : State :=
  match (s.part id).running with
  | none => s
  | some (fn, n) =>
    let s := (s.modSlot fn n fun q => { q with state := 5, fault := cause, energy := (s.part id).lenergy }).raiseBit fn 2
    (State.refuseBound fn 32 s n).modPart id fun p => { p with running := none }

/-! ### Causes, votes and fatal stops (13 R282, R291, 17 R393, R394) -/

/-- Record a cause on a tile (13 R282). -/
def State.record (s : State) (k cause : Nat) : State := s.modTile k fun t => { t with causes := t.causes ++ [cause] }

/-- Whether an abort that a tile casts now is of the superstep that opens next: it stands between DECIDE and OPEN, or its superstep
commits (13 R291). -/
def State.isLate (s : State) (k : Nat) : Bool :=
  (s.tile k).decided ||
    (s.partOf k).any fun id => (s.part id).bar.commit == some true && !(s.part id).bar.opened.contains (.tile k)

/-- Record a cause and cast an immediate abort; between DECIDE and OPEN it is kept for the next superstep (13 R291).
Where no superstep is open it has no effect (22 R449). -/
def State.castAbort (s : State) (k cause : Nat) : State :=
  if !s.versioned k then s
  else if s.isLate k then s.modTile k fun t => { t with recast := t.recast ++ [cause] }
  else (s.record k cause).modTile k fun t => { t with vote := true, cast := true }

/-- Record a cause and set the sticky abort vote (13 Table 13.5). -/
def State.stickyVote (s : State) (k cause : Nat) : State :=
  if !s.versioned k then s else (s.record k cause).modTile k fun t => { t with vote := true }

/-- Whether a recorded cause is one of 13 Table 13.2. -/
def isCapacity (cause : Nat) : Bool := decide (0x0E0 ≤ cause) && decide (cause ≤ 0x0E4)

/-- A capacity is exhausted: the issuing tile records the cause and casts an immediate abort (13 R279); one cast late counts in the
superstep that opens next. -/
def State.capacity (s : State) (k cause : Nat) : State :=
  if s.isLate k then s.castAbort k cause
  else (s.castAbort k cause).modTile k fun t => { t with capCause := t.capCause <|> some cause }

/-- A tile stops issue and sets its three records (17 R405). A strand waiting in WAITV loses its monitor and restarts
(09 R204); its request is discarded. -/
def State.stopTile (s : State) (k : Nat) : State :=
  let mine (r : Req) : Bool := decide (r.sdev = s.devId) && decide (r.tile = k) &&
    (match r.op with | .waitv .. => true | _ => false)
  let gone := s.reqs.filter mine
  let s := { s with reqs := s.reqs.filter fun r => !mine r }
  let s := gone.foldl (fun s r => s.modStrand k r.slot fun st =>
    r.dests.foldl (fun st d => st.unmark d) { st with sleep := .awake }) s
  s.modTile k fun t =>
    if t.gstopped then t
    else { t with gstopped := true, core := { t.core with gscyc := s.cyc, gssent := t.core.sent, gsrecv := t.core.accepted } }

/-- The slice and latency timers pause or run on: a timer that runs holds the grain of its start, one that is paused the grains
that it has run (17 R405). -/
def Part.turnTimers (gclk : Nat) (p : Part) : Part :=
  { p with slice := p.slice.map fun t => gclk - t, deadline := p.deadline.map fun t => gclk - t }

/-- A stop of a partition enters the halt tree of this device (17 R405). -/
def State.stopPart (s : State) (id : Nat) : State :=
  s.modPart id fun p => if p.stopped then p else { p.turnTimers s.gclk with stopped := true }

/-- Change the context-list entry of a partition (18 R434). -/
def State.modEntry (s : State) (id : Nat) (f : ContextEntry → ContextEntry) : State :=
  let p := s.part id
  match assoc s.regions p.region with
  | none => s
  | some g =>
    match assoc g.entries p.entry with
    | none => s
    | some e => { s with regions := assocPut s.regions p.region { g with entries := assocPut g.entries p.entry (f e) } }

/-- A partition fails for a cause (17 R394): every tile stops as by GSTOP, the context entry and the running launch fail, and the host
is interrupted. -/
def State.failPart (s : State) (id cause : Nat) : State :=
  let s := (s.stopPart id).modEntry id fun e => { e with state := 4, fault := cause }
  (s.failLaunch id cause).emit (.stop id cause)

/-- A fatal cause (17 R394): on a service tile it stops that tile and sets DEVSTAT.SVCF; in a partition it stops its tile at once, and
the partition fails. -/
def State.fatal (s : State) (k cause : Nat) : State :=
  match s.partOf k with
  | none =>
    let s := s.modTile k fun t => { t with halted := true }
    ({ s with devstat := s.devstat ||| word (2 ^ (12 + k / 1024)) }).emit (.interrupt physical 1)
  | some id => ((s.record k cause).stopTile k).failPart id cause

/-! ### Tile-local memory (07 R136-R139) -/

/-- The read-only words of the deque control area, by word index (06 Table 6.6). -/
def dequeWord (c : TileCore) (i : Nat) : Nat :=
  match i with
  | 0 => c.deque.length
  | 1 => c.dqSpawn
  | 2 => c.dqDone
  | 3 => c.dqLost
  | 4 => c.dqGain
  | 5 => c.dqFull
  | _ => 0

/-- The read-only words of the heap control, by word index (15 Table 15.3). DESIGN CHOICE: as an abort keeps them (15 R350), their
increments copy no granule to the undo area (log entry 69). -/
def heapWord (t : Tile) (i : Nat) : Nat :=
  match i with
  | 0 => t.hwake
  | 1 => t.tflt
  | _ => t.tdup

/-- The byte that a tile itself reads at an offset of its TLM. -/
def Tile.byte (t : Tile) (a : Nat) : Byte :=
  if 0x100 ≤ a ∧ a < 0x200 then BitVec.ofNat 8 (dequeWord t.core ((a - 0x100) / 8) >>> (8 * (a % 8)))
  else if 0xC20 ≤ a ∧ a < 0xC38 then BitVec.ofNat 8 (heapWord t ((a - 0xC20) / 8) >>> (8 * (a % 8)))
  else memByte t.tlm a

/-- Bytes that a tile itself reads. -/
def Tile.bytes (t : Tile) (a n : Nat) : List Byte := (List.range n).map fun i => t.byte (a + i)

/-- The byte that another tile reads: below SCRBASE the undo copy where there is one, and the words that hardware counts as they stood
at superstep open (07 R139). -/
def Tile.committed (t : Tile) (scr a : Nat) : Byte :=
  if scr ≤ a then t.byte a
  else match assoc t.undo (a / 64) with
    | some old => (old[a % 64]?).getD 0
    | none => { t with core := t.openCore, hwake := vget t.heapOpen 0 0, tflt := vget t.heapOpen 1 0, tdup := vget t.heapOpen 2 0 }.byte a

/-- Whether a byte range touches an uncorrectable word (17 R407). -/
def badRange (bad : List Nat) (a n : Nat) : Bool := bad.any fun w => overlaps (8 * w) 8 a n

/-- Whether the bytes that another tile reads touch an uncorrectable word: of the undo copy where there is one. -/
def Tile.committedBad (t : Tile) (scr a n : Nat) : Bool :=
  (t.bad.any fun w => overlaps (8 * w) 8 a n && (decide (scr ≤ 8 * w) || (assoc t.undo (w / 8)).isNone)) ||
    badRange t.undoBad a n

/-- Whether a write covers all of a word, and whether it touches it. -/
def coversWord (w a n : Nat) : Bool := decide (a ≤ 8 * w) && decide (8 * w + 8 ≤ a + n)

/-- The bytes of a write without those of uncorrectable words that it covers only in part (17 R407). -/
def spareBad (bad : List Nat) (a : Nat) (l : List Byte) : List (Nat × Byte) :=
  ((List.range l.length).zip l).filterMap fun p =>
    let w := (a + p.1) / 8
    if bad.contains w && !coversWord w a l.length then none else some (a + p.1, p.2)

/-- The granules of a byte range that have no undo copy yet. -/
def Tile.newGranules (t : Tile) (scr a n : Nat) : List Nat :=
  (List.range ((a + n + 63) / 64 - a / 64)).filterMap fun i =>
    let g := a / 64 + i
    if 64 * g < scr && (assoc t.undo g).isNone && decide (0 < n) then some g else none

/-- Insert into an ascending list without repeats. -/
def insertNat : List Nat → Nat → List Nat
  | [], n => [n]
  | m :: l, n => if n < m then n :: m :: l else if n = m then m :: l else m :: insertNat l n

/-- A write of a tile's own strand, engine or hardware to its TLM, without the undo area's limit (07 R138, R142). -/
def Tile.write (t : Tile) (scr a : Nat) (l : List Byte) : Tile :=
  let undo := (t.newGranules scr a l.length).foldl (fun u g => assocPut u g (t.bytes (64 * g) 64)) t.undo
  let cells := spareBad t.bad a l
  let fresh := t.newGranules scr a l.length
  { t with
    undo := undo
    undoBad := t.undoBad ++ t.bad.filter fun w => fresh.contains (w / 8)
    tlm := cells.foldl (fun m c => memPut m c.1 c.2) t.tlm
    own := cells.foldl (fun o c => if c.1 < scr then insertNat o c.1 else o) t.own
    bad := t.bad.filter fun w => !coversWord w a l.length }

/-- Bytes from an address on, with those of a write in their place. -/
def patchBytes (old : List Byte) (base a : Nat) (l : List Byte) : List Byte :=
  ((List.range old.length).zip old).map fun q => if a ≤ base + q.1 then (l[base + q.1 - a]?).getD q.2 else q.2

/-- A write that no abort undoes (24 R459): the undo copies of its bytes take it too. -/
def Tile.writeNow (t : Tile) (a : Nat) (l : List Byte) : Tile :=
  { t with
    tlm := memWrite t.tlm a l
    undo := t.undo.map fun u => (u.1, patchBytes u.2 (64 * u.1) a l)
    undoBad := t.undoBad.filter fun w => !coversWord w a l.length
    bad := t.bad.filter fun w => !coversWord w a l.length }

/-- Whether a write covers an uncorrectable word only in part (17 R407). -/
def partlyBad (bad : List Nat) (a n : Nat) : Bool := bad.any fun w => overlaps (8 * w) 8 a n && !coversWord w a n

/-- A tile writes its own TLM: a granule without a place in the undo area records 0x0E0 and the write is not performed
(13 R279). -/
def State.tlmWrite (s : State) (k a : Nat) (l : List Byte) : State :=
  let t := s.tile k
  let scr := s.scratchFrom k
  if t.undo.length + (t.newGranules scr a l.length).length > Config.undoCap then s.capacity k 0x0E0
  else s.setTile k (t.write scr a l)

/-- A little-endian number in a tile's own TLM. -/
def State.tlmNat (s : State) (k a n : Nat) : Nat := ofBytes ((s.tile k).bytes a n)

/-- Whether a strand of a privilege may access a byte range of TLM (07 R136, Table 7.1): no privilege writes the deque
control area or the read-only words of the heap control; below device privilege the shape record to 0x9F is read only;
at user privilege trap frames and heap control are closed. -/
def tlmMay (priv : Nat) (write : Bool) (a n : Nat) : Bool :=
  decide (a + n ≤ 0x80000) && !(write && (overlaps a n 0x100 0x100 || overlaps a n 0xC20 0x18)) &&
    (decide (2 ≤ priv) || (!(write && overlaps a n 0 0xA0) && (decide (1 ≤ priv) || !overlaps a n 0x400 0xC00)))

/-- The banks that a byte range of TLM lies in. -/
def banksOf (a len : Nat) : List Nat := if len = 0 then [] else (List.range ((a + len - 1) / 0x4000 + 1 - a / 0x4000)).map fun i => a / 0x4000 + i

/-- An access to banks of a tile: the cycle of their latest access, which for a bank in retention is that in which it began to wake
(06 R125). -/
def State.touchBanks (s : State) (k a len : Nat) : State :=
  s.modTile k fun t =>
    { t with touched := (banksOf a len).foldl (fun l b => if t.retained.getLsbD b && (assoc l b).isSome then l else assocPut l b s.cyc) t.touched }

/-- Whether a bank that a byte range of a tile lies in is in retention. -/
def Tile.asleep (t : Tile) (a len : Nat) : Bool := (banksOf a len).any t.retained.getLsbD

/-- An access of a strand, or of an engine command that it issued, to banks of its tile (06 R125). -/
def State.touch (s : State) (k n a len : Nat) : State :=
  (s.modStrand k n fun st => { st with banks := st.banks ||| BitVec.ofNat 32 (maskOf (banksOf a len)) }).touchBanks k a len

/-- A blocking access to a bank in retention waits while the bank wakes (06 R125): its strand issues nothing for 64 cycles from the first
access to the bank. -/
def State.awaitBanks (s : State) (k n a len : Nat) : State :=
  let t := s.tile k
  let woken := (banksOf a len).filterMap fun b => if t.retained.getLsbD b then some ((assoc t.touched b).getD s.cyc + 64) else none
  s.modStrand k n fun st => { st with readyAt := woken.foldl max st.readyAt }

/-! ### Membership sets (06 R123) -/

/-- The barrier rule of one set. -/
def TileCore.barrier (c : TileCore) (i : Nat) : TileCore :=
  let m := vget c.sets i ⟨0, 0⟩
  if m.members = m.arrived ∧ m.members ≠ 0 then
    { c with
      sets := vset c.sets i { m with arrived := 0 }
      slots := c.slots.map fun st => if st.sleep = .gbar i then st.wake else st }
  else c

/-- A strand leaves a set, and the barrier rule is applied again. -/
def TileCore.leaveSet (c : TileCore) (n i : Nat) : TileCore :=
  let m := vget c.sets i ⟨0, 0⟩
  let bit := ~~~(1#16 <<< n)
  { c with sets := vset c.sets i ⟨m.members &&& bit, m.arrived &&& bit⟩ }.barrier i

/-- A strand leaves every set it belongs to. -/
def TileCore.leaveAll (c : TileCore) (n : Nat) : TileCore :=
  (List.range 64).foldl
    (fun c i => if (vget c.sets i ⟨0, 0⟩).members.getLsbD n then c.leaveSet n i else c) c

/-! ### Taking a trap and returning from one (17 R385-R388) -/

/-- No deferred access. -/
def DeferredAccess.none : DeferredAccess := ⟨0, 0, 0, 0⟩

/-- The TLM offset of a slot's trap frame (07 Table 7.1). -/
def frameAt (n : Nat) : Nat := 0x400 + 0x80 * n

/-- Whether any of x12-x15 is pending. -/
def Strand.savedPending (st : Strand) : Bool := st.pend &&& 0xF000 != 0

/-- The bytes of a trap frame that the hardware writes (17 Table 17.4). -/
def frameBytes (st : Strand) (t : TrapInfo) : List Byte :=
  [vget st.x 12 0, vget st.x 13 0, vget st.x 14 0, vget st.x 15 0, t.epc,
    setField st.sstat 10 10 (if t.askip then 1 else 0), word t.cause, t.tval,
    t.acc.facc, t.acc.faddr, t.acc.fdata0, t.acc.fdata1].flatMap fun w => toBytes 8 w.toNat

/-- SSTAT in a handler: PRIV at least supervisor, INH set, ASKIP clear (17 R385). -/
def trapSstat (w : Word) : Word :=
  setField (setField (setField w 9 8 (max (fieldOf w 9 8) 1)) 11 11 1) 10 10 0

/-- Steps 2 to 4 of trap entry (17 R385): the frame, EPC, CAUSE, TVAL and SSTAT, and the pc at TVEC. Every shadow of the
strand has ended (02 R42), and its first handler bundle issues 8 cycles later at the earliest. -/
def State.enterTrap (s : State) (k n : Nat) (t : TrapInfo) : State :=
  let s := s.modStrand k n Strand.endShadows
  let s := s.tlmWrite k (frameAt n) (frameBytes (s.strand k n) t)
  let tvec := (s.tile k).core.tvec
  s.modStrand k n fun st =>
    { st with
      epc := t.epc, cause := word t.cause, tval := t.tval, sstat := trapSstat st.sstat, pc := tvec,
      sleep := .awake, handling := t.cause :: st.handling, readyAt := s.cyc + 8 }

/-- A strand takes a trap (17 R385, R386): a double trap is fatal; while any of x12-x15 is pending the entry waits. -/
def State.takeTrap (s : State) (k n : Nat) (t : TrapInfo) : State :=
  let st := s.strand k n
  let s := if (s.partOf k).isSome then s.record k t.cause else s
  if st.inh then s.fatal k 0x167
  else if st.savedPending then s.modStrand k n fun st => { st with pc := t.epc, sleep := .trap t }
  else s.enterTrap k n t

/-- The issue-time causes for which the spec states no trap value (log entry 15). -/
def openTval (cause : Nat) : Bool :=
  [0x065, 0x0C0, 0x0C1, 0x0C3, 0x0C4, 0x0C5, 0x0C6, 0x0EB, 0x0EC, 0x109, 0x120, 0x121, 0x123, 0x124, 0x126, 0x127, 0x128, 0x131, 0x134,
    0x160, 0x161, 0x162, 0x163].contains cause

/-- A trap raised at issue (02 R31): neither slot takes effect, EPC holds the bundle and the bundle is not folded. While
the bundle is probed for such traps only the trap is noted. A trap value that the spec does not state is free. -/
def State.trapAtIssue (s : State) (cause : Nat) (tval : Word) : State :=
  if s.cur.probing then { s with cur := { s.cur with trap := s.cur.trap <|> some (cause, tval) } }
  else
    (s.modMe fun st => { st with sig := s.cur.fold, opens := st.opens + 1 }).takeTrap s.cur.tile s.cur.slot
      ⟨cause, s.cur.pc, if openTval cause then Config.freeTval (s.devId * 4096 + s.cur.tile) s.cur.slot cause s.me.opens else tval,
        s.cur.askip, .none⟩

/-- A trap raised by a C-class instruction after issue (02 R31, 07 R147): the A slot has taken effect, EPC holds the
bundle, and ASKIP is set when the bundle is paired. -/
def State.trapAfter (s : State) (cause : Nat) (tval : Word) : State :=
  s.takeTrap s.cur.tile s.cur.slot ⟨cause, s.cur.pc, tval, s.cur.paired, .none⟩

/-- A trap raised after the bundle's effect, with EPC at the next bundle (06 R134, 17 R389). -/
def State.trapNext (s : State) (cause : Nat) (tval : Word) : State :=
  s.takeTrap s.cur.tile s.cur.slot ⟨cause, s.cur.pc + 8, tval, false, .none⟩

/-- The SSTAT that a return restores: reserved bits zero, PRIV no higher than the current one (17 R388). -/
def returnSstat (frame cur : Word) : Word :=
  setField (frame &&& 0x0000000000000F07) 9 8 (min (fieldOf frame 9 8) (fieldOf cur 9 8))

/-- The return from a trap (17 R388): every shadow ends (02 R42), x12-x15 and SSTAT come from the frame, and the pc from EPC. -/
def State.returnTrap (s : State) (k n : Nat) : State :=
  let w (i : Nat) : Word := word (s.tlmNat k (frameAt n + 8 * i) 8)
  s.modStrand k n fun st =>
    let st := (List.range 4).foldl (fun (st : Strand) i => st.put (.x (BitVec.ofNat 4 (12 + i))) (w i)) st.endShadows
    { st with sstat := returnSstat (w 5) st.sstat, pc := st.epc, handling := st.handling.tail }

/-- The signature accumulator after one byte (06 R126). -/
def foldByte (acc : BitVec 16) (b : Byte) : BitVec 16 :=
  (List.range 8).foldl
    (fun (a : BitVec 16) _ => if a.getLsbD 15 then (a <<< 1) ^^^ 0x1021#16 else a <<< 1)
    (acc ^^^ (b.setWidth 16 <<< 8))

/-- SigFold over bytes in ascending address order (06 R126). -/
def sigFold (acc : BitVec 16) (l : List Byte) : BitVec 16 := l.foldl foldByte acc

/-! ### Slot 15 (06 R124) -/

/-- Stack(s) of the shape record (06 R113). -/
def Tile.stack (t : Tile) (n : Nat) : Word :=
  let top := ofBytes (t.bytes 0x18 4)
  let size := ofBytes (t.bytes 0x1C 2)
  if top = 0 ∧ size = 0 then 0 else 0x00FFF80000000000 + word top - word (n * size)

/-- The state in which slot 15 becomes live for a cause (06 R124, 14 R323): that of R113 except for x0-x7. -/
def overflowStrand (t : Tile) (ktab : Vector (BitVec 12) 8) (priv cause : Nat) (tval : Word) : Strand :=
  { Strand.free with
    st := .live, k := ktab, pc := t.core.tvec, cause := word cause, tval := tval,
    sstat := setField 0 9 8 priv,
    x := vset (vset Strand.free.x 13 (t.stack 15)) 14 0x00FFF80000000000 }

end Sys2Proof.Machine
end

