-- ==== Sys2Proof/Machine/Pointers.lean ====
section
/-! DEFINITION. Fat pointers: their fields, the checks of R74, and the local checks of accesses (04 R73-R75, 05 R99,
07 R147, 08 R160). -/

namespace Sys2Proof.Machine

/-- FMT of a pointer (04 Table 4.3). -/
def ptrFmt (w : Word) : Format := Format.ofCode (fieldOf w 63 60)

/-- BLK of a pointer. -/
def ptrBlk (w : Word) : Nat := fieldOf w 59 57

/-- SPACE of a pointer: 0 global versioned, 1 tile-local, 2 global immediate, 3 peer device (01 Table 1.4). -/
def ptrSpace (w : Word) : Nat := fieldOf w 56 55

/-- TILE of a space-01 pointer (04 Table 4.4). -/
def ptrTile (w : Word) : Nat := fieldOf w 54 43

/-- DEV of a space-11 pointer. -/
def ptrDev (w : Word) : Nat := fieldOf w 54 41

/-- The highest bit of the location of a space (05 R99). -/
def locTop (space : Nat) : Nat := if space = 1 then 18 else if space = 3 then 40 else 47

/-- The location limit of a space (05 R99). -/
def locLimit (space : Nat) : Nat := 2 ^ (locTop space + 1)

/-- The location of a pointer (05 R99). -/
def ptrLoc (w : Word) : Nat := fieldOf w (locTop (ptrSpace w)) 0

/-- A pointer with another location. -/
def ptrAt (w : Word) (loc : Nat) : Word := setField w (locTop (ptrSpace w)) 0 loc

/-- A location advanced by a signed byte count lies in the space (05 R99). -/
def locOk (w : Word) (n : Int) : Bool :=
  decide (0 ≤ (ptrLoc w : Int) + n) && decide ((ptrLoc w : Int) + n < locLimit (ptrSpace w))

/-- A pointer with its location advanced. -/
def ptrAdd (w : Word) (n : Int) : Word := ptrAt w ((ptrLoc w : Int) + n).toNat

/-- Bit `d` of CAPS.DIES (00 Table 0.2). -/
def State.diePresent (s : State) (d : Nat) : Bool := bitOf s.caps (16 + d)

/-- Whether a 12-bit id names a tile (01 R8); 0xFFF names this one. -/
def State.tileNamed (s : State) (id : Nat) : Bool :=
  id == 0xFFF || (id / 32 % 32 != 31 && s.diePresent (id / 1024) && s.l2pOk.getLsbD (id / 1024))

/-- The reserved field of a pointer (04 Table 4.4). -/
def ptrReserved (w : Word) : Nat :=
  if ptrSpace w = 1 then fieldOf w 42 19 else if ptrSpace w = 3 then 0 else fieldOf w 54 48

/-- The check of R74: the cause of the first field that fails, in the order in which R74 lists them. -/
def State.pointerCause (s : State) (w : Word) : Option Nat :=
  if ptrReserved w != 0 then some 0x040
  else if ptrFmt w == .reserved then some 0x041
  else if ptrBlk w != 0 && !(ptrFmt w).scalable then some 0x042
  else if ptrSpace w == 1 && !s.tileNamed (ptrTile w) then some 0x043
  else none

/-- The check of a scale pointer (04 R75): that of R74, and FMT and BLK 0. -/
def State.scaleCause (s : State) (w : Word) : Option Nat :=
  match s.pointerCause w with
  | some c => some c
  | none => if fieldOf w 63 57 != 0 then some 0x044 else none

/-- The tile that a space-01 pointer of tile `k` names. -/
def targetTile (k : Nat) (w : Word) : Nat := if ptrTile w = 0xFFF then k else ptrTile w

/-- Whether a pointer of tile `k` addresses that tile's own TLM. -/
def ownTlm (k : Nat) (w : Word) : Bool := ptrSpace w == 1 && targetTile k w == k

/-- Whether a device belongs to the partition of tile `k` (07 R144). -/
def State.deviceIn (s : State) (k dev : Nat) : Bool :=
  match s.partOf k with
  | some id => (s.part id).devs.contains dev
  | none => false

/-- Check 5 of 07 Table 7.2: TLM permission, and DEV in the partition. -/
def State.permitCause (s : State) (k priv : Nat) (w : Word) (size : Nat) (write : Bool) : Option Nat :=
  if ptrSpace w = 1 ∧ tlmMay priv write (ptrLoc w) size = false then some 0x064
  else if ptrSpace w = 3 ∧ s.deviceIn k (ptrDev w) = false then some 0x065
  else none

/-- The local checks of a load or store (07 Table 7.2): base pointer, displacement, further advance of a .pi form, size,
direction and whether the format is accepted; the first failed check's cause and TVAL. -/
def State.accessCause (s : State) (k priv : Nat) (base : Word) (n adv : Int) (size : Nat) (write fmtOk : Bool) :
    Option (Nat × Word) :=
  let e := ptrAdd base n
  match s.pointerCause base with
  | some c => some (c, base)
  | none =>
    if !locOk base n || !locOk base adv then some (0x046, base)
    else if !fmtOk then some (0x045, e)
    else if ptrLoc e % size ≠ 0 then some (0x080, e)
    else (s.permitCause k priv e size write).map fun c => (c, e)

/-- The local checks of an atomic, a reservation, a reduction or WAITV (08 Table 8.2, checks 1 to 5): which spaces are
accepted, with `needScratch` for TLM at or above SCRBASE only (08 R159). -/
def State.atomicCause (s : State) (k priv : Nat) (w : Word) (size : Nat) (write : Bool) (spaces : List Nat) :
    Option Nat :=
  match s.pointerCause w with
  | some c => some c
  | none =>
    if locLimit (ptrSpace w) < ptrLoc w + size then some 0x046
    else if !spaces.contains (ptrSpace w) then some 0x0A0
    else if ownTlm k w && decide (ptrLoc w < s.scratchFrom k) then some 0x0A0
    else if ptrLoc w % size ≠ 0 then some 0x080
    else s.permitCause k priv w size write

/-- The checks of a pointer that must name this tile's own TLM (17 R465), then checks 2, 4 and 5 of 07 Table 7.2 for an
access of `len` bytes whose location is a multiple of `align`. A location never lies beyond the space, so check 2 holds. DESIGN CHOICE: an
aligned location whose bytes do not all lie in TLM raises 0x046 (log entry 76). -/
def State.ownCause (s : State) (k priv : Nat) (w : Word) (len align : Nat) (write : Bool) : Option Nat :=
  match s.pointerCause w with
  | some c => some c
  | none =>
    if !ownTlm k w then some 0x04A
    else if ptrLoc w % align ≠ 0 then some 0x080
    else if 0x80000 < ptrLoc w + len then some 0x046
    else if tlmMay priv write (ptrLoc w) len = false then some 0x064
    else none

end Sys2Proof.Machine
end

