-- ==== Sys2Proof/Machine/Stations.lean ====
section
/-! DEFINITION. Where memory is: translation, committed HBM, pending versions, the undo journal, other tiles' TLM, and the
accesses of engines (07 R139-R146, 17 R395-R400, R407). -/

namespace Sys2Proof.Machine

/-! ### Physical memory -/

/-- Whether the device holds memory at a physical range (07 R145). -/
def State.hasMemory (s : State) (pa n : Nat) : Bool :=
  let d := pa / 2 ^ 37
  decide (d < 4) && s.diePresent d && decide (pa % 2 ^ 37 + n ≤ 96 * 2 ^ 30)

/-- The home station of a physical address (07 R145). -/
def homeStation (pa : Nat) : Nat := 16 * (pa / 2 ^ 37) + pa / 256 % 16

/-- The station that translates for a tile (07 R145). -/
def xlateStation (k va : Nat) : Nat := 16 * (k / 1024) + va / 65536 % 16

/-- A byte before every write that a journal records: what is committed (07 R143). -/
def committedByte (j : List JournalEntry) (pa : Nat) (now : Byte) : Byte :=
  j.foldl (fun b e => if e.pa ≤ pa ∧ pa < e.pa + e.old.length then (e.old[pa - e.pa]?).getD b else b) now

/-- The committed byte of HBM: without the uncommitted writes to space 10 of any partition (07 R143, 06 R117). -/
def State.hbmCommitted (s : State) (pa : Nat) : Byte :=
  s.parts.foldl (fun b p => committedByte p.2.journal pa b) (memByte s.hbm pa)

/-- A little-endian word of physical memory, for a walker (17 R395). -/
def State.tableWord (s : State) (pa : Nat) : Word := word (ofBytes (memBytes s.hbm pa 8))

/-! ### Translation (07 R146, 17 R395-R400) -/

/-- Where a walk ends: at a page, at an entry that fails, at an uncorrectable entry, or at an address without memory. -/
inductive Walk where
  | page (pa : Nat) (entry : Word)
  | fails
  | corrupt
  | missing (pa : Nat)
  deriving DecidableEq, Repr

/-- The lowest VA bit that a level indexes (07 R146). -/
def levelShift (lvl : Nat) : Nat := if lvl = 1 then 39 else if lvl = 2 then 30 else if lvl = 3 then 21 else 16

/-- The index of a VA at a level. -/
def levelIndex (va lvl : Nat) : Nat := (va >>> levelShift lvl) % (if lvl = 4 then 32 else 512)

/-- ADDR of an entry as a physical address (17 Table 17.8). -/
def entryAddr (e : Word) : Nat := fieldOf e 38 8 * 256

/-- Whether an entry has a reserved bit set (17 Table 17.8). -/
def entryReserved (e : Word) : Bool := fieldOf e 63 39 != 0 || fieldOf e 7 5 != 0

/-- Whether an entry with V = 1 is valid at a level (17 R397). -/
def entryOk (lvl : Nat) (e : Word) : Bool :=
  !entryReserved e &&
    (if bitOf e 4 then lvl != 1 && entryAddr e % 2 ^ levelShift lvl == 0
     else lvl != 4 && entryAddr e % (if lvl = 3 then 256 else 4096) == 0)

/-- The entry that a walk reads: a replaced one that no XINV has covered, where the walk still uses it (17 R400). -/
def walkEntry (s : State) (old : List Stale) (ctx va lvl pa : Nat) : Word :=
  match old.find? fun o => o.ctx == ctx && o.lvl == lvl && (o.va >>> levelShift lvl) == (va >>> levelShift lvl) with
  | some o => o.entry
  | none => s.tableWord pa

/-- Walk the levels of a list from a table (17 R397). -/
def walkLevels (s : State) (old : List Stale) (ctx va : Nat) : List Nat → Nat → Walk
  | [], _ => .fails
  | lvl :: l, table =>
    let pa := table + 8 * levelIndex va lvl
    if s.hasMemory pa 8 then
      let e := walkEntry s old ctx va lvl pa
      if s.hbmBad.contains (pa / 8) then .corrupt
      else if !bitOf e 0 || !entryOk lvl e then .fails
      else if bitOf e 4 then .page (entryAddr e + va % 2 ^ levelShift lvl) e
      else walkLevels s old ctx va l (entryAddr e)
    else .missing pa

/-- What an access needs of a page. -/
inductive Need where
  | read | write | exec
  deriving DecidableEq, Repr

/-- The outcome of a translation. -/
inductive Xlate where
  | at (pa : Nat)
  | fault (cause : Nat)
  | missing (pa : Nat)
  deriving DecidableEq, Repr

/-- Translate in a context with a table root (07 R146); a walk that reads an uncorrectable word is an access that does (17 R407). -/
def State.walk (s : State) (old : List Stale) (ctx va : Nat) (need : Need) : Xlate :=
  match walkLevels s old ctx va [1, 2, 3, 4] (s.part ctx).troot.toNat with
  | .missing pa => .missing pa
  | .fails => .fault 0x060
  | .corrupt => .fault 0x142
  | .page pa e =>
    let ok := match need with
      | .read => bitOf e 1
      | .write => bitOf e 2
      | .exec => bitOf e 3
    if !ok then .fault (match need with | .read => 0x061 | .write => 0x062 | .exec => 0x063)
    else if s.hasMemory pa 1 then .at pa
    else .missing pa

/-- Translate for a tile's partition. A tile without a partition runs in context 0, which the Perroed controller maps one
to one (22 R449; after READY log entry 12); outside the device's memory it has no entry. -/
def State.translate (s : State) (old : List Stale) (part : Option Nat) (va : Nat) (need : Need) : Xlate :=
  match part with
  | some id => s.walk old id va need
  | none => if s.hasMemory va 1 then .at va else .fault 0x060

/-! ### Versions, journal and accumulators (07 R141-R143, 08 R174) -/

/-- A byte of space 00 or 11 as a tile reads it: its own pending version, else the byte of memory (07 R141). -/
def Part.versionByte (p : Part) (hbm : Memory) (rank pa : Nat) : Byte :=
  match (assoc p.versions rank).bind fun o => assoc o pa with
  | some b => b
  | none => memByte hbm pa

/-- Bytes of space 00 or 11 as a tile reads them. -/
def Part.versionBytes (p : Part) (hbm : Memory) (rank pa n : Nat) : List Byte :=
  (List.range n).map fun i => p.versionByte hbm rank (pa + i)

/-- The lines of 64 bytes that a partition has written at a station in the superstep, each once (13 Table 13.2). -/
def Part.versionLines (p : Part) (station : Nat) : List Nat :=
  ((p.versions.flatMap fun o => o.2.map fun c => c.1 / 64).filter fun l => homeStation (64 * l) == station).eraseDups

/-- Version lines in use at a station, of every partition. -/
def State.versionsUsed (s : State) (station : Nat) : Nat :=
  s.parts.foldl (fun n p => n + (p.2.versionLines station).length) 0

/-- Journal entries that a partition uses at a station. -/
def Part.journalUsed (p : Part) (station : Nat) : Nat := (p.journal.filter fun e => homeStation e.pa == station).length

/-- Journal entries in use at a station. -/
def State.journalUsed (s : State) (station : Nat) : Nat := s.parts.foldl (fun n p => n + p.2.journalUsed station) 0

/-- Accumulators that a partition uses at a station. -/
def Part.redsUsed (p : Part) (station : Nat) : Nat := (p.reds.filter fun e => homeStation e.pa == station).length

/-- Accumulators in use at a station. -/
def State.redsUsed (s : State) (station : Nat) : Nat := s.parts.foldl (fun n p => n + p.2.redsUsed station) 0

/-- Whether every byte of a range stands in an overlay. -/
def overCovers (o : Overlay) (pa n : Nat) : Bool := (List.range n).all fun i => (assoc o (pa + i)).isSome

/-- Whether a read of a range consumes uncorrectable HBM: a bad word of which some byte comes from memory. -/
def hbmBadRead (bad : List Nat) (o : Overlay) (pa n : Nat) : Bool :=
  bad.any fun w => overlaps (8 * w) 8 pa n &&
    (List.range n).any fun i => (pa + i) / 8 == w && (assoc o (pa + i)).isNone

/-- A party that accesses memory: its device, its tile and its partition. -/
structure Party where
  dev  : Nat
  tile : Nat
  part : Option Nat
  deriving DecidableEq, Repr

/-- The rank of a party's tile (07 R142). -/
def Party.rank (p : Party) : Nat := p.dev * 4096 + p.tile

/-- A tile of this device as a party. -/
def State.party (s : State) (k : Nat) : Party := ⟨s.devId, k, if s.booting then none else s.partOf k⟩

/-- A party's pending versions. -/
def State.overlayOf (s : State) (p : Party) : Overlay :=
  match p.part with
  | some id => (assoc (s.part id).versions p.rank).getD []
  | none => []

/-- Read physical memory as a party, through its own pending versions whatever the space (07 R141, R151; log entry 53). -/
def State.hbmRead (s : State) (p : Party) (pa n : Nat) : Reply :=
  let o := s.overlayOf p
  if hbmBadRead s.hbmBad o pa n then .fault 0x142
  else .data ((List.range n).map fun i => (assoc o (pa + i)).getD (memByte s.hbm (pa + i)))

/-- Write physical memory at once, clearing uncorrectable words that are covered whole (17 R407). -/
def State.hbmPut (s : State) (pa : Nat) (l : List Byte) : State :=
  { s with hbm := memWrite s.hbm pa l, hbmBad := s.hbmBad.filter fun w => !coversWord w pa l.length }

/-- A journal entry is undone (07 R143): its bytes, and the uncorrectable words that its write had covered. -/
def State.undoEntry (s : State) (e : JournalEntry) : State :=
  let s := s.hbmPut e.pa e.old
  { s with hbmBad := s.hbmBad ++ e.bad }

/-- A versioned write at its home station (07 R141): without a free line it answers the capacity cause (13 R279). -/
def State.versionWrite (s : State) (p : Party) (id pa : Nat) (l : List Byte) : State × Reply :=
  let part := s.part id
  let lines := part.versionLines (homeStation pa)
  let fresh := ((List.range l.length).map fun i => (pa + i) / 64).eraseDups.filter fun n => !lines.contains n
  let o := s.overlayOf p
  if partlyBad s.hbmBad pa l.length && hbmBadRead s.hbmBad o (pa / 8 * 8) ((pa + l.length + 7) / 8 * 8 - pa / 8 * 8) then
    (s, .fault 0x142)
  else if s.versionsUsed (homeStation pa) + fresh.length > Config.versionCap then (s, .capacity 0x0E2)
  else
    (s.modPart id fun q => { q with versions := assocPut q.versions p.rank (overWrite o pa l) }, .none)

/-- A write to space 10 at its home station, journaled (07 R143). Bytes of which the party has a pending version take the value there
too, which keeps its accesses to them in program order (07 R151; log entry 53). -/
def State.journalWrite (s : State) (p : Party) (id pa : Nat) (l : List Byte) : State × Reply :=
  if partlyBad s.hbmBad pa l.length then (s, .fault 0x142)
  else if s.journalUsed (homeStation pa) + 1 > Config.journalCap then (s, .capacity 0x0E3)
  else
    let o := s.overlayOf p
    let own := ((List.range l.length).zip l).filter fun c => (assoc o (pa + c.1)).isSome
    let o' := own.foldl (fun o c => assocPut o (pa + c.1) c.2) o
    ((s.modPart id fun q =>
        { q with
          journal := ⟨pa, memBytes s.hbm pa l.length, s.hbmBad.filter fun w => coversWord w pa l.length⟩ :: q.journal
          versions := if own = [] then q.versions else assocPut q.versions p.rank o' }).hbmPut pa l, .none)

/-- A journal entry whose old bytes take a write that no abort undoes. -/
def JournalEntry.patched (j : JournalEntry) (pa : Nat) (l : List Byte) : JournalEntry :=
  { j with old := patchBytes j.old j.pa pa l, bad := j.bad.filter fun w => !coversWord w pa l.length }

/-- A write of physical memory that no abort undoes: of the host (18 R415), of a service tile (24 R459). -/
def State.hbmPatch (s : State) (pa : Nat) (l : List Byte) : State :=
  let s := s.hbmPut pa l
  { s with parts := s.parts.map fun p => (p.1, { p.2 with journal := p.2.journal.map fun j => j.patched pa l }) }

/-- Write physical memory as a party: pending, journaled, or for good where it is of no partition (22 R449, 24 R459). -/
def State.hbmWrite (s : State) (p : Party) (space pa : Nat) (l : List Byte) : State × Reply :=
  match p.part with
  | none => if partlyBad s.hbmBad pa l.length then (s, .fault 0x142) else (s.hbmPatch pa l, .none)
  | some id => if space = 2 then s.journalWrite p id pa l else s.versionWrite p id pa l

/-- Whether a station holds an access of an outsider to lines that a commit or an abort in progress changed (13 R290, 01 R14). -/
def State.heldBack (s : State) (part : Option Nat) (pa n : Nat) : Bool :=
  s.parts.any fun q =>
    part != some q.1 && q.2.bar.changed.any fun l =>
      overlaps (64 * l) 64 pa n && q.2.bar.applied.contains (.station (homeStation pa)) &&
        !q.2.bar.opened.contains (.station (homeStation pa))

/-- Whether a tile holds a read of an outsider back, from the time it has applied its partition's decision until OPEN (01 R14). -/
def State.tileHeld (s : State) (part : Option Nat) (k : Nat) : Bool :=
  match s.partOf k with
  | some id => part != some id && (s.part id).bar.applied.contains (.tile k) && !(s.part id).bar.opened.contains (.tile k)
  | none => false

/-! ### Other tiles' TLM (07 R139) -/

/-- The tenant check of the routers at a tile (14 R309): a party without a partition passes (log entry 12). -/
def State.tenantOk (s : State) (p : Party) (k : Nat) : Bool :=
  match p.part, s.partOf k with
  | some a, some b => (s.part a).ten == (s.part b).ten
  | some _, none => false
  | none, _ => true

/-- A read of another tile's TLM (07 R139): the committed bytes, or those that the reader itself wrote in the superstep (09 R181). -/
def State.peekTile (s : State) (p : Party) (k a n : Nat) : Reply :=
  let t := s.tile k
  let own := (assoc t.deltas p.rank).getD []
  if t.lost then .fault 0x143
  else if !s.tenantOk p k then .fault 0x101
  else if t.committedBad (s.scratchFrom k) a n then .fault 0x141
  else .data ((List.range n).map fun i => (assoc own (a + i)).getD (t.committed (s.scratchFrom k) (a + i)))

/-- Delta-buffer entries of a tile: pairs of granule and source tile (13 Table 13.2). -/
def Tile.deltaCount (t : Tile) : Nat :=
  (t.deltas.map fun d => (d.2.map fun c => c.1 / 64).eraseDups.length).foldl (· + ·) 0

/-- A write to another tile's TLM: a held delta below SCRBASE, performed at once above it (07 R139), and for good by a party of no partition
(24 R459). -/
def State.pokeTile (s : State) (p : Party) (k a : Nat) (l : List Byte) : State × Reply :=
  let t := s.tile k
  let scr := s.scratchFrom k
  if t.lost then (s, .fault 0x143)
  else if !s.tenantOk p k then (s, .fault 0x101)
  else if partlyBad t.bad a l.length then (s, .fault 0x141)
  else if p.part.isNone then (s.setTile k (t.writeNow a l), .none)
  else
    let low := l.take (scr - a)
    let t := t.write scr (a + low.length) (l.drop low.length)
    let o := (assoc t.deltas p.rank).getD []
    let t' := if low = [] then t else { t with deltas := assocPut t.deltas p.rank (overWrite o a low) }
    if t'.deltaCount > Config.deltaCap then (s, .capacity 0x0E1) else (s.setTile k t', .none)

/-! ### Requests -/

/-- TEN of a party (14 R309): its partition's; 0 where it has none. -/
def State.tenOf (s : State) (part : Option Nat) : Nat := (part.map fun id => (s.part id).ten).getD 0

/-- A request of tile `k` that is not yet filled in: it takes the next request number and sequence number (09 R197). -/
def State.blankReq (s : State) (k slot : Nat) (op : ReqOp) : Req :=
  { id := s.nextReq, seq := (s.tile k).seq, sdev := s.devId, tile := k, slot := slot, sv := true,
    part := (s.partOf k).getD 0xFFFF, ten := s.tenOf (s.partOf k), op := op, space := 1, dev := s.devId, ttile := k, loc := 0, size := 0,
    ptr := 0, pa := none, slack := 0, budget := 0, counted := false, xh := false, xhAt := 0, stage := .port, place := .tile k,
    came := .strand 0, moving := false, course := none, stamp := s.gclk, reply := .none, dests := [], blocking := false, base := none, epc := 0, paired := false, posted := false,
    acc := .none, granted := 0, cell := none, performed := false, due := 0, half := [], after := [], accepted := none }

/-- Whether a request's target is its own tile, which it reaches without a packet: its TLM port, its inbox, its cells, its node of the
combining tree. -/
def Req.toOwnTile (r : Req) : Bool :=
  (match r.place with | .tile k => k == r.tile | _ => false) && r.space == 1 && r.ttile == r.tile

/-- Those of some ordered stores that are still in transit. -/
def State.inFlight (s : State) (l : List (Nat × Nat)) : List (Nat × Nat) := l.filter fun p => s.reqs.any fun q => q.id == p.1 && !q.performed

/-- A request enters its tile's outbound port, or goes straight to a target on its own tile. -/
def State.post (s : State) (r : Req) : State :=
  let r := if r.toOwnTile && r.dev == s.devId && r.stage == .port then { r with stage := .target } else r
  let r := { r with budget := r.slack }
  let r := if r.sv then { r with after := s.inFlight (s.strand r.tile r.slot).prior } else r
  { s with reqs := s.reqs ++ [r], nextReq := s.nextReq + 1 }.modTile r.tile fun t => { t with seq := (t.seq + 1) % 65536 }

/-! ### What reads observe (09 R190) -/

/-- The stores in transit among some that were ordered before a write at a scope that contains a reading tile: its own tile's at tile
scope, its die's at die scope. -/
def State.orderedFor (s : State) (k : Nat) (l : List (Nat × Nat)) : List Nat :=
  l.filterMap fun p => (s.reqs.find? fun q => q.id == p.1 && !q.performed && q.sdev == s.devId).bind fun q =>
    if (p.2 == 1 && q.tile == k) || (p.2 == 2 && q.tile / 1024 == k / 1024) then some p.1 else none

/-- A strand observes stores in transit: those whose values its read returned, and those that were ordered before the write that it
returned. -/
def State.observes (s : State) (k n : Nat) (ids : List Nat) (after : List (Nat × Nat)) : State :=
  let l := ids ++ s.orderedFor k after
  if l = [] then s
  else s.modStrand k n fun st => { st with seen := (st.seen.filter fun i => s.reqs.any fun q => q.id == i) ++ l }

/-- What was ordered before the writes that some bytes hold. -/
def State.notesAt (s : State) (p : Point) (loc n : Nat) : List (Nat × Nat) :=
  (s.notes.filter fun m => m.place == p && overlaps m.loc m.size loc n).flatMap Note.after

/-- A write is performed: of its bytes it is known what was ordered before it, as long as something of that is in transit. -/
def State.noteWrite (s : State) (p : Point) (loc n : Nat) (after : List (Nat × Nat)) : State :=
  let live := s.inFlight after
  let old := s.notes.filter fun m => !(m.place == p && decide (loc ≤ m.loc) && decide (m.loc + m.size ≤ loc + n)) && s.inFlight m.after != []
  { s with notes := if live = [] then old else old ++ [⟨p, loc, n, live⟩] }

/-- Whether every earlier access of a strand that precedes an engine command is performed (09 R193): those to the
command's spaces, and those before a FENCE to any space. -/
def State.earlierDone (s : State) (k slot mark fmark : Nat) (spaces : List Nat) : Bool :=
  s.reqs.all fun r =>
    !(decide (r.sdev = s.devId) && decide (r.tile = k) && decide (r.slot = slot) && r.sv && !r.performed &&
      ((decide (r.id < mark) && spaces.contains r.space) || decide (r.id < fmark)))

/-- The completion status word (01 Table 1.2). -/
def statusWord (opid code engine count : Nat) : Word :=
  word (opid % 65536 * 2 ^ 48 + code * 2 ^ 40 + engine * 2 ^ 32 + count % 2 ^ 32)

end Sys2Proof.Machine
end

