-- ==== Sys2Proof/Machine/Routes.lean ====
section
/-! DEFINITION. The fabric: its points, packets and their headers, routes within the device and to other devices, credit, and the order
in which an arbiter grants (14 R305-R322). -/

namespace Sys2Proof.Machine

/-! ### Points (14 R305, R318) -/

/-- The number under which counters, arbiters and windows name a point. -/
def Point.code : Point → Nat
  | .tile k => k
  | .station n => 0x1000 + n
  | .router k => 0x2000 + k
  | .link l die => 0x3000 + 4 * l + die
  | .port l => 0x3100 + l
  | .strand n => 0x4000 + n
  | .outside => 0x5000

/-- Whether a point is a port to other devices. -/
def Point.isPort : Point → Bool
  | .port _ => true
  | _ => false

/-- The point at which the link events that find no place are counted (14 R323). -/
def linkPoint (link : Nat) : Nat := 0x3200 + link

/-- Advance a 64-bit counter of a list by one. -/
def bump (l : List (Nat × Nat)) (key : Nat) : List (Nat × Nat) := assocPut l key (((assoc l key).getD 0 + 1) % 2 ^ 64)

/-- XCNT of a point advances. -/
def State.countAt (s : State) (point : Nat) : State := { s with xcnt := bump s.xcnt point }

/-- The die that holds a span or league port (14 R307). -/
def State.portDie (s : State) (l : Nat) : Nat :=
  let dies := if s.diePresent 2 then 4 else 2
  (if l < 0x30 then l - 0x10 else l - 0x30) % dies

/-- The tile id whose router a point is attached to (log entry 54). -/
def State.routerOf (s : State) : Point → Nat
  | .tile k => if isService k then k - 32 else k
  | .router k => k
  | .station n => 1024 * (n / 16) + 64 * (n % 16) + (if n / 16 % 2 = 0 then 0 else 31)
  | .port l => 1024 * s.portDie l + (if s.portDie l / 2 = 0 then 0 else 960) + l % 32
  | .link l die => if l < 4 then 1024 * die else 0
  | .strand n => n
  | .outside => 0

/-! ### Packets (14 R310-R312) -/

/-- Whether a request is served by a target port or a station. -/
def ReqOp.isMemory : ReqOp → Bool
  | .message _ | .token .. | .count .. | .contribute .. | .panel .. | .cargo .. | .transit .. => false
  | _ => true

/-- Whether a request reads or writes memory where it is served, so that the order of accesses concerns it; the accesses of an engine take
effect in its command (log entry 28). -/
def ReqOp.isAccess : ReqOp → Bool
  | .engine .. | .visit .. => false
  | op => op.isMemory

/-- Whether a packet is one of the tile itself, not of a strand's access: it stands in no order with the accesses of strands (09 R193). -/
def ReqOp.isOwn : ReqOp → Bool
  | .engine .. | .visit .. | .cargo .. | .panel .. | .transit .. => true
  | _ => false

/-- The virtual channel of what a packet carries (14 Table 14.3). -/
def Cargo.vc : Cargo → Nat
  | .barrier => 0
  | .context => 2
  | .steal | .stolen => 4
  | .stones => 5
  | _ => 3

/-- The virtual channel of a request's packet (14 Table 14.3). -/
def Req.vc (r : Req) : Nat :=
  match r.stage, r.op with
  | _, .transit hdr _ => hdr.toNat / 2 ^ 40 % 8
  | .reply, _ => 1
  | _, .message _ => 4
  | _, .contribute .. | _, .panel .. => 3
  | _, .cargo c _ _ _ _ => c.vc
  | _, _ => 2

/-- Payload bytes of a packet (log entry 54). -/
def Req.payload (r : Req) : Nat :=
  match r.stage, r.reply, r.op with
  | _, _, .transit _ l => l.length
  | .reply, .data l, _ => l.length
  | .reply, _, .engine w _ _ _ => if w then 8 else r.size
  | .reply, _, _ => 8
  | _, _, .store l => l.length
  | _, _, .message l => l.length
  | _, _, .contribute _ _ l => l.length
  | _, _, .engine w _ _ _ => if w then r.size else 8
  | _, _, .cargo _ _ _ n _ => 64 * n
  | _, _, .panel _ _ _ _ _ _ data _ _ => data.length
  | _, _, _ => 8

/-- Flits of a packet: one to five (14 R310). -/
def Req.flits (r : Req) : Nat := max 1 (min 5 ((r.payload + 63) / 64))

/-- The C code of a request (03 Table 3.3); that of an engine for loads and stores (14 Table 14.2). -/
def ReqOp.code (op : ReqOp) (size : Nat) : Nat :=
  match op with
  | .sch _ => if size = 4 then 0x42 else 0x43
  | .rlsv => 0x44
  | .amo f _ =>
    match f with
    | .add => if size = 4 then 0x4E else 0x45
    | .and => 0x46
    | .or => 0x47
    | .xor => 0x48
    | .minS => 0x49
    | .maxS => 0x4A
    | .minZ => 0x4B
    | .maxZ => 0x4C
    | .swap => if size = 4 then 0x4F else 0x4D
    | .fadd => 0x52
  | .cas .. => if size = 4 then 0x50 else 0x51
  | .red f _ =>
    match f with
    | .addS64 => 0x53
    | .addF32 => 0x54
    | .addBf16 => 0x55
    | .addBf16Sr => 0x56
    | .minS64 => 0x57
    | .maxS64 => 0x58
    | .maxF32 => 0x59
    | .or64 => 0x5A
  | .lrw => if size = 4 then 0x40 else 0x41
  | .waitv c _ => (match c with | .eq => if size = 4 then 0x3F else 0x3C | .ne => 0x3D | .geS => 0x3E)
  | .load _ => 0x26
  | .store _ => 0x2A
  | .pref => 0x2F
  | .mapt .. => 0xD7
  | .message _ => 0x80
  | .contribute _ _ l => if l.length = 64 then 0x86 else 0x85
  | .token .. => 0x8A
  | .count .. => 0x8B
  | .panel .. => 0xF9
  | .engine _ c _ _ | .visit c _ _ | .cargo _ c _ _ _ => c
  | .transit hdr _ => hdr.toNat / 2 ^ 24 % 256

/-- The C code of a request's instruction, as its record holds it. -/
def Req.code (r : Req) : Nat := if bitOf r.acc.facc 63 then fieldOf r.acc.facc 55 48 else r.op.code r.size

/-- Whether a request has been performed, answered or given up. -/
def Req.over (r : Req) : Bool :=
  r.performed ||
    (match r.stage with
    | .reply | .lost | .outside | .back => true
    | _ => false)

/-- OP (14 Table 14.2). -/
def Req.opField (r : Req) : Nat :=
  match r.stage, r.reply with
  | .reply, .fault _ => 0xF1
  | .reply, .discard => 0xF2
  | .reply, .reject => 0xF7
  | .reply, .pathLost => 0xF6
  | .reply, _ => 0xF0
  | .forward, _ => 0xF8
  | _, _ => r.code

/-- DTGT of a packet that is bound for a point (14 Table 14.1). -/
def Point.dtgt : Point → Nat
  | .station _ => 2
  | .router _ | .link .. | .port _ => 5
  | _ => 0

/-- DTGT (14 Table 14.1). -/
def Req.dtgt (r : Req) : Nat :=
  match r.op with
  | .message _ => 1
  | .contribute .. => 3
  | .token .. | .count .. => 0
  | .panel .. | .cargo .panelPart .. => 7
  | .visit _ _ p => p.dtgt
  | .cargo c _ _ _ _ =>
    match c with
    | .barrier => 4
    | .steal | .stolen => 6
    | .stones => 5
    | .context => 0
    | _ => 3
  | _ => if r.space = 1 then 0 else 2

/-- A packet header from its fields, the highest first (14 Table 14.1). -/
def packHeader (seq ddev dtile sdev stile ten slk : Nat) (xh : Bool) (vc len sslot : Nat) (sv : Bool) (op dtgt part : Nat) : BitVec 128 :=
  BitVec.ofNat 128
    (seq % 2 ^ 16 * 2 ^ 112 + ddev % 2 ^ 14 * 2 ^ 98 + dtile % 2 ^ 12 * 2 ^ 86 + sdev % 2 ^ 14 * 2 ^ 72 + stile % 2 ^ 12 * 2 ^ 60 +
      ten % 16 * 2 ^ 56 + min slk 4095 * 2 ^ 44 + (if xh then 2 ^ 43 else 0) + vc % 8 * 2 ^ 40 + len % 8 * 2 ^ 37 + sslot % 16 * 2 ^ 33 +
      (if sv then 2 ^ 32 else 0) + op % 256 * 2 ^ 24 + dtgt % 256 * 2 ^ 16 + part % 2 ^ 16)

/-- A field of a header. -/
def headerField (h : BitVec 128) (hi lo : Nat) : Nat := h.toNat / 2 ^ lo % 2 ^ (hi - lo + 1)

/-- A header as it leaves with a packet's slack and its XH (14 R314). -/
def headerWith (h : BitVec 128) (slk : Nat) (xh : Bool) : BitVec 128 :=
  BitVec.ofNat 128 (headerField h 127 56 * 2 ^ 56 + min slk 4095 * 2 ^ 44 + (if xh then 2 ^ 43 else 0) + headerField h 42 0)

/-- The translating station of a request (07 R145), and where its number stands in DTILE. DESIGN CHOICE: that of a space-11 request is chosen
by OFF bits 19:16 on the die of the issuing tile, since the export base of another device is not known there (log entry 70). -/
def Req.station (r : Req) : Nat :=
  match r.op with
  | .visit _ _ (.station n) => n
  | _ => xlateStation r.tile r.loc

/-- The header of a request's packet: an answer goes to the source (14 R310). -/
def Req.header (own : Nat) (r : Req) : BitVec 128 :=
  match r.op with
  | .transit hdr _ => headerWith hdr r.slack r.xh
  | _ =>
    let back := r.stage == .reply
    let target := if r.dtgt = 2 then r.station else r.ttile
    packHeader r.seq (if back then r.sdev else r.dev) (if back then r.tile else target) (if back then own else r.sdev)
      (if back then target else r.tile) r.ten r.slack r.xh r.vc (r.flits - 1) r.slot r.sv r.opField (if back then 0 else r.dtgt) r.part

/-! ### Links (14 R319-R322) -/

/-- STATE of a link (14 Table 14.5). -/
def Link.state (l : Link) : Nat := fieldOf l.stat 3 0

/-- A link's registers. -/
def State.link! (s : State) (n : Nat) : Link := (assoc s.links n).getD Link.reset

/-- Whether a link is a span port, which has lanes and no rails. -/
def isSpan (n : Nat) : Bool := decide (0x10 ≤ n) && decide (n < 0x30)

/-- Rails of a link, or lanes of a span port. -/
def railCount (n : Nat) : Nat := if isSpan n then 4 else 5

/-- Whether a rail is up. -/
def Link.railUp (l : Link) (r : Nat) : Bool := bitOf l.stat (32 + r)

/-- Whether module `m` of rail `r` runs at 32 lanes. -/
def Link.half (l : Link) (r m : Nat) : Bool := bitOf l.stat (12 + 2 * r + m)

/-- The usable buffer B (14 R322). -/
def Link.buffer (n : Nat) (l : Link) : Nat :=
  let rails := List.range (railCount n)
  if isSpan n then 96 - 24 * (rails.filter fun r => !l.railUp r).length - l.retired
  else 96 - 16 * (rails.filter fun r => !l.railUp r || l.half r 0 || l.half r 1).length - l.retired

/-- The row of Table 14.9 for a buffer. -/
def mergeRow (b : Nat) : Nat := if 60 ≤ b then 0 else if 50 ≤ b then 1 else if 40 ≤ b then 2 else if 30 ≤ b then 3 else if 20 ≤ b then 4 else 5

/-- The VCs whose reserves a row keeps (14 Table 14.9). -/
def keptVcs (row : Nat) : List Nat :=
  match row with
  | 0 => [0, 1, 2, 3, 4, 5]
  | 1 => [0, 1, 2, 3, 5]
  | 2 => [0, 1, 2, 3]
  | 3 => [0, 1, 2]
  | 4 => [0, 1]
  | _ => []

/-- The VC whose queue a packet uses at a port: its own, or VC 2, which absorbs those withdrawn (14 Table 14.9). -/
def queueVc (row vc : Nat) : Nat := if (keptVcs row).contains vc then vc else 2

/-- Whether a link takes new packets (14 R321). -/
def State.linkUp (s : State) (n : Nat) : Bool := (s.link! n).state == 2 || (s.link! n).state == 3

/-- Whether a link carries new packets of a VC: in row 4 only VC 0 and 1 (14 R321, R322). -/
def State.carries (s : State) (n vc : Nat) : Bool :=
  s.linkUp n && (decide (mergeRow ((s.link! n).buffer n) < 4) || (decide (mergeRow ((s.link! n).buffer n) = 4) && decide (vc ≤ 1)))

/-- The die link between two rows of dies at a column, or between two columns at a row (14 R320). -/
def acrossRow (row : Nat) : Nat := row
/-- The vertical die link of a column. -/
def acrossColumn (col : Nat) : Nat := 2 + col

/-- The lower and the higher die that a die link joins (14 R320). -/
def linkEnds (n : Nat) : List Nat := if n = 0 then [0, 1] else if n = 1 then [2, 3] else if n = 2 then [0, 2] else [1, 3]

/-- The die whose service tile takes a link's events (14 R307, R320, 24 R459): the lower-numbered die that a die link joins, or
the die that holds the port. -/
def State.linkDie (s : State) (n : Nat) : Nat := if n < 4 then (linkEnds n).headD 0 else s.portDie n

/-- The dies from whose service tiles a link's registers are reached (14 R320). -/
def State.linkDies (s : State) (n : Nat) : List Nat := if n < 4 then linkEnds n else [s.portDie n]

/-- The link whose receive buffer a point is: that of a die link, or of a port to other devices. -/
def Point.receives : Point → Option Nat
  | .link l _ => some l
  | .port l => some l
  | _ => none

/-- The VC whose queue a packet uses at a point. -/
def State.vcAt (s : State) (p : Point) (r : Req) : Nat :=
  match p.receives with
  | some l => queueVc (mergeRow ((s.link! l).buffer l)) r.vc
  | none => r.vc

/-- Flits of a VC's queue in the receive buffer of a link: at a port those of packets that came from outside. -/
def State.linkUse (s : State) (p : Point) (vc : Nat) : Nat :=
  ((s.reqs.filter fun q => q.place == p && s.vcAt q.place q == vc && (q.came == .outside || !p.isPort)).map Req.flits).sum

/-- Whether a receive buffer has credit for a packet: in its VC's reserve of 10 flits or in the pool that all VCs share (14 R322). -/
def State.bufferCredit (s : State) (l : Nat) (p : Point) (r : Req) : Bool :=
  let b := (s.link! l).buffer l
  let row := mergeRow b
  let mine := s.vcAt p r
  let beyond (vc : Nat) : Nat := s.linkUse p vc + (if vc = mine then r.flits else 0) - 10
  (keptVcs row).contains mine && (decide (beyond mine = 0) || decide (((keptVcs row).map beyond).sum ≤ b - 10 * (keptVcs row).length))

/-- Whether a packet has credit at its next point: that of the receive buffer of a die link; elsewhere buffers suffice, and what leaves
by a port fills the buffer of another device (log entry 54). -/
def State.credit (s : State) (p : Point) (r : Req) : Bool :=
  match p with
  | .link l _ => s.bufferCredit l p r
  | _ => true

/-! ### Routes within the device (14 R307) -/

/-- The course of a packet of a VC from one die to another: x first, y first where a die link on that route is out, through the other
two dies where both orders are blocked, or none. -/
def State.course (s : State) (vc d g : Nat) : Option Course :=
  let h (row : Nat) : Bool := s.carries (acrossRow row) vc
  let v (col : Nat) : Bool := s.carries (acrossColumn col) vc
  let dc := d % 2
  let dr := d / 2
  let gc := g % 2
  let gr := g / 2
  if dc = gc ∧ dr = gr then some .xFirst
  else if dc ≠ gc ∧ dr ≠ gr then (if h dr && v gc then some .xFirst else if v dc && h gr then some .yFirst else none)
  else if dc ≠ gc then (if h dr then some .xFirst else if v dc && h (1 - dr) && v gc then some .aroundY else none)
  else if v dc then some .xFirst
  else if h dr && v (1 - dc) && h gr then some .aroundX
  else none

/-- One place nearer to a goal on an axis. -/
def nearer (a b : Nat) : Nat := if a < b then a + 1 else if b < a then a - 1 else a

/-- The next place of the grid on a course: where neither axis is left, the same place. -/
def courseStep (c : Course) (x y gx gy : Nat) : Nat × Nat :=
  match c with
  | .xFirst => if x ≠ gx then (nearer x gx, y) else (x, nearer y gy)
  | .yFirst => if y ≠ gy then (x, nearer y gy) else (nearer x gx, y)
  | .aroundX => (if x < 32 then x + 1 else x - 1, y)
  | .aroundY => (x, if y < 31 then y + 1 else y - 1)

/-- The die link between two dies that lie side by side. -/
def linkBetween (a b : Nat) : Nat := if a / 2 = b / 2 then acrossRow (a / 2) else acrossColumn (a % 2)

/-- The router on the far side of a die link for a packet that entered it at a router. -/
def farSide (k : Nat) (l : Nat) : Nat :=
  if l < 2 then gridId (if gridX k = 31 then 32 else 31) (gridY k) else gridId (gridX k) (if gridY k = 30 then 31 else 30)

/-- The course of a packet on a die: one that goes y first keeps to it over the die links as long as they carry it. -/
def State.courseFrom (s : State) (held : Option Course) (vc d g : Nat) : Option Course :=
  let open' := (d / 2 = g / 2 || s.carries (acrossColumn (d % 2)) vc) && (d % 2 = g % 2 || s.carries (acrossRow (g / 2)) vc)
  if held = some .yFirst ∧ open' then some .yFirst else s.course vc d g

/-- The next point of a packet of a VC at a router on its way to another router, and its course. -/
def State.routerHop (s : State) (held : Option Course) (vc k g : Nat) : Option (Point × Course) :=
  (s.courseFrom held vc (k / 1024) (g / 1024)).map fun c =>
    let p := courseStep c (gridX k) (gridY k) (gridX g) (gridY g)
    let j := gridId p.1 p.2
    (if j / 1024 = k / 1024 then .router j else .link (linkBetween (k / 1024) (j / 1024)) (j / 1024), c)

/-! ### Routes to other devices (01 R16, 14 R308) -/

/-- The span port of this device that leads to a member of its group. -/
def State.spanPort (s : State) (member : Nat) : Nat := 0x10 + (member + 32 - s.devId % 32 - 1) % 32

/-- The port for a span hop to a member: its own, or that of the lowest member through which two hops lead (log entry 55: what other
devices' links do is not known here). -/
def State.spanHop (s : State) (vc member : Nat) : Option Nat :=
  if s.carries (s.spanPort member) vc then some (s.spanPort member)
  else ((List.range 32).find? fun c => c != member && c != s.devId % 32 && s.carries (s.spanPort c) vc).map s.spanPort

/-- The group that league port `i` of group `g` serves. -/
def State.served (s : State) (g i : Nat) : Nat := (g + 1 + i % (s.ngroups - 1)) % s.ngroups

/-- The port by which a packet for a device of another group leaves: this device's own first working port that serves the group, else a
span hop to the member that holds the lowest-indexed one. -/
def State.leaguePort (s : State) (vc h : Nat) : Option Nat :=
  let g := s.devId / 32
  let m := s.devId % 32
  let l := (List.range 512).filter fun i => s.served g i == h
  match l.find? fun i => i / 16 == m && s.carries (0x30 + i % 16) vc with
  | some i => some (0x30 + i % 16)
  | none => (l.find? fun i => i / 16 != m).bind fun i => s.spanHop vc (i / 16)

/-- The port by which a packet for another device leaves, with the alternates of R308. -/
def State.exitPort (s : State) (vc dev : Nat) : Option Nat :=
  let g := s.devId / 32
  let h := dev / 32
  if h = g then s.spanHop vc (dev % 32)
  else if s.ngroups < 2 ∨ s.ngroups ≤ h ∨ !bitOf s.caps 7 then none
  else match s.leaguePort vc h with
    | some l => some l
    | none => (List.range s.ngroups).findSome? fun c => if c = g ∨ c = h then none else s.leaguePort vc c

/-! ### Where a request goes next -/

/-- The translating station of a request on this device: one of another device names it in its header. -/
def State.xlateOf (s : State) (r : Req) : Nat := if r.sdev = s.devId then r.station else r.ttile % 64

/-- Where a packet of another device ends that is no request (log entry 52): a barrier packet and one of the combining tree at the
partition's device root, one of the management plane at the Perroed controller, beside the first router, any other at its tile. -/
def State.letterGoal (s : State) (hdr : BitVec 128) (tile : Nat) : Point :=
  match headerField hdr 31 24 with
  | 0xF3 | 0x85 | 0x86 => .router (s.part (headerField hdr 15 0)).corner
  | 0xFA => .router 0
  | _ => .tile tile

/-- The point to which a request is on its way, or none where no port leads to its device. -/
def State.goal (s : State) (r : Req) : Option Point :=
  match r.stage, r.op with
  | .reply, _ => if r.sdev = s.devId then some (.tile r.tile) else (s.exitPort 1 r.sdev).map .port
  | .forward, _ => some (match r.pa with | some pa => .station (homeStation pa) | none => .station (s.xlateOf r))
  | _, op =>
    if r.dev ≠ s.devId then (s.exitPort r.vc r.dev).map .port
    else match op with
      | .visit _ _ p | .cargo _ _ _ _ p => some p
      | .transit hdr _ => some (s.letterGoal hdr r.ttile)
      | op => if r.space = 1 ∨ !op.isMemory then some (.tile r.ttile) else some (.station (s.xlateOf r))

/-- The next point of a request that stands at a point, and its course there (14 R307, R308); none where no path remains. -/
def State.nextHop (s : State) (r : Req) : Option (Point × Option Course) :=
  match s.goal r with
  | none => none
  | some g =>
    match r.place with
    | .router k => if k = s.routerOf g then some (g, none) else (s.routerHop r.course r.vc k (s.routerOf g)).map fun p => (p.1, some p.2)
    | .link l _ => (match r.came with
        | .router k => some (.router (farSide k l), r.course)
        | _ => none)
    | .port l => if g = .port l then some (.outside, none) else some (.router (s.routerOf (.port l)), none)
    | p => (s.course r.vc (s.routerOf p / 1024) (s.routerOf g / 1024)).map fun _ => (.router (s.routerOf p), none)

/-- Whether a path leads from one point to another for a VC. -/
def State.pathTo (s : State) (vc : Nat) (a b : Point) : Bool := (s.course vc (s.routerOf a / 1024) (s.routerOf b / 1024)).isSome

/-! ### Arbitration (14 R315) -/

/-- The current slack of a packet: its SLK less the grains that it has waited in its queue. -/
def State.current (s : State) (r : Req) : Nat := r.slack - (s.gclk - r.stamp)

/-- Whether a packet is exhausted by now; one of VC 0 never is. -/
def State.isSpent (s : State) (r : Req) : Bool := r.vc != 0 && (r.xh || s.current r == 0)

/-- The grain in which an exhausted packet became so. -/
def Req.spentAt (r : Req) : Nat := if r.xh then r.xhAt else r.stamp + r.slack

/-- The candidate of one input among the heads of its VC queues. -/
def State.candidate (s : State) (l : List Req) : Option Req :=
  match l.find? fun r => r.vc == 0 with
  | some r => some r
  | none =>
    let spent := l.filter s.isSpent
    if spent = [] then leastBy (fun r => 8 * s.current r + r.vc) l else leastBy (fun r => 8 * r.spentAt + r.vc) spent

/-- The first of some packets by their inputs, after the input that was granted last. DESIGN CHOICE: the cyclic order of the inputs is that
of their points' numbers, and where none was granted yet it begins with the lowest (log entry 73). -/
def roundRobin (last : Option Nat) (l : List Req) : Option Req :=
  leastBy (fun r => match last with
    | some n => (r.came.code + 0x8000 - (n + 1)) % 0x8000
    | none => r.came.code) l

/-- The packet that an arbiter grants among the heads of its inputs' queues. -/
def State.winner (s : State) (key : Nat) (heads : List Req) : Option Req :=
  let last := assoc s.lastIn key
  let cands := ((heads.map fun r => r.came).eraseDups).filterMap fun c => s.candidate (heads.filter fun r => r.came == c)
  let first := cands.filter fun r => r.vc == 0
  let spent := cands.filter s.isSpent
  if first ≠ [] then roundRobin last first
  else if spent ≠ [] then roundRobin last spent
  else match leastBy s.current cands with
    | none => none
    | some m =>
      let least := cands.filter fun r => s.current r == s.current m
      match leastBy Req.vc least with
      | none => none
      | some v => roundRobin last (least.filter fun r => r.vc == v.vc)

/-- The heads of the VC queues of each input among packets that stand at a point in the order of their arrival. -/
def State.heads (s : State) (l : List Req) : List Req :=
  l.filter fun r => (l.find? fun q => q.came == r.came && s.vcAt q.place q == s.vcAt r.place r).map (·.id) == some r.id

/-- Whether two requests touch a common byte of memory: by their physical addresses where both are translated. -/
def Req.meets (own expbase : Nat) (r q : Req) : Bool :=
  match r.pa, q.pa with
  | some a, some b => r.op.isAccess && q.op.isAccess && overlaps a (max r.size 1) b (max q.size 1)
  | _, _ =>
  let space (r : Req) : Nat := if r.space = 3 ∧ r.dev = own then 0 else r.space % 4
  let loc (r : Req) : Nat := if r.space = 3 ∧ r.dev = own then expbase + r.loc else r.loc
  r.op.isAccess && q.op.isAccess && r.dev == q.dev &&
    (space r == space q || (space r % 2 == 0 && space q % 2 == 0)) && (space r != 1 || r.ttile == q.ttile) &&
    overlaps (loc r) (max r.size 1) (loc q) (max q.size 1)

/-- `Req.meets` with the export base of the requests' partition (07 R144). -/
def State.meets (s : State) (r q : Req) : Bool := r.part == q.part && r.meets s.devId (s.part r.part).expbase.toNat q

/-- The packets that wait at a point for an output, in the order of their arrival. -/
def State.outQueue (s : State) (p : Point) : List Req :=
  s.reqs.filter fun r => r.place == p && !r.moving &&
    (match r.stage with
    | .port | .wire | .forward | .reply => true
    | _ => false)

/-- Whether a packet rides the steal network, a mesh of its own (14 R305). -/
def Req.onSteal (r : Req) : Bool :=
  match r.op with
  | .cargo .steal .. | .cargo .stolen .. => true
  | _ => false

/-- The number of an output in the arbiters' list. -/
def outputKey (p q : Point) : Nat := p.code * 0x8000 + q.code

/-- The number of the output that a packet takes from a point to another: the steal network has outputs of its own. -/
def Req.output (r : Req) (p q : Point) : Nat := outputKey p q + (if r.onSteal then 2 ^ 32 else 0)

/-- Whether an earlier arrival at the same point is for common bytes: requests for one location are passed on in the order of their
arrival (09 R185). -/
def State.passedBy (s : State) (l : List Req) (r : Req) : Bool :=
  r.vc != 1 && (l.takeWhile fun q => q.id != r.id).any fun q => q.vc != 1 && s.meets r q

/-- Fabric cycles for which a packet occupies an output: one for each flit; on the steal network eight (14 R305, R316). -/
def Req.occupies (r : Req) : Nat := if r.onSteal then 8 * r.flits else r.flits

/-- Whether an output is free in the present grain of ten fabric cycles. -/
def State.isFree (s : State) (key : Nat) : Bool := decide ((assoc s.outFree key).getD 0 ≤ 10 * s.gclk + 9)

/-- A grant occupies an output. -/
def State.occupy (s : State) (key : Nat) (r : Req) : State :=
  { s with outFree := assocPut s.outFree key (max ((assoc s.outFree key).getD 0) (10 * s.gclk) + r.occupies) }

/-! ### Tenants (14 R309) -/

/-- The membership bitmap of a point (14 R309): bit t stands for a partition of tenant t that includes it. A router is in the rectangle of
the partition that holds its tile; stations and ports serve every partition of the device. -/
def State.bitmap (s : State) (p : Point) : BitVec 16 :=
  let tens := (s.parts.filter fun q => q.2.valid && (match p with | .router k | .tile k => q.2.holds k | _ => true)).map fun q => q.2.ten
  BitVec.ofNat 16 (maskOf tens)

/-- Whether a packet arrives at a point by a service route (14 R309, R20; log entries 12, 56): what VC 0, 1, 3 and 5 carry, what came over a
league hop, the detours through the other two dies, what the boot and tiles of no partition send, and between the tiles and the
stations of a die. -/
def Req.byService (s : State) (r : Req) : Bool :=
  r.vc == 0 || r.vc == 1 || r.vc == 3 || r.vc == 5 || r.part == 0xFFFF || s.booting ||
    (match r.came with | .port l => decide (0x30 ≤ l) | _ => false) || r.course == some .aroundX || r.course == some .aroundY ||
    (r.op.isMemory && r.space != 1) || (match r.op with | .transit .. => true | _ => false)

/-- Whether a packet passes a point that it arrives at. -/
def State.admits (s : State) (r : Req) (p : Point) : Bool :=
  match p with
  | .router _ => r.byService s || r.dev != s.devId || r.sdev != s.devId && some p != (s.goal r).map (fun g => .router (s.routerOf g)) ||
      (s.bitmap p).getLsbD r.ten
  | .station _ | .port _ => r.part == 0xFFFF || s.booting || r.vc == 1 || r.vc == 0 || r.vc == 5 || (s.bitmap p).getLsbD r.ten
  | _ => true

end Sys2Proof.Machine
end

