-- ==== Sys2Proof/Machine/Requests.lean ====
section
/-! DEFINITION. Accesses as strands issue them and as they complete: loads, stores, atomics, replies, deferred faults
(07 R147-R158, 08 R159-R177, 09 R202). -/

namespace Sys2Proof.Machine

/-! ### Values (07 Tables 7.4, 7.5) -/

/-- FP32 of one element of a narrower floating-point format; any NaN gives the canonical one (07 Table 7.5). -/
def toFp32 (f : Format) (v : Nat) : Nat := if f = .fp32 then v else roundFp32 (f.decode v)

/-- The register values of a load's bytes. -/
def loadValues (k : LoadKind) (l : List Byte) : List Word :=
  match k with
  | .zero => [word (ofBytes l)]
  | .sign => [signedOf l.length (ofBytes l)]
  | .pair => [word (ofBytes (l.take 8)), word (ofBytes (l.drop 8))]
  | .elem f =>
    match f.kind with
    | .signed => [signedOf l.length (ofBytes l)]
    | .float => [word (toFp32 f (ofBytes l))]
    | _ => [word (ofBytes l)]

/-- The element that STF stores (07 Table 7.5). -/
def storeElem (f : Format) (v : Word) : List Byte :=
  let n := f.bits / 8
  match f.kind with
  | .float => if f = .fp32 then toBytes n v.toNat else toBytes n (roundToFormat (Format.fp32.decode (fieldOf v 31 0)) f .rn false 0)
  | .signed | .unsigned => toBytes n (encodeInt (saturate v.toInt f) f)
  | _ => toBytes n v.toNat

/-- Whether LDF and STF accept a pointer's format (07 R156). -/
def elemOk (w : Word) : Bool :=
  ptrBlk w == 0 && (match ptrFmt w with
    | .e3m2 | .e2m3 | .e2m1 | .reserved => false
    | _ => true)

/-! ### Counts (07 R149, 09 R197) -/

/-- Whether a request counts toward the limits of R149. -/
def Req.counts (s : State) (k : Nat) (r : Req) : Bool :=
  decide (r.sdev = s.devId) && decide (r.tile = k) && r.stage != .lost && r.op != .pref && !r.op.isOwn

/-- Outstanding remote requests of a tile. -/
def State.outstanding (s : State) (k : Nat) : Nat := (s.reqs.filter (Req.counts s k)).length

/-- Outstanding remote requests of a strand. -/
def State.strandOutstanding (s : State) (k n : Nat) : Nat :=
  (s.reqs.filter fun r => Req.counts s k r && r.sv && decide (r.slot = n)).length

/-- The number of a target (09 R197): a tile's port, or a translating station. -/
def tileTarget (dev k : Nat) : Nat := 4096 * dev + k
/-- The number of a station as a target. -/
def stationTarget (dev n : Nat) : Nat := 2 ^ 32 + 64 * dev + n

/-- The target of a request (09 R197). -/
def State.targetOf (s : State) (r : Req) : Nat := if r.space = 1 then tileTarget r.dev r.ttile else stationTarget r.dev (s.xlateOf r)

/-- Whether a request of a tile is unacknowledged (09 R197): one of a strand or of an engine. -/
def Req.unanswered (s : State) (k : Nat) (r : Req) : Bool :=
  Req.counts s k r || (decide (r.sdev = s.devId) && decide (r.tile = k) && r.stage != .lost && r.stage != .back &&
    (match r.op with | .engine .. | .visit .. => true | _ => false))

/-- Unacknowledged requests of a tile to a target (09 R197). -/
def State.toTarget (s : State) (k target : Nat) : Nat := (s.reqs.filter fun q => Req.unanswered s k q && s.targetOf q == target).length

/-- Whether the issuing strand may create a request (07 R149, 09 R197). -/
def State.roomFor (s : State) (r : Req) : Bool :=
  decide (s.outstanding r.tile < Config.tileReqCap) && decide (s.strandOutstanding r.tile r.slot < Config.strandReqCap) &&
    decide (s.toTarget r.tile (s.targetOf r) < 1024)

/-! ### Issue of loads and stores (07 R147, R148, R151, R158) -/

/-- The slack of a class (02 R38). -/
def State.slackOf (s : State) (c : SlackReg) : Nat := (vget s.me.k c.toNat 0xFFF).toNat

/-- The displacement of a memory operand in bytes (07 R153). -/
def State.dispOf (s : State) (m : MemOp) (size : Nat) : Int :=
  match m.disp with
  | .units o => o.toNat * size
  | .bytes b => b.toInt
  | .index x => (s.rx x).toInt

/-- A strand marks a deferred fault (07 R148). -/
def State.defer (s : State) (k n : Nat) (f : DeferredFault) : State :=
  s.modStrand k n fun st => { st with faults := st.faults ++ [f] }

/-- A load or store as its bundle gives it. -/
structure Access where
  code  : Nat               -- C opcode, for the trap frame (17 Table 17.4)
  reg   : Reg               -- its register field
  size  : Nat
  fmtOk : Bool
  mem   : MemOp
  pi    : Bool              -- a .pi form (07 R158)
  deriving DecidableEq, Repr

/-- The record of a deferred access in a trap frame (17 Table 17.4). -/
def accessRecord (code reg size : Nat) (e : Word) (data : List Byte) : DeferredAccess :=
  ⟨word (2 ^ 63 + code * 2 ^ 48 + reg * 2 ^ 40 + size), e, word (ofBytes (data.take 8)), word (ofBytes (data.drop 8))⟩

/-- The record of a load or store: the data are those that the store would write. -/
def Access.frame (a : Access) (e : Word) (data : List Byte) : DeferredAccess := accessRecord a.code a.reg.toNat a.size e data

/-- The request of an access to memory that is not this tile's TLM. -/
def State.accessReq (s : State) (a : Access) (op : ReqOp) (e : Word) (dests : List RegName) (n : Int) : Req :=
  let k := s.cur.tile
  let base := s.rx a.mem.base
  { s.blankReq k s.cur.slot op with
    space := ptrSpace e, dev := if ptrSpace e = 3 then ptrDev e else s.devId, ttile := targetTile k e, loc := ptrLoc e,
    size := a.size, ptr := e, slack := s.slackOf a.mem.sc, dests := dests, blocking := !a.mem.nb,
    base := if a.pi && !a.mem.nb then some (a.mem.base, ptrAdd base n) else none,
    epc := s.cur.pc, paired := s.cur.paired }

/-- The base register of a .pi form advances at issue when the access can no longer fault or is non-blocking. DESIGN CHOICE: a
non-blocking one that faults later keeps it (log entry 66). -/
def State.advanceBase (s : State) (a : Access) (n : Int) : State :=
  if a.pi then s.putX 1 a.mem.base (ptrAdd (s.rx a.mem.base) n) else s

/-- Whether an access of the strand to bytes of its own tile's TLM must wait for an earlier atomic of the strand there, which is still to
be performed (07 R151, 09 R183). -/
def State.ownOrder (s : State) (loc n : Nat) : Bool :=
  s.reqs.any fun q =>
    q.sdev == s.devId && q.tile == s.cur.tile && q.slot == s.cur.slot && q.sv && q.space == 1 && q.ttile == s.cur.tile && q.op.isMemory &&
      !q.over && overlaps q.loc q.size loc n

/-- A load (07 R147, R148): its local checks, then this tile's TLM or a request. The value of an own-TLM load is bound
here and arrives later (R151). -/
def State.load (s : State) (a : Access) (kind : LoadKind) (dests : List RegName) : State :=
  let k := s.cur.tile
  let n := s.dispOf a.mem a.size
  let base := s.rx a.mem.base
  let e := if a.pi then base else ptrAdd base n
  match s.accessCause k s.priv base (if a.pi then 0 else n) n a.size false a.fmtOk with
  | some (c, v) => s.trapAfter c v
  | none =>
    if ownTlm k e then
      let t := s.tile k
      if s.ownOrder (ptrLoc e) a.size then s.hold else
      let s := (s.touch k s.cur.slot (ptrLoc e) a.size).observes k s.cur.slot [] (s.notesAt (.tile k) (ptrLoc e) a.size)
      if badRange t.bad (ptrLoc e) a.size then
        let s := s.castAbort k 0x141
        if a.mem.nb then (s.defer k s.cur.slot ⟨dests, false, 0x141, e, a.frame e []⟩).advanceBase a n
        else s.trapAfter 0x141 e
      else
        let vals := loadValues kind (t.bytes (ptrLoc e) a.size)
        let bank := ptrLoc e / 0x4000
        let due := if t.retained.getLsbD bank then max ((assoc (s.tile k).touched bank).getD s.cyc + 68) (s.cyc + 4) else s.cyc + 4
        let s := s.advanceBase a n
        let s := s.modMe fun st => dests.foldl Strand.mark st
        { s.modEng k fun g =>
            { g with ownLoads := g.ownLoads ++ [⟨s.nextReq, s.cur.slot, dests.zip vals, bank, due⟩] } with
          nextReq := s.nextReq + 1 }
    else
      let r := { s.accessReq a (.load kind) e dests n with acc := a.frame e [] }
      if !s.roomFor r then s.hold
      else
        let s := s.post r
        let s := s.modMe fun st => dests.foldl Strand.mark st
        if a.mem.nb then s.advanceBase a n else s.sleepOn (.request r.id)

/-- A store (07 R147, R148). -/
def State.store (s : State) (a : Access) (data : List Byte) : State :=
  let k := s.cur.tile
  let n := s.dispOf a.mem a.size
  let base := s.rx a.mem.base
  let e := if a.pi then base else ptrAdd base n
  match s.accessCause k s.priv base (if a.pi then 0 else n) n a.size true a.fmtOk with
  | some (c, v) => s.trapAfter c v
  | none =>
    if ownTlm k e then
      if s.ownOrder (ptrLoc e) a.size then s.hold else
      let s := s.touch k s.cur.slot (ptrLoc e) a.size
      if partlyBad (s.tile k).bad (ptrLoc e) a.size then
        let s := s.castAbort k 0x141
        if a.mem.nb then (s.defer k s.cur.slot ⟨[], true, 0x141, e, a.frame e data⟩).advanceBase a n
        else s.trapAfter 0x141 e
      else ((s.tlmWrite k (ptrLoc e) data).noteWrite (.tile k) (ptrLoc e) a.size (s.inFlight s.me.prior)).advanceBase a n
    else
      let r := { s.accessReq a (.store data) e [] n with posted := a.mem.nb, acc := a.frame e data }
      if !s.roomFor r then s.hold
      else
        let s := s.post r
        if a.mem.nb then s.advanceBase a n else s.sleepOn (.request r.id)

/-! ### Issue of atomics, reductions, waits and reservations (08 R160-R164, 09 R202) -/

/-- The number of a register in its field. -/
def RegName.number : RegName → Nat
  | .x r => r.toNat
  | .p r => r.toNat

/-- The request of an access at the location of xa without a displacement. -/
def State.wordReq (s : State) (op : ReqOp) (w : Word) (size : Nat) (slack : Nat) (dests : List RegName) : Req :=
  let k := s.cur.tile
  { s.blankReq k s.cur.slot op with
    space := ptrSpace w, dev := if ptrSpace w = 3 then ptrDev w else s.devId, ttile := targetTile k w, loc := ptrLoc w,
    size := size, ptr := w, slack := slack, dests := dests, epc := s.cur.pc, paired := s.cur.paired }

/-- An access whose destination becomes pending while the strand goes on: AMO, CAS, SCH, RLSV (08 R162). -/
def State.atomic (s : State) (op : ReqOp) (w : Word) (size : Nat) (k : SlackReg) (spaces : List Nat) (dests : List RegName) :
    State :=
  match s.atomicCause s.cur.tile s.priv w size true spaces with
  | some c => s.trapAfter c w
  | none =>
    let reg := (dests.head?.map RegName.number).getD 0
    let r := { s.wordReq op w size (s.slackOf k) dests with acc := accessRecord (op.code size) reg size w [], due := s.cyc + 4 }
    if !s.roomFor r then s.hold
    else
      let s := if ownTlm s.cur.tile w then s.touch s.cur.tile s.cur.slot (ptrLoc w) size else s
      (s.post r).modMe fun st => dests.foldl Strand.mark st

/-- A posted access without a destination: RED (08 R162, R173). -/
def State.postedOp (s : State) (op : ReqOp) (xb : Reg) (w : Word) (size : Nat) (k : SlackReg) (spaces : List Nat) : State :=
  match s.atomicCause s.cur.tile s.priv w size true spaces with
  | some c => s.trapAfter c w
  | none =>
    let acc := accessRecord (op.code size) xb.toNat size w (toBytes size (s.rx xb).toNat)
    let r := { s.wordReq op w size (s.slackOf k) [] with posted := true, acc := acc }
    if !s.roomFor r then s.hold else s.post r

/-- A blocking access at the location of xa: LRW and WAITV (08 R162, 09 R203). -/
def State.blockingOp (s : State) (op : ReqOp) (w : Word) (size : Nat) (k : SlackReg) (xd : Reg) : State :=
  let r := { s.wordReq op w size (s.slackOf k) [.x xd] with blocking := true }
  if !s.roomFor r then s.hold
  else
    let s := if ownTlm s.cur.tile w then s.touch s.cur.tile s.cur.slot (ptrLoc w) size else s
    ((s.post r).modMe fun st => st.mark (.x xd)).sleepOn (.request r.id)

/-! ### Completion (07 R148, 08 R162, 14 R318) -/

/-- The answer of a request with XH set is counted against its strand, or against the tile; the strand takes 0x100 when
SSTAT.XTRAP is set (14 R318). -/
def State.countExhausted (s : State) (r : Req) : State :=
  let cap (n : Nat) : Nat := min (n + 1) 0xFFFFFFFF
  if !r.xh || r.counted then s
  else if !r.sv then s.modTile r.tile fun t => { t with xevt := cap t.xevt }
  else
    let s := s.modTile r.tile fun t => { t with xev := vset t.xev r.slot (cap (vget t.xev r.slot 0)) }
    let st := s.strand r.tile r.slot
    if st.xtrap && st.st == .live then
      s.modStrand r.tile r.slot fun st =>
        { st with held := st.held ++ [⟨0x100, word (vget (s.tile r.tile).xev r.slot 0)⟩] }
    else s

/-- The word that a request's reservation table entry names (08 R165, R166). -/
def reservedWord (loc : Nat) : Nat := loc / 8

/-- The entry of a word leaves a strand's reservation table (08 R166). -/
def Strand.dropResv (st : Strand) (word : Nat) : Strand := { st with resv := st.resv.filter fun v => v.word != word }

/-- What the reservation table records at a completion (08 R166, R168). -/
def State.noteResv (s : State) (r : Req) : State :=
  match r.op, r.reply with
  | .lrw, .value _ => s.modStrand r.tile r.slot fun st =>
      { st with resv := st.resv.map fun v => if v.word = reservedWord r.loc then { v with held := true } else v }
  | .lrw, .fault _ => s.modStrand r.tile r.slot fun st => st.dropResv (reservedWord r.loc)
  | .sch _, _ | .rlsv, _ => s.modStrand r.tile r.slot fun st => st.dropResv (reservedWord r.loc)
  | _, _ => s

/-- The values that an answer writes into the destinations. -/
def Req.values (s : State) (r : Req) : List Word :=
  match r.reply, r.op with
  | .data l, .load k => loadValues k l
  | .value v, _ => [v]
  | .capacity _, _ => r.dests.map fun _ => s.anyWord
  | _, _ => []

/-- TFLT counts a trigger command that was refused or faulted (15 R347). -/
def State.refuseCommand (s : State) (k : Nat) : State := s.modTile k fun t => { t with tflt := (t.tflt + 1) % 2 ^ 64 }

/-- A message to another partition meets a fault (15 R331): the strand in the slot that sent it takes it as that of a posted store, if
it is live (log entry 62). -/
def State.messageFault (s : State) (k : Nat) (dest : Word) (entry : List Byte) (c : Nat) : State :=
  let n := fieldOf (word (ofBytes (entry.take 8))) 15 12
  if (s.strand k n).st = .live then s.defer k n ⟨[], true, c, dest, accessRecord 0x80 0 64 dest []⟩ else s

/-- Whether a cause reports uncorrectable data, which makes the superstep vote abort (07 R148). -/
def uncorrectable (c : Nat) : Bool := c == 0x141 || c == 0x142

/-- A request completes with a fault of the access (07 R148): taken at once for a blocking access, deferred otherwise. -/
def State.faultReq (s : State) (r : Req) (c : Nat) : State :=
  let s := if uncorrectable c || c == 0x0A3 then s.castAbort r.tile c else s
  if r.cell.isSome then s.refuseCommand r.tile
  else if !r.sv then (match r.op with
    | .message l => s.messageFault r.tile r.ptr l c
    | _ => s)
  else
    let s := s.modStrand r.tile r.slot fun st => r.dests.foldl Strand.unmark st
    if r.blocking then
      (s.modStrand r.tile r.slot fun st => { st with sleep := .awake }).takeTrap r.tile r.slot
        ⟨c, r.epc, r.ptr, r.paired, .none⟩
    else if r.posted || !r.dests.isEmpty then s.defer r.tile r.slot ⟨r.dests, r.posted, c, r.ptr, r.acc⟩
    else s

/-- A request completes without a fault: base register, destinations, wake (07 R148, R158). -/
def State.landReq (s : State) (r : Req) : State :=
  s.modStrand r.tile r.slot fun st =>
    let st := match r.base with
      | some (b, v) => st.put (.x b) v
      | none => st
    let st := (r.dests.zip (r.values s)).foldl (fun st p => st.land p.1 p.2) st
    if r.blocking then st.wake else st

/-- The barrier node at which a request stands or will be performed: its target tile, or the home station. -/
def Req.node (r : Req) : BarNode :=
  match r.place, r.pa with
  | .station n, _ => .station n
  | _, some pa => .station (homeStation pa)
  | _, none => .tile r.ttile

/-- Whether a node of a partition has received an abort DECIDE and not yet OPEN: it performs nothing (13 R289). -/
def State.discards (s : State) (part : Nat) (n : BarNode) : Bool :=
  match assoc s.parts part with
  | none => false
  | some p => p.bar.commit == some false && p.bar.applied.contains n && !p.bar.opened.contains n

/-- The answer of an engine's packet is back: it stays with its command until the command completes (log entry 28). An XINV's visit is
acknowledged, and a notice on cargo ends it. -/
def State.backAtEngine (s : State) (r : Req) : State :=
  let s := s.countExhausted r
  match r.op with
  | .engine .. => { s with reqs := s.reqs ++ [{ r with stage := .back, place := .tile r.tile, moving := false, performed := true, counted := true }] }
  | _ => s

/-- The answer of a request reaches its source (07 R148, 13 R279, R289). -/
def State.completeReq (s : State) (r : Req) : State :=
  let s := { s with reqs := s.reqs.filter fun q => q.id != r.id }
  if s.discards r.part (.tile r.tile) then s.countExhausted r
  else if r.op.isOwn then s.backAtEngine r
  else
  let s := (s.countExhausted r).noteResv r
  match r.reply with
  | .fault c => s.faultReq r c
  | .capacity c =>
    let s := s.capacity r.tile c
    if r.sv then (s.landReq r).used 1 else s
  | .discard | .pathLost => s
  | .reject => s.faultReq r 0x101
  | _ => if r.sv && r.cell.isNone then s.landReq r else s

end Sys2Proof.Machine
end

