-- ==== Sys2Proof/Machine/Fences.lean ====
section
/-! DEFINITION. What fences and releases wait for (09 R185, R188-R191, R199, R200). -/

namespace Sys2Proof.Machine

/-- Whether a request reads, in the sense of the ordering classes (09 R179): its value must be bound. -/
def ReqOp.reads : ReqOp → Bool
  | .load _ | .lrw | .sch _ | .amo .. | .cas .. | .waitv .. => true
  | _ => false

/-- Whether a request is a plain store to space 10, which the port and the translating station hold in transit (09 R185). -/
def Req.inTransit (r : Req) : Bool := decide (r.space = 2) && (match r.op with | .store _ => true | _ => false)

/-- Whether a request is performed at a scope (09 Table 9.2). One that failed is not performed. -/
def Req.doneAt (r : Req) (sc : Scope) : Bool :=
  match r.reply with
  | .fault _ => false
  | _ =>
    r.performed ||
      (r.inTransit && (match sc with
        | .strand | .tile => true
        | .die => (match r.stage with | .forward | .target | .waiting | .reply => true | _ => false)
        | _ => false))

/-- Whether a request is one of a strand's own that can still be performed. -/
def State.isMine (s : State) (k n : Nat) (r : Req) : Bool :=
  decide (r.sdev = s.devId) && decide (r.tile = k) && decide (r.slot = n) && r.sv && r.stage != .lost && r.op != .pref && !r.op.isOwn

/-- Whether the writes in transit that the strand observed are performed at a scope (09 R190, log entry 14). -/
def State.observedDone (s : State) (sc : Scope) : Bool :=
  s.me.seen.all fun i => s.reqs.all fun r => r.id != i || r.doneAt sc || r.stage == .lost || (match r.reply with | .fault _ => true | _ => false)

/-- Whether the earlier items of a release class are performed at a scope (09 R188, R200). -/
def State.released (s : State) (sc : Scope) : Bool :=
  (s.reqs.all fun r => !s.isMine s.cur.tile s.cur.slot r || r.doneAt sc) && s.observedDone sc

/-- Whether every earlier posted access of the strand has been answered, so that a fault of it is known (07 R148, log entry 18). -/
def State.reported (s : State) : Bool := s.reqs.all fun r => !(s.isMine s.cur.tile s.cur.slot r && r.posted)

/-- The code of a scope (09 Table 9.1). -/
def scopeCode : Scope → Nat
  | .strand => 0
  | .tile => 1
  | .die => 2
  | .device => 3
  | .fabric => 4

/-- The writes in transit that the strand made or observed are ordered, at a scope, before its later ones (09 R190). -/
def State.orderSeen (s : State) (sc : Scope) : State :=
  let mine := s.reqs.filter fun r => r.inTransit && !r.performed && (s.isMine s.cur.tile s.cur.slot r || s.me.seen.contains r.id)
  s.modMe fun st => { st with prior := s.inFlight st.prior ++ mine.map fun r => (r.id, scopeCode sc) }

/-- Whether every earlier read of the strand is performed (09 R200). -/
def State.acquired (s : State) : Bool :=
  s.reqs.all fun r => !(s.isMine s.cur.tile s.cur.slot r && r.op.reads) || r.doneAt .device

/-- Whether an XINV of the strand is outstanding (09 R200). -/
def State.xinvOpen (s : State) : Bool := s.xinvs.any fun x => decide (x.tile = s.cur.tile) && decide (x.slot = s.cur.slot)

/-- FENCE (09 R199, R200): it issues once what its class orders has reached the required point, and with a release class only when the
strand's posted accesses have been answered (07 R148); it separates the strand's accesses before it from the engine commands after
it (R193). -/
def execFence (inv : Bool) (ord : FenceOrd) (scope : Scope) (s : State) : Out :=
  let ready := match scope, ord with
    | .strand, .acq => true
    | _, .acq => s.acquired
    | .strand, _ => s.reported
    | sc, _ => s.reported && s.released sc
  if !ready || (inv && s.xinvOpen) then .next s.hold
  else
    let s := if ord = .acq then s else s.orderSeen scope
    .next (s.modMe fun st => { st with fenced := s.nextReq })

end Sys2Proof.Machine
end

