-- ==== Sys2Proof/Machine/Atomics.lean ====
section
/-! DEFINITION. Reservations, read-modify-write atomics, compare-and-swap, memory-side reductions and WAITV (08, 09 R202). -/

namespace Sys2Proof.Machine

/-! ### Reservations (08 R166-R170) -/

/-- The reservation-table rules of LRW (08 R166). -/
def Strand.lrwCause (st : Strand) (word : Nat) : Option Nat :=
  if st.resv.any fun v => v.word == word then some 0x0A1 else if 4 ≤ st.resv.length then some 0x0A2 else none

/-- LRW of `size` bytes. -/
def State.lrw (s : State) (xd xa : Reg) (size : Nat) (k : SlackReg) : State :=
  let w := s.rx xa
  match (s.atomicCause s.cur.tile s.priv w size false [2]) <|> s.me.lrwCause (reservedWord (ptrLoc w)) with
  | some c => s.trapAfter c w
  | none =>
    if !s.roomFor (s.wordReq .lrw w size 0 []) then s.hold
    else
      (s.modMe fun st => { st with resv := st.resv ++ [⟨reservedWord (ptrLoc w), size, false⟩] }).blockingOp .lrw w size k xd

/-- SCH or RLSV: without an entry in the strand's table the predicate reads 0 and no packet goes out; as a release at device
scope it waits for what precedes it (08 R169, R170). -/
def State.release (s : State) (op : ReqOp) (pd : PredReg) (xa : Reg) (size : Nat) (k : SlackReg) : State :=
  let w := s.rx xa
  match s.atomicCause s.cur.tile s.priv w size true [2] with
  | some c => s.trapAfter c w
  | none =>
    if !(s.me.resv.any fun v => v.word == reservedWord (ptrLoc w)) then s.modMe fun st => st.land (.p pd) 0
    else if !s.released .device then s.hold
    else s.atomic op w size k [2] [.p pd]

/-- LRW.32. -/
def execLrw32 (xd xa : Reg) (k : SlackReg) (s : State) : Out := .next (s.lrw xd xa 4 k)

/-- LRW.64. -/
def execLrw64 (xd xa : Reg) (k : SlackReg) (s : State) : Out := .next (s.lrw xd xa 8 k)

/-- SCH.32. -/
def execSch32 (pd : PredReg) (xa xb : Reg) (k : SlackReg) (s : State) : Out := .next (s.release (.sch (s.rx xb)) pd xa 4 k)

/-- SCH.64. -/
def execSch64 (pd : PredReg) (xa xb : Reg) (k : SlackReg) (s : State) : Out := .next (s.release (.sch (s.rx xb)) pd xa 8 k)

/-- RLSV. -/
def execRlsv (pd : PredReg) (xa : Reg) (k : SlackReg) (s : State) : Out := .next (s.release .rlsv pd xa 8 k)

/-! ### Read-modify-write (08 R171, R172) -/

/-- An AMO of `size` bytes. -/
def State.amo (s : State) (f : AmoOp) (xd xa xb : Reg) (size : Nat) (k : SlackReg) : Out :=
  .next (s.atomic (.amo f (s.rx xb)) (s.rx xa) size k [1, 2] [.x xd])

/-- AMO.add. -/
def execAmoAdd (xd xa xb : Reg) (k : SlackReg) (s : State) : Out := s.amo .add xd xa xb 8 k

/-- AMO.and. -/
def execAmoAnd (xd xa xb : Reg) (k : SlackReg) (s : State) : Out := s.amo .and xd xa xb 8 k

/-- AMO.or. -/
def execAmoOr (xd xa xb : Reg) (k : SlackReg) (s : State) : Out := s.amo .or xd xa xb 8 k

/-- AMO.xor. -/
def execAmoXor (xd xa xb : Reg) (k : SlackReg) (s : State) : Out := s.amo .xor xd xa xb 8 k

/-- AMO.min.s. -/
def execAmoMinS (xd xa xb : Reg) (k : SlackReg) (s : State) : Out := s.amo .minS xd xa xb 8 k

/-- AMO.max.s. -/
def execAmoMaxS (xd xa xb : Reg) (k : SlackReg) (s : State) : Out := s.amo .maxS xd xa xb 8 k

/-- AMO.min.z. -/
def execAmoMinZ (xd xa xb : Reg) (k : SlackReg) (s : State) : Out := s.amo .minZ xd xa xb 8 k

/-- AMO.max.z. -/
def execAmoMaxZ (xd xa xb : Reg) (k : SlackReg) (s : State) : Out := s.amo .maxZ xd xa xb 8 k

/-- AMO.swap. -/
def execAmoSwap (xd xa xb : Reg) (k : SlackReg) (s : State) : Out := s.amo .swap xd xa xb 8 k

/-- AMO.add.32. -/
def execAmoAdd32 (xd xa xb : Reg) (k : SlackReg) (s : State) : Out := s.amo .add xd xa xb 4 k

/-- AMO.swap.32. -/
def execAmoSwap32 (xd xa xb : Reg) (k : SlackReg) (s : State) : Out := s.amo .swap xd xa xb 4 k

/-- AMO.fadd.f32. -/
def execAmoFaddF32 (xd xa xb : Reg) (k : SlackReg) (s : State) : Out := s.amo .fadd xd xa xb 4 k

/-- CAS of `size` bytes: the expected value in the even register, the new one in the odd. -/
def State.casOf (s : State) (xd xa : Reg) (xb : RegPair) (size : Nat) (k : SlackReg) : Out :=
  .next (s.atomic (.cas (s.rx xb.even) (s.rx xb.odd)) (s.rx xa) size k [1, 2] [.x xd])

/-- CAS.32. -/
def execCas32 (xd xa : Reg) (xb : RegPair) (k : SlackReg) (s : State) : Out := s.casOf xd xa xb 4 k

/-- CAS.64. -/
def execCas64 (xd xa : Reg) (xb : RegPair) (k : SlackReg) (s : State) : Out := s.casOf xd xa xb 8 k

/-! ### Reductions (08 R173) -/

/-- A RED of `size` bytes. -/
def State.red (s : State) (f : RedOp) (xa xb : Reg) (size : Nat) (k : SlackReg) : Out :=
  .next (s.postedOp (.red f (s.rx xb)) xb (s.rx xa) size k [0, 2, 3])

/-- RED.add.s64. -/
def execRedAddS64 (xa xb : Reg) (k : SlackReg) (s : State) : Out := s.red .addS64 xa xb 8 k

/-- RED.add.f32. -/
def execRedAddF32 (xa xb : Reg) (k : SlackReg) (s : State) : Out := s.red .addF32 xa xb 4 k

/-- RED.add.bf16. -/
def execRedAddBf16 (xa xb : Reg) (k : SlackReg) (s : State) : Out := s.red .addBf16 xa xb 2 k

/-- RED.add.bf16.sr. -/
def execRedAddBf16Sr (xa xb : Reg) (k : SlackReg) (s : State) : Out := s.red .addBf16Sr xa xb 2 k

/-- RED.min.s64. -/
def execRedMinS64 (xa xb : Reg) (k : SlackReg) (s : State) : Out := s.red .minS64 xa xb 8 k

/-- RED.max.s64. -/
def execRedMaxS64 (xa xb : Reg) (k : SlackReg) (s : State) : Out := s.red .maxS64 xa xb 8 k

/-- RED.max.f32. -/
def execRedMaxF32 (xa xb : Reg) (k : SlackReg) (s : State) : Out := s.red .maxF32 xa xb 4 k

/-- RED.or.64. -/
def execRedOr64 (xa xb : Reg) (k : SlackReg) (s : State) : Out := s.red .or64 xa xb 8 k

/-! ### WAITV (09 R202-R204) -/

/-- WAITV of `size` bytes. -/
def State.waitv (s : State) (c : WaitCond) (xd xa xb : Reg) (size : Nat) (k : SlackReg) : Out :=
  let w := s.rx xa
  match s.atomicCause s.cur.tile s.priv w size false [1, 2] with
  | some c => .next (s.trapAfter c w)
  | none => .next (s.blockingOp (.waitv c (s.rx xb)) w size k xd)

/-- WAITV.eq. -/
def execWaitvEq (xd xa xb : Reg) (k : SlackReg) (s : State) : Out := s.waitv .eq xd xa xb 8 k

/-- WAITV.ne. -/
def execWaitvNe (xd xa xb : Reg) (k : SlackReg) (s : State) : Out := s.waitv .ne xd xa xb 8 k

/-- WAITV.ge.s. -/
def execWaitvGeS (xd xa xb : Reg) (k : SlackReg) (s : State) : Out := s.waitv .geS xd xa xb 8 k

/-- WAITV.eq.32. -/
def execWaitvEq32 (xd xa xb : Reg) (k : SlackReg) (s : State) : Out := s.waitv .eq xd xa xb 4 k

end Sys2Proof.Machine
end

