-- ==== Sys2Proof/Machine/Firmware.lean ====
section
/-! DEFINITION. The verification of firmware images (18 R426): SHA-512, MGF1 and RSASSA-PSS. The spec names these and does not state them:
SHA-512 is that of FIPS 180-4 and the signature scheme that of RFC 8017 (log entry 58). -/

namespace Sys2Proof.Machine

/-! ### SHA-512 -/

/-- Numbers of 64 bits. -/
def wrap64 (n : Nat) : Nat := n % 2 ^ 64

/-- A 64-bit number rotated right. -/
def rotr (n x : Nat) : Nat := wrap64 (x >>> n ||| x <<< (64 - n))

/-- The number that bytes hold, most significant first. -/
def bigEndian (l : List Byte) : Nat := ofBytes l.reverse

/-- The bytes of a number, most significant first. -/
def bigBytes (n v : Nat) : List Byte := (toBytes n v).reverse

/-- The largest `r` below 2^96 with `r ^ k ≤ n`. -/
def rootFloor (k n : Nat) : Nat := (List.range 96).reverse.foldl (fun r i => if (r + 2 ^ i) ^ k ≤ n then r + 2 ^ i else r) 0

/-- The first primes, below 410: there are 80. -/
def smallPrimes : List Nat := (List.range 410).filter fun n => decide (2 ≤ n) && (List.range 21).all fun d => decide (d < 2) || n % d != 0 || n == d

/-- The round constants: the first 64 bits of the fractions of the cube roots of the first 80 primes. -/
def shaRounds : List Nat := smallPrimes.map fun p => wrap64 (rootFloor 3 (p * 2 ^ 192))

/-- The initial value: the first 64 bits of the fractions of the square roots of the first 8 primes. -/
def shaInitial : List Nat := (smallPrimes.take 8).map fun p => wrap64 (rootFloor 2 (p * 2 ^ 128))

/-- The message schedule, extended by `n` words; the latest word stands first. -/
def shaExtend : Nat → List Nat → List Nat
  | 0, w => w
  | n + 1, w =>
    let at' (i : Nat) : Nat := w.getD (i - 1) 0
    let a := at' 2
    let b := at' 15
    shaExtend n (wrap64 ((rotr 19 a ^^^ rotr 61 a ^^^ a >>> 6) + at' 7 + (rotr 1 b ^^^ rotr 8 b ^^^ b >>> 7) + at' 16) :: w)

/-- One round, with its constant and its word. -/
def shaRound (v : List Nat) (q : Nat × Nat) : List Nat :=
  match v with
  | [a, b, c, d, e, f, g, h] =>
    let t := h + (rotr 14 e ^^^ rotr 18 e ^^^ rotr 41 e) + ((e &&& f) ^^^ ((2 ^ 64 - 1 - e) &&& g)) + q.1 + q.2
    let u := (rotr 28 a ^^^ rotr 34 a ^^^ rotr 39 a) + ((a &&& b) ^^^ (a &&& c) ^^^ (b &&& c))
    [wrap64 (t + u), a, b, c, wrap64 (d + t), e, f, g]
  | v => v

/-- One block of 128 bytes. -/
def shaBlock (rounds hash : List Nat) (block : List Byte) : List Nat :=
  let w := (List.range 16).map fun i => bigEndian ((block.drop (8 * i)).take 8)
  let v := (rounds.zip (shaExtend 64 w.reverse).reverse).foldl shaRound hash
  (hash.zip v).map fun p => wrap64 (p.1 + p.2)

/-- A message with its padding. -/
def shaPad (l : List Byte) : List Byte :=
  l ++ [0x80] ++ List.replicate ((239 - l.length % 128) % 128) 0 ++ bigBytes 16 (8 * l.length)

/-- The SHA-512 digest of a message. -/
def sha512 (l : List Byte) : List Byte :=
  let m := shaPad l
  let rounds := shaRounds
  ((List.range (m.length / 128)).foldl (fun h i => shaBlock rounds h ((m.drop (128 * i)).take 128)) shaInitial).flatMap (bigBytes 8)

/-! ### RSASSA-PSS -/

/-- The mask of `n` bytes that a seed gives (MGF1 with SHA-512). -/
def maskOfSeed (seed : List Byte) (n : Nat) : List Byte :=
  ((List.range ((n + 63) / 64)).flatMap fun i => sha512 (seed ++ bigBytes 4 i)).take n

/-- `b ^ e` modulo `m`. -/
def powMod (b e m : Nat) : Nat :=
  (List.range (e.log2 + 1)).reverse.foldl (fun r i => let q := r * r % m; if e.testBit i then q * b % m else q) (1 % m)

/-- Whether an encoded message of 512 bytes is one of a digest, with a salt of 64 bytes (EMSA-PSS for a modulus of 4,096 bits). -/
def pssEncodes (em digest : List Byte) : Bool :=
  let masked := em.take 447
  let h := (em.drop 447).take 64
  let db := ((masked.zip (maskOfSeed h 447)).map fun p => p.1 ^^^ p.2).modify 0 fun b => b &&& 0x7F
  em.length == 512 && em.getD 511 0 == 0xBC && !(em.getD 0 0).msb && (db.take 382).all (· == 0) && db.getD 382 0 == 1 &&
    sha512 (List.replicate 8 0 ++ digest ++ db.drop 383) == h

/-- Whether a signature of a message holds for a key: a modulus of 512 bytes and an exponent. -/
def signatureHolds (key message signature : List Byte) : Bool :=
  let n := bigEndian (key.take 512)
  let v := bigEndian signature
  signature.length == 512 && decide (v < n) && pssEncodes (bigBytes 512 (powMod v (bigEndian (key.drop 512)) n)) (sha512 message)

/-! ### Images (18 R426) -/

/-- Whether an image is refused: by its key's digest, by its signature, or by its security version. -/
def State.refusesImage (s : State) (f : Firmware) : Bool :=
  sha512 f.key != s.keyFuse || !signatureHolds f.key (Config.signedMessage f.version f.body) f.signature || decide (f.version < s.minFuse)

end Sys2Proof.Machine
end

