-- ==== Sys2Proof/Machine/Fetch.lean ====
section
/-! DEFINITION. The fetch of a bundle, and the causes that a strand takes before its next bundle (06 R117, 07 R148,
17 R387). -/

namespace Sys2Proof.Machine

/-- What a fetch answers. -/
inductive Fetched where
  | bytes (l : List Byte)
  | fault (cause : Nat)
  | missing (pa : Nat)
  | held
  deriving DecidableEq, Repr

/-- Fetch the bundle at an address (06 R117): translated with execute permission, from committed memory; a line that another partition's
commit in progress changed is held until it is over (13 R290). -/
def State.fetch (s : State) (k : Nat) (old : List Stale) (pc : Word) : Fetched :=
  if fieldOf pc 63 48 ≠ 0 then .fault 0x063
  else match s.translate old (s.party k).part pc.toNat .exec with
    | .fault c => .fault c
    | .missing pa => .missing pa
    | .at pa =>
      if s.heldBack (s.party k).part pa 8 then .held
      else if badRange s.hbmBad pa 8 then .fault 0x142
      else .bytes ((List.range 8).map fun i => s.hbmCommitted (pa + i))

/-- The replaced entries that a walk uses (17 R400), the latest first; of several for one address it may use any. -/
def State.staleFor (s : State) (use : Bool) : List Stale :=
  if use then
    match s.stale.reverse with
    | [] => []
    | o :: l => (o :: l).drop (s.anyNat % (l.length + 1))
  else []

/-- A cause that a strand takes before its next bundle: one that it holds, or a deferred fault, by its place in its
list. -/
inductive Early where
  | held (i : Nat)
  | fault (i : Nat)
  deriving DecidableEq, Repr

/-- Whether a cause is delivered by the link-event rule. -/
def isLinkCause (c : Nat) : Bool := (decide (0x103 ≤ c) && decide (c ≤ 0x107)) || c == 0x145

/-- Whether a strand handles a link event: it has not executed the ERET of that entry (14 R323). -/
def Strand.linkBusy (st : Strand) : Bool := st.handling.any isLinkCause

/-- The causes that are due before any bundle: the faults of posted stores, and the held causes unless INH is set (07 R148, 17 R387);
a link event waits until an earlier one is handled (14 R323). -/
def Strand.earlyCauses (st : Strand) : List (Nat × Early) :=
  (((List.range st.faults.length).zip st.faults).filterMap fun p => if p.2.store then some (p.2.cause, .fault p.1) else none) ++
    (if st.inh then []
    else (((List.range st.held.length).zip st.held).filter fun p => !(st.linkBusy && isLinkCause p.2.cause)).map fun p => (p.2.cause, .held p.1))

/-- The cause taken first: the lowest, then the earliest (17 R387). -/
def Strand.early (st : Strand) : Option Early := (leastBy (·.1) st.earlyCauses).map (·.2)

/-- The deferred load fault that a bundle meets: the lowest cause among those that mark a register it names, or among all
before a bundle that ends the strand or synchronises (07 R148, 17 R387). -/
def Strand.metFault (st : Strand) (named : List RegName) (ends : Bool) : Option Nat :=
  let met := ((List.range st.faults.length).zip st.faults).filter fun p =>
    ends || p.2.regs.any fun r => named.contains r
  (leastBy (fun p => p.2.cause) met).map (·.1)

/-- The pc when a strand wakes past a sleeping bundle (17 R387). -/
def Strand.nextPc (st : Strand) : Word := if st.sleep = .idle then st.pc + 8 else st.pc

/-- A strand takes a cause that it holds (17 R387); a strand that sleeps in IDLE resumes after it. -/
def State.takeHeld (s : State) (k n i : Nat) : State :=
  match (s.strand k n).held[i]? with
  | none => s
  | some h =>
    let st := s.strand k n
    (s.modStrand k n fun st => { st with held := st.held.eraseIdx i, pc := st.nextPc, sleep := .awake }).takeTrap k n
      ⟨h.cause, st.nextPc, h.tval, st.askip, .none⟩

/-- A strand takes a deferred fault (07 R148): its marks clear, and the frame records the access. -/
def State.takeFault (s : State) (k n i : Nat) : State :=
  match (s.strand k n).faults[i]? with
  | none => s
  | some f =>
    let st := s.strand k n
    (s.modStrand k n fun st => { st with faults := st.faults.eraseIdx i }).takeTrap k n ⟨f.cause, st.pc, f.tval, st.askip, f.acc⟩

/-- Whether a tile issues: it is not stopped, halted or lost, nor between DECIDE and OPEN (17 R405, 13 R291). -/
def Tile.runs (t : Tile) : Bool := !t.gstopped && !t.halted && !t.lost && !t.decided

/-- A strand is live and awake on a tile that issues (06 R114). -/
def State.mayIssue (s : State) (k n : Nat) : Bool :=
  (s.tile k).runs && (s.strand k n).st == .live && (s.strand k n).sleep == .awake

/-- The strand and the tile that an operation acts on. -/
def State.evStrand (s : State) : Strand := s.strand s.cur.ev.tile s.cur.ev.slot

/-! ### Meanings -/

/-- BUNDLE_FETCH (06 R117): the strand of the event fetches its next bundle; a fetch that faults raises its trap, with EPC
and TVAL at the fetch address. After a fetch that succeeds the bundle is there to issue (R114). -/
def execBundleFetch (s : State) : Out :=
  let k := s.cur.ev.tile
  let n := s.cur.ev.slot
  let st := s.strand k n
  if !s.mayIssue k n then .next s
  else match s.fetch k (s.staleFor s.cur.ev.ok) st.pc with
    | .bytes _ => .next (s.modStrand k n fun st => { st with fetched := some st.pc })
    | .held => .next s
    | .missing pa => .fault (.noMemory pa)
    | .fault c =>
      let s := if c = 0x142 then s.castAbort k c else s
      .next (s.takeTrap k n ⟨c, st.pc, st.pc, st.askip, .none⟩)

/-- ASYNC_CAUSE_TAKEN (17 R387): the strand of the event takes the cause that is due before its next bundle; a strand that
sleeps in IDLE wakes for it. -/
def execAsyncCauseTaken (s : State) : Out :=
  let k := s.cur.ev.tile
  let n := s.cur.ev.slot
  let st := s.strand k n
  if !(s.mayIssue k n || ((s.tile k).runs && st.st == .live && st.sleep == .idle)) then .next s
  else match st.early with
    | some (.held i) => .next (s.takeHeld k n i)
    | some (.fault i) => .next (s.takeFault k n i)
    | none => .next s

/-- DEFERRED_FAULT_TRAP (07 R148): the strand of the event takes the deferred fault of number `a`, just before the bundle
that meets it; the step finds that bundle. -/
def execDeferredFaultTrap (s : State) : Out :=
  if s.mayIssue s.cur.ev.tile s.cur.ev.slot then .next (s.takeFault s.cur.ev.tile s.cur.ev.slot s.cur.ev.a) else .next s

/-- TRAP_ENTRY (17 R385): a trap that waited for x12-x15 enters its handler once none of them is pending. -/
def execTrapEntry (s : State) : Out :=
  let k := s.cur.ev.tile
  let n := s.cur.ev.slot
  let st := s.strand k n
  match st.sleep with
  | .trap t => if st.savedPending || !(s.tile k).runs then .next s else .next (s.enterTrap k n t)
  | _ => .next s

end Sys2Proof.Machine
end

