-- ==== Sys2Proof/Machine/Flags.lean ====
section
/-! DEFINITION. The conditions that compares, branches and waits evaluate, and FP32 values in registers (05 R88, R97, R105,
R106, 06 Table 6.8, 09 Table 9.6). The machine has no flag register (05 R89). -/

namespace Sys2Proof.Machine

/-- a < b as s64. -/
def ltS (a b : Word) : Bool := decide (a.toInt < b.toInt)

/-- a ≤ b as s64. -/
def leS (a b : Word) : Bool := decide (a.toInt ≤ b.toInt)

/-- a < b as z64. -/
def ltZ (a b : Word) : Bool := decide (a.toNat < b.toNat)

/-- a ≤ b as z64. -/
def leZ (a b : Word) : Bool := decide (a.toNat ≤ b.toNat)

/-- The smaller of two words as s64. -/
def minS (a b : Word) : Word := if leS a b then a else b

/-- The larger of two words as s64. -/
def maxS (a b : Word) : Word := if leS a b then b else a

/-- The smaller of two words as z64. -/
def minZ (a b : Word) : Word := if leZ a b then a else b

/-- The larger of two words as z64. -/
def maxZ (a b : Word) : Word := if leZ a b then b else a

/-- The FP32 operand of a register (05 R88). -/
def fp32 (w : Word) : Num := Format.fp32.decode (fieldOf w 31 0)

/-- The canonical FP32 NaN (04 R70). -/
def nan32 : Nat := 0x7FC00000

/-- An FP32 result rounded once (05 R104). -/
def fpWord (x : Num) : Word := word (roundFp32 x)

/-- FMIN on encodings (05 R105). -/
def fminBits (a b : Nat) : Nat :=
  let x := Format.fp32.decode a
  let y := Format.fp32.decode b
  if x.isNaN then (if y.isNaN then nan32 else b) else if y.isNaN then a else if Num.below y x then b else a

/-- FMAX on encodings (05 R105). -/
def fmaxBits (a b : Nat) : Nat :=
  let x := Format.fp32.decode a
  let y := Format.fp32.decode b
  if x.isNaN then (if y.isNaN then nan32 else b) else if y.isNaN then a else if Num.below x y then b else a

/-- FCMP.lt (05 R106). -/
def fpLt (a b : Word) : Bool := Num.lt (fp32 a) (fp32 b)

/-- FCMP.eq (05 R106). -/
def fpEq (a b : Word) : Bool := Num.eq (fp32 a) (fp32 b)

/-- FCMP.le (05 R106). -/
def fpLe (a b : Word) : Bool := fpLt a b || fpEq a b

/-- FCMP.un (05 R106). -/
def fpUn (a b : Word) : Bool := (fp32 a).isNaN || (fp32 b).isNaN

/-- FCLASS (05 R107): the one-hot class word. -/
def fpClass (w : Word) : Word :=
  let v := fieldOf w 31 0
  let neg := v / 2 ^ 31 == 1
  let ex := v / 2 ^ 23 % 256
  let mant := v % 2 ^ 23
  let bit :=
    if ex = 255 then (if mant ≠ 0 then 8 else if neg then 0 else 7)
    else if ex = 0 then (if mant = 0 then (if neg then 3 else 4) else if neg then 2 else 5)
    else if neg then 1 else 6
  word (2 ^ bit)

/-- FSGN on the sign bit (05 R107): a NaN gives the canonical one. -/
def fpSign (w : Word) (sign : Bool) : Word :=
  if (fp32 w).isNaN then word nan32 else word (fieldOf w 30 0 + (if sign then 2 ^ 31 else 0))

end Sys2Proof.Machine
end

