-- ==== Sys2Proof/Machine/Scalar.lean ====
section
/-! DEFINITION. Scalar integer, logic, shift, move, compare and predicate instructions (05 R93-R98). -/

namespace Sys2Proof.Machine

/-! ### Shared operations -/

/-- A fixed-latency result in a general register (02 R41). -/
def State.alu (s : State) (lat : Nat) (xd : Reg) (v : Word) : Out := .next (s.putX lat xd v)

/-- A compare or predicate result (05 R97, R98). -/
def State.setP (s : State) (lat : Nat) (pd : PredReg) (v : Bool) : Out := .next (s.putP lat pd v)

/-- An immediate as a word, sign-extended (05 R92). -/
def immS (imm : BitVec 32) : Word := imm.signExtend 64

/-- An immediate as a word, zero-extended (05 R97). -/
def immZ (imm : BitVec 32) : Word := imm.setWidth 64

/-- The shift count in a register (05 R94). -/
def shiftOf (w : Word) : Nat := w.toNat % 64

/-- Signed quotient (05 R93). -/
def quotS (a b : Word) : Word := if b = 0 then -1 else BitVec.ofInt 64 (a.toInt.tdiv b.toInt)

/-- Unsigned quotient (05 R93). -/
def quotZ (a b : Word) : Word := if b = 0 then -1 else word (a.toNat / b.toNat)

/-- Signed remainder (05 R93). -/
def remainS (a b : Word) : Word := if b = 0 then a else BitVec.ofInt 64 (a.toInt.tmod b.toInt)

/-- Unsigned remainder (05 R93). -/
def remainZ (a b : Word) : Word := if b = 0 then a else word (a.toNat % b.toNat)

/-- The cycle in which an operation that enters the divide unit now, and occupies it for `n` cycles, ends (05 R91). -/
def State.divideDue (s : State) (n : Nat) : Nat :=
  max s.cyc (((s.tile s.cur.tile).eng.divq.getLast?.map fun d => d.due).getD 0) + n

/-- An operation enters the divide unit, which it occupies for `n` cycles, its destination pending; with 16 held the bundle waits
(05 R91). -/
def State.divide (s : State) (n : Nat) (xd : Reg) (v : Word) : State :=
  let k := s.cur.tile
  if (s.tile k).eng.divq.length ≥ Config.divCap then s.hold
  else (s.markX xd).modEng k fun g => { g with divq := g.divq ++ [⟨s.cur.slot, xd, v, s.divideDue n⟩] }

/-- Leading zero bits (05 R94). -/
def leadingZeros (w : Word) : Nat := if w = 0 then 64 else 63 - Nat.log2 w.toNat

/-- Trailing zero bits (05 R94). -/
def trailingZeros (w : Word) : Nat := if w = 0 then 64 else Nat.log2 (w &&& -w).toNat

/-- BEXT.z (05 R94): bits p + w - 1 : p of a word. -/
def extractBits (w : Word) (p w1 : Nat) : Nat := w.toNat / 2 ^ p % 2 ^ (w1 + 1)

/-! ### Integer arithmetic (05 Table 5.2) -/

/-- ADD (05 R93). -/
def execAdd (xd xa xb : Reg) (s : State) : Out := s.alu 1 xd (s.rx xa + s.rx xb)

/-- SUB (05 R93). -/
def execSub (xd xa xb : Reg) (s : State) : Out := s.alu 1 xd (s.rx xa - s.rx xb)

/-- ADDI (05 R93). -/
def execAddi (xd xa : Reg) (imm : BitVec 32) (s : State) : Out := s.alu 1 xd (s.rx xa + immS imm)

/-- MUL (05 R93). -/
def execMul (xd xa xb : Reg) (s : State) : Out := s.alu 3 xd (s.rx xa * s.rx xb)

/-- MULI (05 R93). -/
def execMuli (xd xa : Reg) (imm : BitVec 32) (s : State) : Out := s.alu 3 xd (s.rx xa * immS imm)

/-- MULH.s (05 R93). -/
def execMulhS (xd xa xb : Reg) (s : State) : Out :=
  s.alu 3 xd (BitVec.ofInt 64 ((s.rx xa).toInt * (s.rx xb).toInt / 2 ^ 64))

/-- MULH.z (05 R93). -/
def execMulhZ (xd xa xb : Reg) (s : State) : Out := s.alu 3 xd (word ((s.rx xa).toNat * (s.rx xb).toNat / 2 ^ 64))

/-- DIV.s (05 R91, R93). -/
def execDivS (xd xa xb : Reg) (s : State) : Out := .next (s.divide 40 xd (quotS (s.rx xa) (s.rx xb)))

/-- DIV.z (05 R91, R93). -/
def execDivZ (xd xa xb : Reg) (s : State) : Out := .next (s.divide 40 xd (quotZ (s.rx xa) (s.rx xb)))

/-- REM.s (05 R91, R93). -/
def execRemS (xd xa xb : Reg) (s : State) : Out := .next (s.divide 40 xd (remainS (s.rx xa) (s.rx xb)))

/-- REM.z (05 R91, R93). -/
def execRemZ (xd xa xb : Reg) (s : State) : Out := .next (s.divide 40 xd (remainZ (s.rx xa) (s.rx xb)))

/-! ### Logic, shifts and bit fields (05 Table 5.3) -/

/-- AND (05 R94). -/
def execAnd (xd xa xb : Reg) (s : State) : Out := s.alu 1 xd (s.rx xa &&& s.rx xb)

/-- OR (05 R94). -/
def execOr (xd xa xb : Reg) (s : State) : Out := s.alu 1 xd (s.rx xa ||| s.rx xb)

/-- XOR (05 R94). -/
def execXor (xd xa xb : Reg) (s : State) : Out := s.alu 1 xd (s.rx xa ^^^ s.rx xb)

/-- ANDN (05 R94). -/
def execAndn (xd xa xb : Reg) (s : State) : Out := s.alu 1 xd (s.rx xa &&& ~~~s.rx xb)

/-- ANDI (05 R94). -/
def execAndi (xd xa : Reg) (imm : BitVec 32) (s : State) : Out := s.alu 1 xd (s.rx xa &&& immS imm)

/-- ORI (05 R94). -/
def execOri (xd xa : Reg) (imm : BitVec 32) (s : State) : Out := s.alu 1 xd (s.rx xa ||| immS imm)

/-- XORI (05 R94). -/
def execXori (xd xa : Reg) (imm : BitVec 32) (s : State) : Out := s.alu 1 xd (s.rx xa ^^^ immS imm)

/-- SHL (05 R94). -/
def execShl (xd xa xb : Reg) (s : State) : Out := s.alu 1 xd (s.rx xa <<< shiftOf (s.rx xb))

/-- SHLI (05 R94, R95). -/
def execShli (xd xa : Reg) (sh : BitVec 6) (s : State) : Out := s.alu 1 xd (s.rx xa <<< sh.toNat)

/-- SHR.z (05 R94). -/
def execShrZ (xd xa xb : Reg) (s : State) : Out := s.alu 1 xd (s.rx xa >>> shiftOf (s.rx xb))

/-- SHRI.z (05 R94, R95). -/
def execShriZ (xd xa : Reg) (sh : BitVec 6) (s : State) : Out := s.alu 1 xd (s.rx xa >>> sh.toNat)

/-- SHR.s (05 R94). -/
def execShrS (xd xa xb : Reg) (s : State) : Out := s.alu 1 xd ((s.rx xa).sshiftRight (shiftOf (s.rx xb)))

/-- SHRI.s (05 R94, R95). -/
def execShriS (xd xa : Reg) (sh : BitVec 6) (s : State) : Out := s.alu 1 xd ((s.rx xa).sshiftRight sh.toNat)

/-- ROT (05 R94). -/
def execRot (xd xa xb : Reg) (s : State) : Out := s.alu 1 xd ((s.rx xa).rotateLeft (shiftOf (s.rx xb)))

/-- ROTI (05 R94, R95). -/
def execRoti (xd xa : Reg) (sh : BitVec 6) (s : State) : Out := s.alu 1 xd ((s.rx xa).rotateLeft sh.toNat)

/-- MIN.s (05 R94). -/
def execMinS (xd xa xb : Reg) (s : State) : Out := s.alu 1 xd (minS (s.rx xa) (s.rx xb))

/-- MIN.z (05 R94). -/
def execMinZ (xd xa xb : Reg) (s : State) : Out := s.alu 1 xd (minZ (s.rx xa) (s.rx xb))

/-- MAX.s (05 R94). -/
def execMaxS (xd xa xb : Reg) (s : State) : Out := s.alu 1 xd (maxS (s.rx xa) (s.rx xb))

/-- MAX.z (05 R94). -/
def execMaxZ (xd xa xb : Reg) (s : State) : Out := s.alu 1 xd (maxZ (s.rx xa) (s.rx xb))

/-- ABS (05 R94). -/
def execAbs (xd xa : Reg) (s : State) : Out := s.alu 1 xd (if ltS (s.rx xa) 0 then -s.rx xa else s.rx xa)

/-- CLZ (05 R94). -/
def execClz (xd xa : Reg) (s : State) : Out := s.alu 1 xd (word (leadingZeros (s.rx xa)))

/-- CTZ (05 R94). -/
def execCtz (xd xa : Reg) (s : State) : Out := s.alu 1 xd (word (trailingZeros (s.rx xa)))

/-- POPC (05 R94). -/
def execPopc (xd xa : Reg) (s : State) : Out := s.alu 1 xd (word (popCount 64 (s.rx xa).toNat))

/-- BSWAP (05 R94). -/
def execBswap (xd xa : Reg) (s : State) : Out := s.alu 1 xd (word (ofBytes (toBytes 8 (s.rx xa).toNat).reverse))

/-- BEXT.s (05 R94, R95). -/
def execBextS (xd xa : Reg) (p w1 : BitVec 6) (s : State) : Out :=
  s.alu 1 xd ((BitVec.ofNat (w1.toNat + 1) (extractBits (s.rx xa) p.toNat w1.toNat)).signExtend 64)

/-- BEXT.z (05 R94, R95). -/
def execBextZ (xd xa : Reg) (p w1 : BitVec 6) (s : State) : Out :=
  s.alu 1 xd (word (extractBits (s.rx xa) p.toNat w1.toNat))

/-- BINS (05 R94, R95). -/
def execBins (xd xa : Reg) (p w1 : BitVec 6) (s : State) : Out :=
  s.alu 1 xd (setField (s.rx xd) (p.toNat + w1.toNat) p.toNat (s.rx xa).toNat)

/-- SEXT.8 (05 R94). -/
def execSext8 (xd xa : Reg) (s : State) : Out := s.alu 1 xd (signedOf 1 (s.rx xa).toNat)

/-- SEXT.16 (05 R94). -/
def execSext16 (xd xa : Reg) (s : State) : Out := s.alu 1 xd (signedOf 2 (s.rx xa).toNat)

/-- SEXT.32 (05 R94). -/
def execSext32 (xd xa : Reg) (s : State) : Out := s.alu 1 xd (signedOf 4 (s.rx xa).toNat)

/-! ### Moves and selection (05 Table 5.4) -/

/-- MOVI (05 R96). -/
def execMovi (xd : Reg) (imm : BitVec 32) (s : State) : Out := s.alu 1 xd (immS imm)

/-- MOVK (05 R96). -/
def execMovk (xd : Reg) (lane : BitVec 2) (imm : BitVec 16) (s : State) : Out :=
  s.alu 1 xd (setField (s.rx xd) (16 * lane.toNat + 15) (16 * lane.toNat) imm.toNat)

/-- MOVX (05 R96). -/
def execMovx (xd : Reg) (imm : BitVec 32) (s : State) : Out := s.alu 1 xd (setField (s.rx xd) 63 32 imm.toNat)

/-- SEL (05 R96). -/
def execSel (xd xa xb : Reg) (pc : PredReg) (s : State) : Out := s.alu 1 xd (if s.rp pc then s.rx xa else s.rx xb)

/-! ### Compares and predicate logic (05 Table 5.5, R98) -/

/-- CMP.eq (05 R97). -/
def execCmpEq (pd : PredReg) (xa xb : Reg) (s : State) : Out := s.setP 1 pd (s.rx xa == s.rx xb)

/-- CMP.ne (05 R97). -/
def execCmpNe (pd : PredReg) (xa xb : Reg) (s : State) : Out := s.setP 1 pd (s.rx xa != s.rx xb)

/-- CMP.lt.s (05 R97). -/
def execCmpLtS (pd : PredReg) (xa xb : Reg) (s : State) : Out := s.setP 1 pd (ltS (s.rx xa) (s.rx xb))

/-- CMP.lt.z (05 R97). -/
def execCmpLtZ (pd : PredReg) (xa xb : Reg) (s : State) : Out := s.setP 1 pd (ltZ (s.rx xa) (s.rx xb))

/-- CMP.le.s (05 R97). -/
def execCmpLeS (pd : PredReg) (xa xb : Reg) (s : State) : Out := s.setP 1 pd (leS (s.rx xa) (s.rx xb))

/-- CMP.le.z (05 R97). -/
def execCmpLeZ (pd : PredReg) (xa xb : Reg) (s : State) : Out := s.setP 1 pd (leZ (s.rx xa) (s.rx xb))

/-- CMPI.eq (05 R97). -/
def execCmpiEq (pd : PredReg) (xa : Reg) (imm : BitVec 32) (s : State) : Out := s.setP 1 pd (s.rx xa == immS imm)

/-- CMPI.ne (05 R97). -/
def execCmpiNe (pd : PredReg) (xa : Reg) (imm : BitVec 32) (s : State) : Out := s.setP 1 pd (s.rx xa != immS imm)

/-- CMPI.lt.s (05 R97). -/
def execCmpiLtS (pd : PredReg) (xa : Reg) (imm : BitVec 32) (s : State) : Out := s.setP 1 pd (ltS (s.rx xa) (immS imm))

/-- CMPI.lt.z (05 R97): the immediate is zero-extended. -/
def execCmpiLtZ (pd : PredReg) (xa : Reg) (imm : BitVec 32) (s : State) : Out := s.setP 1 pd (ltZ (s.rx xa) (immZ imm))

/-- CMPI.le.s (05 R97). -/
def execCmpiLeS (pd : PredReg) (xa : Reg) (imm : BitVec 32) (s : State) : Out := s.setP 1 pd (leS (s.rx xa) (immS imm))

/-- PAND (05 R98). -/
def execPand (pd pa pb : PredReg) (s : State) : Out := s.setP 1 pd (s.rp pa && s.rp pb)

/-- POR (05 R98). -/
def execPor (pd pa pb : PredReg) (s : State) : Out := s.setP 1 pd (s.rp pa || s.rp pb)

/-- PXOR (05 R98). -/
def execPxor (pd pa pb : PredReg) (s : State) : Out := s.setP 1 pd (s.rp pa != s.rp pb)

/-- PANDN (05 R98). -/
def execPandn (pd pa pb : PredReg) (s : State) : Out := s.setP 1 pd (s.rp pa && !s.rp pb)

/-- PMOV (05 R98). -/
def execPmov (pd pa : PredReg) (s : State) : Out := s.setP 1 pd (s.rp pa)

/-! ### Divide unit -/

/-- DIVIDE_COMPLETE (05 R91): the occupancy of the operation at the head of the unit of tile `ev.tile` ends and its result is written;
that of a slot that was freed is discarded. -/
def execDivideComplete (s : State) : Out :=
  let k := s.cur.ev.tile
  match (s.tile k).eng.divq with
  | [] => .next s
  | d :: l =>
    if s.cyc < d.due then .next s
    else
      let s := s.modEng k fun g => { g with divq := l }
      .next (if (s.strand k d.slot).st = .live then s.landX k d.slot d.rd d.val else s)

end Sys2Proof.Machine
end

