-- ==== Sys2Proof/Machine/Fp.lean ====
section
/-! DEFINITION. FP32 arithmetic, compares, signs, classes and conversions (05 R104-R109). -/

namespace Sys2Proof.Machine

/-! ### Shared operations -/

/-- The seed of a tile's random words: SEED of its partition (04 R81). -/
def State.seedOf (s : State) (k : Nat) : Word :=
  match s.partOf k with
  | some id => (s.part id).seed
  | none => 0

/-- a × b + c, exact (05 R104). -/
def fusedSum (a b c : Num) : Num := (a.mul b).add c

/-- FP32 to s32 (05 R108). -/
def toS32 (w : Word) (mode : Rnd) : Word := BitVec.ofInt 64 (roundToInt (fp32 w) .s32 mode 0)

/-- The bits of an encoding of a 16-bit format, exact in FP32 (05 R108). -/
def fromHalf (f : Format) (w : Word) : Word := fpWord (f.decode (fieldOf w 15 0))

/-! ### Sign and class (05 R107) -/

/-- FSGN.abs (05 R107). -/
def execFsgnAbs (xd xa : Reg) (s : State) : Out := s.alu 4 xd (fpSign (s.rx xa) false)

/-- FSGN.neg (05 R107). -/
def execFsgnNeg (xd xa : Reg) (s : State) : Out := s.alu 4 xd (fpSign (s.rx xa) (!bitOf (s.rx xa) 31))

/-- FSGN.copy (05 R107). -/
def execFsgnCopy (xd xa xb : Reg) (s : State) : Out := s.alu 4 xd (fpSign (s.rx xa) (bitOf (s.rx xb) 31))

/-- FCLASS (05 R107). -/
def execFclass (xd xa : Reg) (s : State) : Out := s.alu 4 xd (fpClass (s.rx xa))

/-! ### Arithmetic (05 Table 5.6) -/

/-- FADD (05 R104). -/
def execFadd (xd xa xb : Reg) (s : State) : Out := s.alu 4 xd (fpWord ((fp32 (s.rx xa)).add (fp32 (s.rx xb))))

/-- FSUB (05 R104). -/
def execFsub (xd xa xb : Reg) (s : State) : Out := s.alu 4 xd (fpWord ((fp32 (s.rx xa)).add (fp32 (s.rx xb)).neg))

/-- FMUL (05 R104). -/
def execFmul (xd xa xb : Reg) (s : State) : Out := s.alu 4 xd (fpWord ((fp32 (s.rx xa)).mul (fp32 (s.rx xb))))

/-- FFMA (05 R104). -/
def execFfma (xd xa xb xc : Reg) (s : State) : Out :=
  s.alu 5 xd (fpWord (fusedSum (fp32 (s.rx xa)) (fp32 (s.rx xb)) (fp32 (s.rx xc))))

/-- FFMS (05 R104). -/
def execFfms (xd xa xb xc : Reg) (s : State) : Out :=
  s.alu 5 xd (fpWord (fusedSum (fp32 (s.rx xa)) (fp32 (s.rx xb)) (fp32 (s.rx xc)).neg))

/-- FNMA (05 R104). -/
def execFnma (xd xa xb xc : Reg) (s : State) : Out :=
  s.alu 5 xd (fpWord (fusedSum (fp32 (s.rx xa)).neg (fp32 (s.rx xb)) (fp32 (s.rx xc))))

/-- FNMS (05 R104). -/
def execFnms (xd xa xb xc : Reg) (s : State) : Out :=
  s.alu 5 xd (fpWord (fusedSum (fp32 (s.rx xa)).neg (fp32 (s.rx xb)) (fp32 (s.rx xc)).neg))

/-- FDIV (05 R91, R104). -/
def execFdiv (xd xa xb : Reg) (s : State) : Out :=
  .next (s.divide 16 xd (fpWord ((fp32 (s.rx xa)).div (fp32 (s.rx xb)))))

/-- FSQRT (05 R91, R104). -/
def execFsqrt (xd xa : Reg) (s : State) : Out := .next (s.divide 20 xd (fpWord (fp32 (s.rx xa)).sqrt))

/-- FMIN (05 R105). -/
def execFmin (xd xa xb : Reg) (s : State) : Out :=
  s.alu 4 xd (word (fminBits (fieldOf (s.rx xa) 31 0) (fieldOf (s.rx xb) 31 0)))

/-- FMAX (05 R105). -/
def execFmax (xd xa xb : Reg) (s : State) : Out :=
  s.alu 4 xd (word (fmaxBits (fieldOf (s.rx xa) 31 0) (fieldOf (s.rx xb) 31 0)))

/-! ### Compares (05 R106) -/

/-- FCMP.eq (05 R106). -/
def execFcmpEq (pd : PredReg) (xa xb : Reg) (s : State) : Out := s.setP 4 pd (fpEq (s.rx xa) (s.rx xb))

/-- FCMP.lt (05 R106). -/
def execFcmpLt (pd : PredReg) (xa xb : Reg) (s : State) : Out := s.setP 4 pd (fpLt (s.rx xa) (s.rx xb))

/-- FCMP.le (05 R106). -/
def execFcmpLe (pd : PredReg) (xa xb : Reg) (s : State) : Out := s.setP 4 pd (fpLe (s.rx xa) (s.rx xb))

/-- FCMP.un (05 R106). -/
def execFcmpUn (pd : PredReg) (xa xb : Reg) (s : State) : Out := s.setP 4 pd (fpUn (s.rx xa) (s.rx xb))

/-! ### Conversions (05 Table 5.7) -/

/-- FCVT.f32.s32 (05 R108). -/
def execFcvtF32S32 (xd xa : Reg) (s : State) : Out :=
  s.alu 4 xd (fpWord (.ofInt (BitVec.ofNat 32 (fieldOf (s.rx xa) 31 0)).toInt))

/-- FCVT.s32.f32.rz (05 R108). -/
def execFcvtS32F32Rz (xd xa : Reg) (s : State) : Out := s.alu 4 xd (toS32 (s.rx xa) .rz)

/-- FCVT.s32.f32.rn (05 R108). -/
def execFcvtS32F32Rn (xd xa : Reg) (s : State) : Out := s.alu 4 xd (toS32 (s.rx xa) .rn)

/-- FCVT.f32.z32 (05 R108). -/
def execFcvtF32Z32 (xd xa : Reg) (s : State) : Out := s.alu 4 xd (fpWord (.ofInt (fieldOf (s.rx xa) 31 0)))

/-- FCVT.bf16.f32.rn (05 R108). -/
def execFcvtBf16F32Rn (xd xa : Reg) (sat : Bool) (s : State) : Out :=
  s.alu 4 xd (word (roundToFormat (fp32 (s.rx xa)) .bf16 .rn sat 0))

/-- FCVT.bf16.f32.sr (05 R108, R109). -/
def execFcvtBf16F32Sr (xd xa xb : Reg) (sat : Bool) (s : State) : Out :=
  s.alu 4 xd (word (roundToFormat (fp32 (s.rx xa)) .bf16 .sr sat
    (randomWord (s.seedOf s.cur.tile) (s.rx xb) (s.ssnumOf s.cur.tile))))

/-- FCVT.f32.bf16 (05 R108). -/
def execFcvtF32Bf16 (xd xa : Reg) (s : State) : Out := s.alu 4 xd (fromHalf .bf16 (s.rx xa))

/-- FCVT.f16.f32, FCVT.f16.f32.sat and FCVT.f32.f16 (05 R108). -/
def execFcvtF16 (xd xa : Reg) (f : F16Conv) (s : State) : Out :=
  s.alu 4 xd (match f with
    | .toF16 => word (roundToFormat (fp32 (s.rx xa)) .fp16 .rn false 0)
    | .toF16Sat => word (roundToFormat (fp32 (s.rx xa)) .fp16 .rn true 0)
    | .toF32 => fromHalf .fp16 (s.rx xa))

end Sys2Proof.Machine
end

