-- ==== Sys2Proof/Machine/Fabric.lean ====
section
/-! DEFINITION. Requests on their way: slack, routes, translation, what a target does with a request, and its answer
(07 R139-R148, 08 R163-R176, 09 R183-R204, 13 R289, R290, 14 R307-R318). -/

namespace Sys2Proof.Machine

/-! ### Queues (14 R314, R315) -/

/-- A packet departs from its queue: its slack falls by the grains that it waited there, and at 0 it is marked exhausted and counted
once; one of VC 0 never is. -/
def State.depart (s : State) (r : Req) : State × Req :=
  let slk := r.slack - (s.gclk - r.stamp)
  if slk = 0 ∧ r.xh = false ∧ r.vc ≠ 0 then (s.countAt r.place.code, { r with slack := 0, xh := true, xhAt := r.spentAt })
  else (s, { r with slack := slk })

/-- Replace a request. -/
def State.setReq (s : State) (r : Req) : State := { s with reqs := updateWhere s.reqs (fun q => q.id == r.id) fun _ => r }

/-- Remove a request. -/
def State.dropReq (s : State) (id : Nat) : State := { s with reqs := s.reqs.filter fun q => q.id != id }

/-- The request with a number. -/
def State.req (s : State) (id : Nat) : Option Req := s.reqs.find? fun r => r.id == id

/-- A request enters a queue, behind those that stand there. -/
def State.enqueue (s : State) (r : Req) : State :=
  let s := s.dropReq r.id
  { s with reqs := s.reqs ++ [{ r with moving := false, stamp := s.gclk }] }

/-- A notice for a packet, made where the packet stands (14 R309, R317, R323): it goes back on VC 1 with slack 0, and so exhausted. -/
def State.notify (s : State) (r : Req) (a : Reply) : State :=
  let s := if r.xh then s else s.countAt r.place.code
  s.enqueue { r with slack := 0, xh := true, xhAt := if r.xh then r.xhAt else s.gclk, stage := .reply, reply := a, came := r.place, course := none }

/-- Whether an answer is a notice that a router, a port or a sender on a link made. -/
def Reply.isNotice : Reply → Bool
  | .reject | .pathLost => true
  | _ => false

/-- The packets that go over a link as it goes down are cut off (14 R323), those that have not wholly arrived: the sender makes a notice for
a request, sends a notice itself by another way, and leaves an answer to its target, which answers again. -/
def State.cutLink (s : State) (l : Nat) : State :=
  (s.reqs.filter fun r => r.moving && (match r.place with | .link n _ => n == l | _ => false)).foldl
    (fun s r =>
      let at' := { r with place := r.came, moving := false }
      if r.stage != .reply then s.notify at' .pathLost
      else if r.reply.isNotice then s.enqueue at'
      else s.setReq { at' with stage := .cut }) s

/-! ### Windows (09 R197) -/

/-- Whether an entry is of a request's source at a point: the forwarded access of a station has that station as part of its source. -/
def Window.isOf (w : Window) (point : Nat) (via : Option Nat) (r : Req) : Bool :=
  w.point == point && w.sdev == r.sdev && w.tile == r.tile && w.via == via

/-- The translating station through which a request came to its home. -/
def State.viaOf (s : State) (r : Req) : Option Nat :=
  match r.place with
  | .station n => if r.space = 1 then none else some (if r.stage = .xlate then 64 + n else s.xlateOf r)
  | _ => none

/-- What the window of the point where a request stands says of its sequence number. -/
def State.windowEntry (s : State) (r : Req) : Option Window :=
  s.windows.find? fun w => w.isOf r.place.code (s.viaOf r) r && w.seq == r.seq

/-- A point notes a request: of each source it keeps the last 1,024. -/
def State.note (s : State) (r : Req) (a : Reply) (fwd : Option Nat) : State :=
  let mine := s.windows.filter fun w => w.isOf r.place.code (s.viaOf r) r
  let rest := s.windows.filter fun w => !w.isOf r.place.code (s.viaOf r) r
  { s with windows := rest ++ mine.drop (mine.length - 1023) ++ [⟨r.place.code, r.sdev, r.tile, s.viaOf r, r.seq, a, fwd⟩] }

/-! ### Stores in transit (09 R185) -/

/-- The value of a byte in a store in transit. -/
def Req.storedByte (r : Req) (loc : Nat) : Option Byte :=
  match r.op with
  | .store l => if r.loc ≤ loc then l[loc - r.loc]? else none
  | _ => none

/-- The latest value that some stores in transit, oldest first, give a byte. -/
def transitByte (l : List Req) (loc : Nat) : Option Byte :=
  l.foldl (fun b r => match r.storedByte loc with
    | some c => some c
    | none => b) none

/-- What a port or a station that holds stores in transit does with a read: none of its bytes held, all of them, or some. -/
inductive Served where
  | free
  | all (l : List Byte)
  | part
  deriving DecidableEq, Repr

/-- Serve a read from stores in transit (09 R185). -/
def serveFrom (l : List Req) (loc n : Nat) : Served :=
  let bs := (List.range n).map fun i => transitByte l (loc + i)
  if bs.all fun b => b.isNone then .free
  else if bs.all fun b => b.isSome then .all (bs.map fun b => b.getD 0)
  else .part

/-- Whether a request is a plain load from space 10. -/
def Req.immediateLoad (r : Req) : Bool := decide (r.space = 2) && (match r.op with | .load _ => true | _ => false)

/-- Whether a request writes in a way that a port does not hold for reads: its result is known at the home only. -/
def ReqOp.writesThere : ReqOp → Bool
  | .amo .. | .cas .. | .sch _ | .red .. => true
  | _ => false

/-- The stores that a tile's port holds, in the order in which it accepted them: those that its translating station has not accepted. -/
def State.portStores (s : State) (k : Nat) : List Req :=
  sortBy Req.id (s.reqs.filter fun q => q.inTransit && q.sdev == s.devId && q.tile == k && !q.over && q.accepted.isNone)

/-- The stores that a die's translating stations hold, in the order in which they accepted them: those that are not applied at their
home, also when they were cut off on the way there and are sent again. -/
def State.stationStores (s : State) (die : Nat) : List Req :=
  sortBy (fun q => q.accepted.getD 0) (s.reqs.filter fun q =>
    q.inTransit && q.sdev == s.devId && q.tile / 1024 == die && !q.over && q.accepted.isSome)

/-- Whether two requests are of one strand. -/
def Req.sameStrand (r q : Req) : Bool := q.sdev == r.sdev && q.tile == r.tile && q.slot == r.slot && q.sv == r.sv

/-- Those of some stores that do not come later in the program of a read's strand (07 R151). -/
def Req.notLater (r : Req) (l : List Req) : List Req := l.filter fun q => !r.sameStrand q || decide (q.id < r.id)

/-- Those of some stores in transit, oldest first, that may serve a read: of its partition, for its bytes, and none of them followed by
another write to those bytes that its home is still to perform: an atomic or a reduction, or a store of the read's own strand to
another space (07 R151). -/
def State.serving (s : State) (l : List Req) (r : Req) : List Req :=
  let l := (r.notLater l).filter fun q => s.meets r q
  let elsewhere (q : Req) : Bool := r.sameStrand q && q.space != 2 && (match q.op with | .store _ => true | _ => false)
  let past := s.reqs.any fun q =>
    (q.op.writesThere || elsewhere q) && !q.over && s.meets r q && decide (q.id < r.id) && l.any fun w => decide (w.id < q.id)
  if past then [] else l

/-- What a read observes when it returns a value in transit (09 R190): the stores that hold it, and those that were ordered before them at a
scope that contains the reader. -/
def State.observe (s : State) (r : Req) (l : List Req) : State :=
  if r.sv then s.observes r.tile r.slot (l.map (·.id)) (l.flatMap Req.after) else s

/-- The point and the location at which a request's bytes are. -/
def Req.spot (r : Req) : Point × Nat :=
  match r.pa with
  | some pa => (.station (homeStation pa), pa)
  | none => (.tile r.ttile, r.loc)

/-- A request is performed at its target: a read observes what was ordered before the write that it returns, a write tells what was ordered
before it (09 R190). -/
def State.noteAt (s : State) (r : Req) : State :=
  let (p, a) := r.spot
  let s := if r.op.reads && r.sv && r.sdev == s.devId then s.observes r.tile r.slot [] (s.notesAt p a r.size) else s
  if (match r.op with | .store _ => true | op => op.writesThere) then s.noteWrite p a r.size r.after else s

/-! ### Order (07 R151, 09 R183, R185, R192) -/

/-- WAITV and LRW requests that wait at a point: monitors. -/
def State.monitors (s : State) (n : BarNode) : Nat :=
  (s.reqs.filter fun q => q.stage == .waiting && q.node == n && (match q.op with | .waitv .. => true | _ => false)).length

/-- Whether a request waits for the reservation of a word. -/
def Req.awaits (q : Req) (word : Nat) : Bool := q.stage == .waiting && q.op == .lrw && q.pa.map (· / 8) == some word

/-- Words of a station that have a reservation entry: a holder or a queue (08 R165). -/
def State.reservedWords (s : State) (station : Nat) : Nat :=
  let queued := (s.reqs.filter fun q => q.stage == .waiting && q.op == .lrw).filterMap fun q => q.pa.map (· / 8)
  ((s.holders.map (fun h => h.word) ++ queued).eraseDups.filter fun w => homeStation (8 * w) == station).length

/-- Whether a word has a reservation entry. -/
def State.hasEntry (s : State) (word : Nat) : Bool := (s.holders.any fun h => h.word == word) || s.reqs.any fun q => q.awaits word

/-- Whether a target has room for a request that may have to wait: monitors, or reservation entries (09 R204, 08 R165). -/
def State.waitRoom (s : State) (r : Req) : Bool :=
  match r.op, r.pa with
  | .lrw, some pa => s.hasEntry (pa / 8) || decide (s.reservedWords (homeStation pa) < 1024)
  | .waitv .., _ => decide (s.monitors r.node < 1024)
  | _, _ => true

/-- Whether a request is for its target to perform yet, before others for its bytes: one that waits there, for a grant, a value or room to
wait in, holds back no other. -/
def State.pendingAt (s : State) (q : Req) : Bool := !q.over && q.stage != .waiting && !(q.stage == .target && !s.waitRoom q) && q.op != .pref

/-- Whether an earlier request to common bytes is still to be performed: of the same strand (07 R151), or one that the same translating
station accepted before (09 R185). -/
def State.behind (s : State) (r : Req) : Bool :=
  s.reqs.any fun q =>
    s.meets r q && s.pendingAt q &&
      ((decide (q.id < r.id) && r.sameStrand q) ||
        (match q.accepted, r.accepted with
        | some a, some b => decide (a < b) && s.xlateOf q == s.xlateOf r
        | _, _ => false))

/-- Whether an earlier request of the same strand to common bytes is still to be accepted by its translating station. -/
def State.early (s : State) (r : Req) : Bool :=
  s.reqs.any fun q => decide (q.id < r.id) && r.sameStrand q && s.meets r q && s.pendingAt q && q.accepted.isNone

/-! ### Read-modify-write (08 R171-R173) -/

/-- f(v, b) of an AMO over elements of `n` bytes (08 Table 8.4). -/
def AmoOp.apply (f : AmoOp) (n v : Nat) (b : Word) : Nat :=
  let x := word v
  match f with
  | .add => (v + b.toNat) % 2 ^ (8 * n)
  | .and => (x &&& b).toNat
  | .or => (x ||| b).toNat
  | .xor => (x ^^^ b).toNat
  | .minS => (Machine.minS x b).toNat
  | .maxS => (Machine.maxS x b).toNat
  | .minZ => (Machine.minZ x b).toNat
  | .maxZ => (Machine.maxZ x b).toNat
  | .swap => b.toNat % 2 ^ (8 * n)
  | .fadd => roundFp32 ((fp32 x).add (fp32 b))

/-- S of a reduction (08 Table 8.5). -/
def RedOp.size : RedOp → Nat
  | .addS64 | .minS64 | .maxS64 | .or64 => 8
  | .addF32 | .maxF32 => 4
  | .addBf16 | .addBf16Sr => 2

/-- The larger of two FP32 encodings for RED.max.f32 (08 Table 8.5). -/
def redMaxF32 (a b : Nat) : Nat :=
  let x := Format.fp32.decode a
  let y := Format.fp32.decode b
  if x.isNaN || y.isNaN then nan32 else if Num.below x y then b else a

/-- An element after its contributions (08 R173, R175): exact until the one rounding; a finite overflow saturates and an infinity stays. -/
def RedOp.resolve (op : RedOp) (base : Nat) (parts : List Word) (rw : Nat) : Nat :=
  let floats (f : Format) (m : Rnd) : Nat :=
    let a := parts.foldl (fun a x => a.add (fp32 x)) (Acc.clear.add (f.decode base))
    a.round f m (match a.value with | .inf _ => false | _ => true) rw
  match op with
  | .addS64 => (parts.foldl (fun a x => a + x) (word base)).toNat
  | .minS64 => (parts.foldl minS (word base)).toNat
  | .maxS64 => (parts.foldl maxS (word base)).toNat
  | .or64 => (parts.foldl (fun a x => a ||| x) (word base)).toNat
  | .maxF32 => parts.foldl (fun a x => redMaxF32 a (fieldOf x 31 0)) base
  | .addF32 => floats .fp32 .rn
  | .addBf16 => floats .bf16 .rn
  | .addBf16Sr => floats .bf16 .sr

/-! ### What a target does (08 R163) -/

/-- The party that a request belongs to. -/
def Req.party (s : State) (r : Req) : Party := ⟨r.sdev, r.tile, if s.booting || r.part = 0xFFFF then none else some r.part⟩

/-- Read the bytes of a request at its target. -/
def State.targetRead (s : State) (r : Req) : Reply :=
  match r.pa with
  | none => s.peekTile (r.party s) r.ttile r.loc r.size
  | some pa => s.hbmRead (r.party s) pa r.size

/-- Write bytes at a request's target. -/
def State.targetWrite (s : State) (r : Req) (l : List Byte) : State × Reply :=
  match r.pa with
  | none =>
    if r.ttile = r.tile ∧ r.sdev = s.devId then
      if partlyBad (s.tile r.tile).bad r.loc l.length then (s, .fault 0x141) else (s.tlmWrite r.tile r.loc l, .none)
    else s.pokeTile (r.party s) r.ttile r.loc l
  | some pa => s.hbmWrite (r.party s) r.space pa l

/-- Write a changed element and answer with a value. -/
def State.swapAt (s : State) (r : Req) (new : Nat) (answer : Word) : State × Reply :=
  match s.targetWrite r (toBytes r.size new) with
  | (s, .none) => (s, .value answer)
  | p => p

/-- An AMO at its target. -/
def State.performAmo (s : State) (r : Req) (f : AmoOp) (b : Word) : State × Reply :=
  match s.targetRead r with
  | .data l => s.swapAt r (f.apply r.size (ofBytes l) b) (word (ofBytes l))
  | q => (s, q)

/-- A CAS at its target (08 R172): one that fails writes nothing. -/
def State.performCas (s : State) (r : Req) (old new : Word) : State × Reply :=
  match s.targetRead r with
  | .data l =>
    if ofBytes l = old.toNat % 2 ^ (8 * r.size) then s.swapAt r new.toNat (word (ofBytes l))
    else (s, .value (word (ofBytes l)))
  | q => (s, q)

/-- Whether a word of space 10 has a holder. -/
def State.holderOf (s : State) (word : Nat) : Option Holder := s.holders.find? fun h => h.word == word

/-- Whether the requesting strand holds the reservation on its word, which ends 4,096 grains after its grant (08 R167, R169). -/
def State.holds (s : State) (r : Req) (pa : Nat) : Bool :=
  match s.holderOf (pa / 8) with
  | some h => h.tile == r.tile && h.slot == r.slot && r.sdev == s.devId && decide (s.gclk < h.since + 4096)
  | none => false

/-- A reservation ends (08 R167). -/
def State.endReservation (s : State) (word : Nat) : State := { s with holders := s.holders.filter fun h => h.word != word }

/-- SCH at the home station (08 R169). DESIGN CHOICE: one whose write fails leaves the station's reservation until its 4,096 grains are over
(log entry 69). -/
def State.performSch (s : State) (r : Req) (pa : Nat) (v : Word) : State × Reply :=
  if !s.holds r pa then (s, .value 0)
  else match s.targetWrite r (toBytes r.size v.toNat) with
    | (s, .none) => (s.endReservation (pa / 8), .value 1)
    | p => p

/-- RLSV at the home station (08 R170). -/
def State.performRlsv (s : State) (r : Req) (pa : Nat) : State × Reply :=
  if s.holds r pa then (s.endReservation (pa / 8), .value 1) else (s, .value 0)

/-- A reservation is granted (08 R168): the value is read at the grant; when that read fails the reservation ends at once. -/
def State.grant (s : State) (r : Req) (pa : Nat) : State × Reply :=
  match s.targetRead r with
  | .data l => ({ s with holders := s.holders ++ [⟨pa / 8, r.tile, r.slot, s.gclk⟩] }, .value (word (ofBytes l)))
  | q => (s, q)

/-- A versioned reduction at its home station (08 R174). -/
def State.addReduction (s : State) (id pa : Nat) (op : RedOp) (x : Word) : State × Reply :=
  let p := s.part id
  match p.reds.find? fun e => e.pa == pa && e.op == op with
  | some _ =>
    (s.modPart id fun q =>
      { q with reds := updateWhere q.reds (fun e => e.pa == pa && e.op == op) fun e => { e with parts := e.parts ++ [x] } },
      .none)
  | none =>
    if p.reds.any fun e => overlaps e.pa e.op.size pa op.size then (s, .fault 0x0A3)
    else if s.redsUsed (homeStation pa) + 1 > Config.accCap then (s, .capacity 0x0E4)
    else (s.modPart id fun q => { q with reds := q.reds ++ [⟨pa, op, [x]⟩] }, .none)

/-- The arrival counter of a station (08 R176). -/
def State.arrivals (s : State) (station : Nat) : Nat := (assoc s.counters station).getD 0

/-- A reduction resolved at its arrival (08 R176): RED.add.bf16.sr takes and advances the station's arrival counter. -/
def State.reduceNow (s : State) (r : Req) (pa : Nat) (op : RedOp) (x : Word) : State × Reply :=
  match s.targetRead r with
  | .data l =>
    let st := homeStation pa
    let n := s.arrivals st
    let seed := match (r.party s).part with
      | some id => (s.part id).seed
      | none => 0
    let rw := if op = .addBf16Sr then randomWord seed (word pa) n else 0
    match s.targetWrite r (toBytes op.size (op.resolve (ofBytes l) [x] rw)) with
    | (s, .none) => (if op = .addBf16Sr then { s with counters := assocPut s.counters st ((n + 1) % 2 ^ 32) } else s, .none)
    | q => q
  | q => (s, q)

/-- A RED at its home station. -/
def State.performRed (s : State) (r : Req) (pa : Nat) (op : RedOp) (x : Word) : State × Reply :=
  match (r.party s).part with
  | some id => if r.space = 2 then s.reduceNow r pa op x else s.addReduction id pa op x
  | none => s.reduceNow r pa op x

/-- Whether a value satisfies WAITV (09 Table 9.6). -/
def WaitCond.holds (c : WaitCond) (size v : Nat) (b : Word) : Bool :=
  match c with
  | .eq => v == b.toNat % 2 ^ (8 * size)
  | .ne => v != b.toNat % 2 ^ (8 * size)
  | .geS => leS b (word v)

/-- The tables above a level for an address (17 R398): the entries read, and the entry of that level where every one of them is a valid
entry that is no leaf. -/
def State.maptPath (s : State) (ctx va lvl : Nat) : List Nat × Option Nat :=
  (List.range lvl).foldl
    (fun (t : List Nat × Option Nat) i =>
      match t.2 with
      | none => t
      | some a =>
        if i + 1 = lvl then (t.1, some (a + 8 * levelIndex va lvl))
        else
          let e := s.tableWord (a + 8 * levelIndex va (i + 1))
          (t.1 ++ [(a + 8 * levelIndex va (i + 1)) / 8], if bitOf e 0 && !bitOf e 4 && entryOk (i + 1) e then some (entryAddr e) else none))
    ([], some (s.part ctx).troot.toNat)

/-- MAPT at the home station of its entry (17 R398). For a context that is not resident the spec gives no table and no result:
nothing is written, and the result is free. A table word that is uncorrectable makes it a fault; the entry itself is written whole all the
same, which clears it (17 R407). -/
def State.performMapt (s : State) (ctx va lvl : Nat) (x : Word) : State × Reply :=
  let no (r : Nat) : State × Reply := (s, .value (word (2 ^ 63 + r)))
  let p := s.part ctx
  if lvl = 0 ∨ 4 < lvl then no 1
  else if !p.valid then (s.used 1, .value s.anyWord)
  else
    let path := s.maptPath ctx va lvl
    if path.1.any s.hbmBad.contains then (s, .fault 0x142)
    else match path.2 with
    | none => no 2
    | some pa =>
      let len := if bitOf x 4 then 2 ^ levelShift lvl else if lvl = 3 then 256 else 4096
      if entryReserved x || (bitOf x 0 && !entryOk lvl x) then no 3
      else if bitOf x 0 && !(decide (p.mgbase.toNat ≤ entryAddr x) &&
          decide (entryAddr x + len ≤ p.mgbase.toNat + p.mglen.toNat)) then no 4
      else
        if !s.hasMemory pa 8 then ({ s with missing := some pa }, .none)
        else
          let old := s.tableWord pa
          let bad := s.hbmBad.contains (pa / 8)
          let s := s.hbmPut pa (toBytes 8 x.toNat)
          if bad then (s, .fault 0x142)
          else (if bitOf old 0 then { s with stale := s.stale ++ [⟨ctx, va, lvl, old⟩] } else s, .value old)

/-- What a target answers to a memory request: a state and an answer, or none where the request waits. -/
def State.perform (s : State) (r : Req) : State × Option Reply :=
  let some' (p : State × Reply) : State × Option Reply := (p.1, some p.2)
  match r.op, r.pa with
  | .load _, _ => (s, some (s.targetRead r))
  | .store l, _ => some' (s.targetWrite r l)
  | .amo f b, _ => some' (s.performAmo r f b)
  | .cas a b, _ => some' (s.performCas r a b)
  | .red f x, some pa => some' (s.performRed r pa f x)
  | .sch v, some pa => some' (s.performSch r pa v)
  | .rlsv, some pa => some' (s.performRlsv r pa)
  | .lrw, some pa =>
    if s.hasEntry (pa / 8) then (s, none) else some' (s.grant r pa)
  | .waitv c b, _ =>
    match s.targetRead r with
    | .data l => if c.holds r.size (ofBytes l) b then (s, some (.value (word (ofBytes l)))) else (s, none)
    | q => (s, some q)
  | .mapt ctx va lvl e, _ => some' (s.performMapt ctx va lvl e)
  | .pref, none =>
    let b := r.loc / 0x4000
    (s.modTile r.ttile fun t =>
      if t.retained.getLsbD b && (assoc t.touched b).isNone then { t with touched := assocPut t.touched b s.cyc } else t, some .none)
  | _, _ => (s, some .none)

/-- Whether a request is an access to the data of a tile's TLM. -/
def Req.inTile (r : Req) : Bool := decide (r.space = 1) && r.op != .pref

/-- Atomics, reservations and WAITV accept only scratch in TLM: below the target's SCRBASE they fail (08 R159). -/
def State.belowScratch (s : State) (r : Req) : Bool :=
  r.pa.isNone && decide (r.space = 1) && decide (r.loc < s.scratchFrom r.ttile) &&
    (match r.op with
    | .amo .. | .cas .. | .waitv .. => true
    | _ => false)

/-- An answer leaves the point where its request stands (14 R317): after `grains` of service it carries the rest of the request's slack, a
discard none; a reply created with slack 0 is marked exhausted and counted. -/
def State.answer (s : State) (r : Req) (a : Reply) (grains : Nat) : State :=
  let slk := if a = .discard then 0 else r.slack - grains
  let spent := decide (slk = 0) && !r.xh && a != .discard
  let s := if spent then s.countAt r.place.code else s
  s.enqueue { r with
    slack := slk, xh := r.xh || spent, xhAt := if spent then s.gclk else r.xhAt, stage := .reply, came := r.place, reply := a
    performed := (match a with | .discard => r.performed | _ => true) }

/-- A request is answered, and the point's window keeps the reply; where it was performed, what it observed and what was ordered before it is
noted (09 R190). -/
def State.reply (s : State) (r : Req) (a : Reply) (grains : Nat) : State :=
  let s := match a with
    | .none | .data _ | .value _ => if r.performed then s else s.noteAt r
    | _ => s
  (if a = .discard then s else s.note r a none).answer r a grains

/-- Whether a packet without a path waits for one: it is no remote request of a tile (09 R198). -/
def Req.waits (r : Req) : Bool :=
  match r.op with
  | .cargo c .. => (match c with | .barrier | .stones | .context | .steal | .stolen => true | _ => false)
  | .transit hdr _ => let op := headerField hdr 31 24; op == 0xF3 || op == 0xFA || op == 0x18
  | _ => false

/-- No path remains for a packet (09 R198): its tile records 0x102 and casts an abort, unless it has applied the abort of the partition,
which ends the packet too; a request of another device is reported to its source, its answer is lost. What is no request waits for a path:
barrier and management packets, moved contexts, steal packets (log entry 52). -/
def State.losePath (s : State) (r : Req) : State :=
  if r.waits then s
  else if r.sdev = s.devId then
    if s.discards r.part (.tile r.tile) then s.dropReq r.id
    else (s.castAbort r.tile 0x102).setReq { r with stage := .lost }
  else if r.stage = .reply then s.dropReq r.id
  else s.notify r .pathLost

/-- A point discards a packet and sends a reject notice (14 R309): TREJ of the router there counts it. -/
def State.rejectReq (s : State) (r : Req) : State :=
  { s with trej := bump s.trej (s.routerOf r.place) }.notify { r with moving := false } .reject

/-! ### Cargo (14 Tables 14.2, 14.3; log entry 52) -/

/-- Whether a packet carries a part of the cargo with a number: what it carries stands in the state under that number. -/
def Req.carriesJob (r : Req) (job : Nat) : Bool :=
  match r.op with
  | .cargo _ _ j _ _ => j == job
  | _ => false

/-- Whether a packet is one of an XINV with a number. -/
def Req.visits (r : Req) (job : Nat) : Bool :=
  match r.op with
  | .visit _ j _ => j == job
  | _ => false

/-- Cargo of a number of flits leaves a tile for a point, in packets of at most five flits, for the command of a strand slot or for the
tile itself. -/
def State.ship (s : State) (k : Nat) (c : Cargo) (code job flits : Nat) (goal : Point) (slack : Nat) (slot : Option Nat) : State :=
  (List.range (max 1 (ceilDiv flits 5))).foldl (fun s i =>
    s.post { s.blankReq k (slot.getD 0) (.cargo c code job (max 1 (min 5 (flits - 5 * i))) goal) with
      sv := slot.isSome, ttile := (match goal with | .tile j => j | _ => k), slack := slack, came := .strand (if c = .steal ∨ c = .stolen then 6 else 5) }) s

/-- A packet that is no request of a tile takes its place at a point of the fabric, or at its goal where that is the same. -/
def State.place (s : State) (r : Req) (p : Point) : State :=
  let here := s.goal r == some p && r.dev == s.devId
  { s with
    reqs := s.reqs ++ [{ r with id := s.nextReq, place := p, stage := if here then .target else match p with | .tile _ => .port | _ => .wire }]
    nextReq := s.nextReq + 1 }

/-- Cargo of a partition's own units leaves a point for another (13 R283, R284). -/
def State.shipFrom (s : State) (id : Nat) (p : Point) (c : Cargo) (code job flits : Nat) (goal : Point) : State :=
  let q := s.part id
  s.place { s.blankReq (match p with | .tile k => k | _ => q.corner) 0 (.cargo c code job flits goal) with
    sv := false, part := id, ten := q.ten, came := .strand 5 } p

/-- Cargo leaves a device root for a point with a slack that it inherits (14 Table 14.4): one created with slack 0 is exhausted and
counted. -/
def State.shipDown (s : State) (id : Nat) (c : Cargo) (code job flits : Nat) (goal : Point) (slack : Nat) (spent : Bool) : State :=
  let q := s.part id
  (List.range (max 1 (ceilDiv flits 5))).foldl (fun s i =>
    let s := if spent || slack ≠ 0 then s else s.countAt (Point.router q.corner).code
    s.place { s.blankReq q.corner 0 (.cargo c code job (max 1 (min 5 (flits - 5 * i))) goal) with
      sv := false, part := id, ten := q.ten, ttile := (match goal with | .tile j => j | _ => q.corner)
      slack := slack, xh := spent || slack == 0, xhAt := s.gclk, came := .strand 5 } (.router q.corner)) s

/-- A packet for another device leaves a point, as its header and payload say. -/
def State.mail (s : State) (p : Point) (k : Nat) (hdr : BitVec 128) (bytes : List Byte) : State :=
  let f := headerField hdr
  s.place { s.blankReq k 0 (.transit hdr bytes) with
    sv := f 32 32 == 1, slot := f 36 33, dev := f 111 98, ttile := f 97 86, part := f 15 0, ten := f 59 56, slack := f 55 44, came := .strand 5 } p

/-- A packet of another device that has come to where it ends here, as it stands under a number: its header and payload. -/
def State.letter (s : State) (id op : Nat) : Option (BitVec 128 × List Byte) :=
  match s.req id with
  | some r =>
    match r.op with
    | .transit hdr l => if r.stage = .target ∧ headerField hdr 31 24 = op then some (hdr, l) else none
    | _ => none
  | none => none

/-- Whether every packet of some cargo stands at its goal. -/
def State.landed (s : State) (job : Nat) : Bool := s.reqs.all fun r => !r.carriesJob job || r.stage == .target

/-- Cargo is taken from its goal. -/
def State.unload (s : State) (job : Nat) : State := { s with reqs := s.reqs.filter fun r => !r.carriesJob job }

/-- The least slack that packets of some cargo have left, what they waited where they stand deducted, and whether one of them is
exhausted. -/
def State.cargoSlack (s : State) (job : Nat) : Nat × Bool :=
  let l := s.reqs.filter fun r => r.carriesJob job
  ((l.map s.current).foldl min 4095, l.any Req.xh)

/-- Each exhausted packet of some cargo is counted against the strand that sent it (14 R318, 16 R372). -/
def State.countCargo (s : State) (job : Nat) : State := (s.reqs.filter fun r => r.carriesJob job).foldl (fun s r => s.countExhausted r) s

/-- A command of a strand slot whose answer came exhausted is counted once (14 R318). -/
def State.countSpent (s : State) (k slot : Nat) (xh : Bool) : State := s.countExhausted { s.blankReq k slot .pref with xh := xh }

/-- Data of a group's command for another device, in packets of up to five flits on VC 3 from the device root (log entry 52). -/
def State.mailGroup (s : State) (id dev rank code : Nat) (l : List Byte) (slack : Nat) (xh : Bool) : State :=
  let p := s.part id
  (List.range (max 1 (ceilDiv l.length 320))).foldl (fun s i =>
    let m := (l.drop (320 * i)).take 320
    s.mail (.router p.corner) p.corner
      (packHeader 0 dev 0 (rank / 4096) (rank % 4096) p.ten slack xh 3 (ceilDiv (max 1 m.length) 64 - 1) 0 false code 3 id)
      (m ++ List.replicate (64 * ceilDiv (max 1 m.length) 64 - m.length) 0)) s

/-- The number of what a group's packets carry: the kind (1 and 2 a tree's contribution and result, 3 and 4 a collective's, 5 to 7 a
repartition's histogram, splitters and items), a member's rank, and the number of the round or command. -/
def groupJob (kind rank job : Nat) : Nat := 2 ^ 64 * (kind + 16 * (rank + 2 ^ 26 * job))

/-! ### Grants (09 R197, 14 R315) -/

/-- The engine and the command of an engine's packet. -/
def ReqOp.command : ReqOp → Option (Nat × Nat)
  | .engine _ _ j _ => some (j % 8, j / 8 / 2 ^ 32)
  | _ => none

/-- Whether an engine's request would be beyond the 1,024 that its tile may hold unacknowledged to one target: it waits at the tile's port. -/
def State.beyondLimit (s : State) (r : Req) : Bool :=
  r.stage == .port && r.op.command.isSome &&
    decide (1024 ≤ (s.reqs.filter fun q => decide (q.id < r.id) && Req.unanswered s r.tile q && s.targetOf q == s.targetOf r).length)

/-- Whether an engine holds a request of a command back, before a number. -/
def State.jobHeld (s : State) (k : Nat) (command : Option (Nat × Nat)) (before : Nat) : Bool :=
  s.reqs.any fun q => decide (q.id < before) && decide (q.sdev = s.devId) && decide (q.tile = k) && q.op.command == command && s.beyondLimit q

/-- Whether a packet may leave its tile's port: an engine that holds a request starts nothing of the same command after it. -/
def State.mayLeave (s : State) (r : Req) : Bool :=
  r.stage != .port || r.op.command.isNone || !(s.beyondLimit r || s.jobHeld r.tile r.op.command r.id)

/-- The packet that the output from one point to another grants now, on the mesh or on the steal network. -/
def State.granted (s : State) (steal : Bool) (p q : Point) : Option Req :=
  let l := (s.outQueue p).filter fun r => r.onSteal == steal
  let key := outputKey p q + (if steal then 2 ^ 32 else 0)
  if !s.isFree key then none
  else s.winner key ((s.heads l).filter fun r => (s.nextHop r).map (·.1) == some q && s.credit q r && !s.passedBy l r && s.mayLeave r)

/-! ### Meanings: the way out -/

/-- What the port of a tile does with a read of bytes in transit (09 R185). -/
def State.portServes (s : State) (r : Req) : Served :=
  if r.immediateLoad && r.stage == .port then serveFrom (s.serving ((s.portStores r.tile).filter fun q => q.id < r.id) r) r.loc r.size else .free

/-- Whether a packet is one that its source keeps until an answer comes (09 R197): a request of this device. -/
def State.keeps (s : State) (r : Req) : Bool :=
  r.sdev == s.devId && r.stage != .reply && (match r.op with | .cargo .. | .transit .. => false | _ => true)

/-- A packet leaves its queue for the next point, or for another device; it occupies the output for its flits (14 R316). -/
def State.sendOn (s : State) (r : Req) (q : Point) : State :=
  let (s, r1) := s.depart r
  let s := { s with lastIn := assocPut s.lastIn (r.output r.place q) r.came.code }.occupy (r.output r.place q) r
  let stage := if r.stage = .port then .wire else r.stage
  match r.place, q with
  | .port l, .outside =>
    if s.keeps r then (s.setReq { r1 with stage := .outside, place := .outside, came := r.place }).emit (.packet l (r1.header s.devId) r1)
    else (s.dropReq r.id).emit (.packet l (r1.header s.devId) r1)
  | _, _ =>
    let s := s.dropReq r.id
    let course := match s.nextHop r with | some p => p.2 | none => none
    { s with reqs := s.reqs ++ [{ r1 with stage := stage, place := q, came := r.place, moving := true, course := course }] }

/-- Whether a packet on a wire has one of its VC before it there: packets of one VC arrive in the order in which they left. -/
def State.overtakes (s : State) (r : Req) : Bool :=
  (s.reqs.takeWhile fun q => q.id != r.id).any fun q => q.moving && q.stage != .cut && q.place == r.place && q.came == r.came && q.vc == r.vc && q.onSteal == r.onSteal

/-- PACKET_GRANT (14 R314, R315): the output that leads to the next point of the packet of the event's number grants it, if it is the one
that R315 names. At its tile's port a read may be served from a store in transit; a packet that no path leads on is lost (09 R198). -/
def execPacketGrant (s : State) : Out :=
  match s.req s.cur.ev.id with
  | none => .next s
  | some r =>
    if r.moving then .next s
    else match r.stage with
    | .port | .wire | .forward | .reply =>
      match s.portServes r with
      | .part => .next s
      | .all l => .next ((s.observe r (s.serving ((s.portStores r.tile).filter fun q => q.id < r.id) r)).answer r (.data l) 0)
      | .free =>
        if s.goal r = some r.place ∧ r.place.isPort = false then .next s
        else match s.nextHop r with
          | none => .next (s.losePath r)
          | some q => if (s.granted r.onSteal r.place q.1).map (·.id) = some r.id then .next (s.sendOn r q.1) else .next s
    | _ => .next s

/-- The operation that a packet from another device asks for, by its OP (14 Table 14.2). -/
def inboundOp (op n : Nat) (w : Word) (l : List Byte) : Option ReqOp :=
  if (0x20 ≤ op ∧ op ≤ 0x26) ∨ op = 0x2B ∨ op = 0x2D ∨ op = 0x30 ∨ op = 0x32 ∨ op = 0x38 ∨ op = 0x39 then some (.load .zero)
  else if op = 0x64 then some (if l = [] then .load .zero else .store l)
  else if (0x27 ≤ op ∧ op ≤ 0x2A) ∨ op = 0x2C ∨ op = 0x2E ∨ op = 0x31 ∨ op = 0x33 ∨ op = 0x3A ∨ op = 0x3B then some (.store l)
  else match op with
    | 0x53 => some (.red .addS64 w)
    | 0x54 => some (.red .addF32 w)
    | 0x55 => some (.red .addBf16 w)
    | 0x56 => some (.red .addBf16Sr w)
    | 0x57 => some (.red .minS64 w)
    | 0x58 => some (.red .maxS64 w)
    | 0x59 => some (.red .maxF32 w)
    | 0x5A => some (.red .or64 w)
    | 0x2F => some .pref
    | 0x80 | 0x81 => some (.message l)
    | 0x8A => some (.token (n / 64) (n % 64))
    | 0x8B => some (.count n w.toNat)
    | _ => none

/-- Whether a port discards a packet as a link error (14 R310): more than five flits, a VC never sent, or a tenant that no partition
here has. -/
def State.badHeader (s : State) (e : Ev) : Bool :=
  decide (4 < headerField e.hdr 39 37) || decide (5 < headerField e.hdr 42 40) || decide (320 < e.bytes.length) ||
    !s.parts.any fun p => p.2.valid && p.2.ten == headerField e.hdr 59 56

/-- Whether a request carries a message from another partition (15 R339). -/
def Req.isXp (r : Req) : Bool :=
  match r.op with
  | .message l => bitOf (word (ofBytes (l.take 8))) 1
  | _ => false

/-- A packet from another device as its header and payload give it: the location, size and operands stand in the payload. A request for
memory here has space 3, and its header names the translating station; messages and tokens name a tile of this device. Barrier and management packets, contributions and
results of the combining tree, moved contexts and packets for another device stay as they are. It stands at the port by which it came, where a message from another partition is told its tile (15 R335). -/
def State.inbound (s : State) (e : Ev) : Option Req :=
  let f := headerField e.hdr
  let own := f 111 98 == s.devId && !([0xF3, 0xFA, 0x18, 0x85, 0x86].contains (f 31 24))
  let op := if own then inboundOp (f 31 24) e.b e.w e.bytes else some (.transit e.hdr e.bytes)
  op.map fun op =>
    let r : Req := { s.blankReq (f 71 60) (f 36 33) op with
      seq := f 127 112, sdev := f 85 72, sv := bitOf (word (f 32 32)) 0, part := f 15 0, ten := f 59 56,
      space := if op.isMemory then 3 else 1, dev := f 111 98
      ttile := f 97 86, loc := e.a, size := if e.bytes = [] then e.b else e.bytes.length, ptr := e.w, slack := f 55 44, xh := f 43 43 == 1, xhAt := s.gclk
      stage := .wire, place := .port e.tile, came := .outside, acc := accessRecord (f 31 24) 0 e.bytes.length e.w [] }
    if r.isXp then { r with stage := .target } else r

/-- A packet of another device reaches a port (14 R309, R310, R322): one that the port's buffer has no room for stays on its way; one with a
malformed header is discarded as a link error. -/
def State.arriveOutside (s : State) (e : Ev) : State :=
  if headerField e.hdr 85 72 = s.devId then s
  else if s.badHeader e then { s with linkErrs := bump s.linkErrs e.tile }
  else match s.inbound e with
    | none => s
    | some r =>
      if !s.bufferCredit e.tile (.port e.tile) r then s
      else
        let s := { s with reqs := s.reqs ++ [r], nextReq := s.nextReq + 1 }
        if s.admits r r.place then s else s.rejectReq r

/-- The stage of a packet that has come to its goal: a translating station translates a request, any other goal is its target. -/
def Req.arrived (r : Req) : Stage :=
  match r.place, r.op with
  | .station _, .visit .. | .station _, .cargo .. => .target
  | .station _, _ => .xlate
  | _, _ => .target

/-- The bytes of a packet that moved through a station, a link or a port count for its partition (18 R431). -/
def State.countMoved (s : State) (r : Req) : State :=
  match r.place with
  | .station _ | .link .. | .port _ =>
    let key := 65536 * r.place.code + r.part % 65536
    { s with moved := assocPut s.moved key ((assoc s.moved key).getD 0 + 64 * r.flits) }
  | _ => s

/-- PACKET_ARRIVAL: the packet of the event's number reaches its next point, where it is discarded if its tenant is not admitted
(14 R309); at its goal it joins the queue there. Without such a packet, one of another device arrives at port `tile` (14 R310). -/
def execPacketArrival (s : State) : Out :=
  match s.req s.cur.ev.id with
  | some r =>
    if !r.moving || r.stage == .cut || s.overtakes r then .next s
    else
    let s := s.countMoved r
    match r.stage with
      | .wire =>
        if !s.admits r r.place then .next (s.rejectReq r)
        else if s.goal r = some r.place ∧ r.place.isPort = false then .next (s.enqueue { r with stage := r.arrived })
        else .next (s.enqueue r)
      | .forward | .reply => if s.goal r = some r.place ∧ r.place.isPort = false then .next s else .next (s.enqueue r)
      | _ => .next s
  | none => .next (s.arriveOutside s.cur.ev)

/-- What an access needs of its page. DESIGN CHOICE: an access that reads and writes needs write permission alone, and so does RLSV, which
does neither (log entry 69). -/
def ReqOp.need : ReqOp → Need
  | .load _ | .lrw | .waitv .. | .pref | .engine false .. => .read
  | _ => .write

/-- The virtual address and partition of a space-11 access at its target (07 R144): the address, or the cause. -/
def State.exported (s : State) (r : Req) : Nat ⊕ Nat :=
  match (r.party s).part with
  | none => .inl 0x065
  | some id =>
    if (s.part id).explen.toNat < r.loc + (if r.op.isOwn then 1 else r.size) then .inl 0x066 else .inr ((s.part id).expbase.toNat + r.loc)

/-- The translation of a request (07 R145, R146). -/
def State.translateReq (s : State) (r : Req) (old : List Stale) : Xlate :=
  if r.space = 3 then
    match s.exported r with
    | .inl c => .fault c
    | .inr va => s.translate old (r.party s).part va r.op.need
  else s.translate old (r.party s).part r.loc r.op.need

/-- The requests that wait for a walker of a station, in the order of their arrival. -/
def State.walkQueue (s : State) (p : Point) : List Req := s.reqs.filter fun r => r.place == p && !r.moving && r.stage == .xlate

/-- The request that the next walker of a station takes (07 R146, 14 R315). -/
def State.nextWalk (s : State) (p : Point) : Option Req :=
  let l := (s.walkQueue p).filter fun r => !s.early r
  s.winner (outputKey p .outside + 1) (s.heads (l.filter fun r => !s.passedBy l r))

/-- The home of the table entry that a MAPT is for, where its table is present (17 R398). -/
def State.maptHome (s : State) (ctx va lvl : Nat) : Option Nat := (s.maptPath ctx va lvl).2

/-- A translated request is forwarded to a home, which the station's window keeps (09 R197). -/
def State.forwardTo (s : State) (r : Req) (pa : Option Nat) : State :=
  let s := s.note r .none pa
  { s with nextReq := s.nextReq + 1 }.enqueue { r with pa := pa, stage := .forward, came := r.place, accepted := r.accepted <|> some s.nextReq }

/-- TRANSLATION_WALK: the translating station translates the request of the event's number, the next in its order, using a replaced entry
when `ok` is set (17 R400). One that its window knows is forwarded to the recorded home (09 R197). A read may be served from a store
in transit of its die. A station that has applied an abort answers with a discard (13 R289). -/
def execTranslationWalk (s : State) : Out :=
  match s.req s.cur.ev.id with
  | none => .next s
  | some r =>
    if r.stage ≠ .xlate ∨ (s.nextWalk r.place).map (·.id) ≠ some r.id then .next s
    else if s.discards r.part r.node then let (s, r) := s.depart r; .next (s.answer r .discard 0)
    else
      let held := s.serving (s.stationStores (r.tile / 1024)) r
      let served := if r.immediateLoad && r.sdev == s.devId then serveFrom held r.loc r.size else .free
      match served with
      | .part => .next s
      | .all l => let (s, r) := s.depart r; .next ((s.observe r held).answer r (.data l) 0)
      | .free =>
        let known := s.windowEntry r
        let (s, r) := s.depart r
        match known, r.op with
        | some w, _ => .next (s.forwardTo r w.fwd)
        | none, .mapt ctx va lvl _ => .next (s.forwardTo r (if lvl = 0 ∨ 4 < lvl ∨ !(s.part ctx).valid then none else s.maptHome ctx va lvl))
        | none, op =>
          match s.translateReq r (s.staleFor s.cur.ev.ok) with
          | .missing pa => if op = .pref then .next (s.answer r .none 0) else .fault (.noMemory pa)
          | .fault c => .next (s.answer r (if op = .pref then .none else .fault c) 0)
          | .at pa => if op = .pref then .next (s.answer r .none 0) else .next (s.forwardTo r (some pa))

/-- FORWARDED_ACCESS: the request reaches its home station. -/
def execForwardedAccess (s : State) : Out :=
  match s.req s.cur.ev.id with
  | some r => if r.stage = .forward ∧ r.moving ∧ s.goal r = some r.place ∧ s.overtakes r = false then .next ((s.countMoved r).enqueue { r with stage := .target }) else .next s
  | none => .next s

/-- The request begins to wait at its target, behind those that wait already. -/
def State.startWait (s : State) (r : Req) : State := s.enqueue { r with stage := .waiting, granted := s.gclk }

/-- Whether a target must hold a read back until a commit or an abort in progress is over (13 R290, 01 R14). -/
def State.mustHold (s : State) (r : Req) : Bool :=
  r.op.reads && (match r.pa with
    | some pa => s.heldBack (r.party s).part pa r.size
    | none => r.space == 1 && s.tileHeld (r.party s).part r.ttile)

/-- The memory requests that wait for service at a target, in the order of their arrival. -/
def State.serviceQueue (s : State) (p : Point) : List Req :=
  s.reqs.filter fun r => r.place == p && !r.moving && r.stage == .target && r.op.isMemory

/-- Whether a request can be served now: no earlier one for common bytes stands before it but such as wait for room, it is not held back,
and there is room if it may have to wait. -/
def State.servable (s : State) (l : List Req) (r : Req) : Bool :=
  !s.mustHold r && s.waitRoom r && !s.behind r &&
    !(l.takeWhile fun q => q.id != r.id).any fun q => s.meets r q && s.waitRoom q && !s.behind q

/-- The request that a target serves next (14 R315). -/
def State.nextService (s : State) (p : Point) : Option Req :=
  let l := s.serviceQueue p
  s.winner (outputKey p .outside + 2) (s.heads (l.filter (s.servable l)))

/-- The half of a 16-byte access that is performed first, and the other (07 R155, 09 R184). -/
def Req.halfOf (r : Req) (low : Bool) : Req :=
  let off := if low then 0 else 8
  { r with
    size := 8, loc := r.loc + off, pa := r.pa.map (· + off)
    op := match r.op with
      | .store l => .store (if low then l.take 8 else l.drop 8)
      | op => op }

/-- Whether an access consists of two single-copy atomic halves (09 R184). -/
def Req.isPair (r : Req) : Bool := decide (r.size = 16) && (match r.op with | .load _ | .store _ => true | _ => false)

/-- What a target answers to a request: a recorded reply where its window knows the sequence number, but a read is performed again
(09 R197); a pair of which one half is done does the other. -/
def State.serve (s : State) (r : Req) : State × Option Reply :=
  match s.windowEntry r, r.op with
  | some _, .load _ => s.perform r
  | some w, _ => (s, some w.reply)
  | none, _ =>
    if r.half = [] then s.perform r
    else match s.perform (r.halfOf false) with
      | (s, some (.data l)) => (s, some (.data (r.half ++ l)))
      | p => p

/-- The first half of a pair is performed, unless the whole would fail. -/
def State.serveHalf (s : State) (r : Req) : Option State :=
  match s.perform r with
  | (_, some (.fault _)) | (_, some (.capacity _)) | (_, none) => none
  | _ =>
    match s.perform (r.halfOf true) with
    | (s, some (.data l)) => some (s.setReq { r with half := l })
    | (s, _) => some (s.setReq { r with half := List.replicate 8 0 })

/-- Whether an abort ends a request: not an XINV (17 R399). -/
def ReqOp.isUndone : ReqOp → Bool
  | .visit .. => false
  | _ => true

/-- A target port or home station serves a request, the next in its order, in `b` grains; with `ok` only the first half of a pair. Between
an abort's DECIDE and OPEN it answers with a discard (13 R289); an access to a bank in retention wakes it and waits (06 R125); a
reservation or a condition that is not met waits. -/
def State.serviceOf (s : State) (r : Req) : Out :=
  if r.stage ≠ .target ∨ !r.op.isMemory ∨ (s.nextService r.place).map (·.id) ≠ some r.id then .next s
  else
    let (s1, r1) := s.depart r
    if s.discards r.part r.node && r.op.isUndone then .next (s1.answer r1 .discard s.cur.ev.b)
    else if s.belowScratch r then .next (s1.reply r1 (.fault 0x0A0) s.cur.ev.b)
    else if r.inTile && (s.tile r.ttile).asleep r.loc r.size then .next (s.touchBanks r.ttile r.loc r.size)
    else
      let s1 := if r.inTile then s1.touchBanks r.ttile r.loc r.size else s1
      let half := if s.cur.ev.ok && r.isPair && r.half.isEmpty && (s.windowEntry r).isNone then s.serveHalf r else none
      match half with
      | some s' => State.finish s'
      | none =>
        let s1 := { s1 with lastIn := assocPut s1.lastIn (outputKey r.place .outside + 2) r.came.code }
        match s1.serve r1 with
        | (s2, some a) => State.finish (s2.reply r1 a s.cur.ev.b)
        | (s2, none) => .next (s2.startWait r1)

/-- REMOTE_ACCESS_SERVICE (08 R163): a target serves the request of the event's number. -/
def execRemoteAccessService (s : State) : Out :=
  match s.req s.cur.ev.id with
  | none => .next s
  | some r => s.serviceOf r

/-! ### Meanings: what waits at a target -/

/-- A waiting request is granted: the grains it waited are deducted from its slack (08 R164, 09 R204). -/
def State.wakeReq (s : State) (r : Req) (a : Reply) : State := s.reply r a (s.gclk - r.granted)

/-- Requests that wait at their targets and whose slack reaches 0 are marked exhausted and counted, and wait on (08 R164, 09 R204). -/
def State.exhaustWaiting (s : State) : State :=
  s.reqs.foldl (fun s r =>
    if r.stage == .waiting && !r.xh && decide (r.slack ≤ s.gclk - r.granted) then
      (s.countAt r.place.code).setReq { r with xh := true, xhAt := r.granted + r.slack }
    else s) s

/-- RESERVATION_GRANT (08 R167): the head of a word's queue is granted once the word has no holder. -/
def execReservationGrant (s : State) : Out :=
  match s.req s.cur.ev.id with
  | none => .next s
  | some r =>
    match r.op, r.pa with
    | .lrw, some pa =>
      let head := s.reqs.find? fun q => q.awaits (pa / 8)
      if r.stage = .waiting ∧ (s.holderOf (pa / 8)).isNone ∧ head.map (·.id) = some r.id ∧ s.discards r.part r.node = false ∧
          s.mustHold r = false then
        let (s', a) := s.grant r pa
        .next (s'.wakeReq r a)
      else .next s
    | _, _ => .next s

/-- RESERVATION_REVOKE_TIMEOUT (08 R167): the station revokes a reservation 4,096 grains after its grant. -/
def execReservationRevokeTimeout (s : State) : Out :=
  match s.holderOf s.cur.ev.a with
  | some h => if h.since + 4096 ≤ s.gclk then .next (s.endReservation h.word) else .next s
  | none => .next s

/-- Whether the condition of a waiting WAITV holds, or its read fails, and the answer (09 R203). -/
def State.monitorAnswer (s : State) (r : Req) : Option Reply :=
  if s.mustHold r then none
  else match r.op with
  | .waitv c b =>
    match s.targetRead r with
    | .data l => if c.holds r.size (ofBytes l) b then some (.value (word (ofBytes l))) else none
    | q => some q
  | _ => none

/-- The monitors of a state are evaluated after a write (09 R203). -/
def State.serveMonitors (s : State) : State :=
  (s.reqs.filter fun r => r.stage == .waiting).foldl
    (fun s r => match s.monitorAnswer r with
      | some a => s.wakeReq r a
      | none => s) s

/-- WAITV_MONITOR_FREE (09 R204): a WAITV that waited for a free monitor, the next in order, takes one, or is answered. -/
def execWaitvMonitorFree (s : State) : Out :=
  match s.req s.cur.ev.id with
  | none => .next s
  | some r =>
    match r.op with
    | .waitv .. => s.serviceOf r
    | _ => .next s

/-! ### Meanings: the way back -/

/-- The answer of another device, as its packet gives it: data, an acknowledgement, a fault, an exhausted capacity (13 R279) or a
discard. -/
def Ev.reply (e : Ev) : Reply :=
  match e.op with
  | 0xF1 => if isCapacity e.a then .capacity e.a else .fault e.a
  | 0xF2 => .discard
  | _ => if e.bytes = [] then .none else .data e.bytes

/-- Whether data from another device are an answer to a request: they have its length. -/
def Req.fits (r : Req) (a : Reply) : Bool :=
  match a with
  | .data l => l.length == r.size
  | .none => (match r.op with | .load _ | .engine false .. => false | _ => true)
  | _ => true

/-- Whether an answer stands at its source: it has come over the last wire, or was made there. -/
def State.atSource (s : State) (r : Req) : Bool :=
  r.stage == .reply && r.sdev == s.devId && s.goal r == some r.place && decide (r.due ≤ s.cyc) && !(r.moving && s.overtakes r)

/-- REPLY_ARRIVAL (07 R148): the answer reaches the source; that of another device comes with the event. A discard leaves the request
without effect until the abort restores its strand (13 R289). -/
def execReplyArrival (s : State) : Out :=
  match s.req s.cur.ev.id with
  | none => .next s
  | some r =>
    if r.stage = .outside then
      if !r.fits s.cur.ev.reply then .next s else
      .next (s.completeReq { r with stage := .reply, reply := s.cur.ev.reply, xh := r.xh || s.cur.ev.ok, performed := true })
    else if s.atSource r && !r.reply.isNotice then .next (s.completeReq r)
    else .next s

/-- REJECT_NOTICE_ARRIVAL (14 R309): the access completes as a fault with cause 0x101. -/
def execRejectNoticeArrival (s : State) : Out :=
  match s.req s.cur.ev.id with
  | some r =>
    if (s.atSource r && r.reply == .reject) || (r.stage == .outside && s.cur.ev.ok) then
      .next (s.completeReq { r with stage := .reply, reply := .reject, xh := true })
    else .next s
  | none => .next s

/-- A request is sent again from its tile's port, with the same sequence number and the slack that it was issued with; the notice that brought
it back counts as an exhausted answer, once (14 R318, 09 R197). -/
def State.retransmit (s : State) (r : Req) : State :=
  let s := s.countExhausted { r with xh := true }
  s.enqueue { r with
    stage := .port, place := .tile r.tile, came := .strand 0, reply := .none, slack := r.budget, xh := false, counted := true, pa := none, half := []
    course := none, performed := false }

/-- PATH_LOST_NOTICE (14 R323, 09 R197): the notice for the packet of the event's number has come to its source, over this device's links or
from another device, and the request is sent again; an answer that was cut off is sent again by its target. Where no alternate remains the
port finds no path (R198). -/
def execPathLostNotice (s : State) : Out :=
  match s.req s.cur.ev.id with
  | none => .next s
  | some r =>
    if r.stage = .cut then
      let p := match r.pa with
        | some pa => Point.station (homeStation pa)
        | none => .tile r.ttile
      .next (s.enqueue { r with stage := .reply, place := p, came := p })
    else if (s.atSource r && r.reply == .pathLost) || r.stage == .outside then .next (s.retransmit r)
    else .next s

/-- OWN_TLM_LOAD_RETURN (07 R151): a load of this tile's TLM returns its data, once its bank is awake. -/
def execOwnTlmLoadReturn (s : State) : Out :=
  let k := s.cur.ev.tile
  let t := s.tile k
  match t.eng.ownLoads.find? fun l => l.id == s.cur.ev.id with
  | none => .next s
  | some l =>
    if s.cyc < l.due ∨ t.retained.getLsbD l.bank then .next s
    else
      .next ((s.modEng k fun g => { g with ownLoads := g.ownLoads.filter fun q => q.id != l.id }).modStrand k l.slot fun st =>
        l.dests.foldl (fun st d => st.land d.1 d.2) st)

end Sys2Proof.Machine
end

