-- ==== Sys2Proof/Machine/Control.lean ====
section
/-! DEFINITION. Control transfers, the end of strands, tasks, membership sets, and stealing (06). -/

namespace Sys2Proof.Machine

/-! ### Control transfers (06 R127) -/

/-- A control transfer: a misaligned target traps after issue and nothing else is done; otherwise a register may be written
and the pc is the target or the next bundle. -/
def State.transfer (s : State) (taken : Bool) (t : Word) (wr : Option (Reg × Word)) : Out :=
  if taken && fieldOf t 2 0 != 0 then .next (s.trapAfter 0x081 t)
  else
    let s := match wr with
      | some (r, v) => s.putX 1 r v
      | none => s
    .next (s.modMe fun st => { st with pc := if taken then t else s.cur.pc + 8 })

/-- The target at an offset in bundles. -/
def State.relative (s : State) (off : BitVec 32) : Word := s.cur.pc + 8 * off.signExtend 64

/-- The link register's new value. -/
def State.link (s : State) : Option (Reg × Word) := some (15, s.cur.pc + 8)

/-- BR. -/
def execBr (xa : Reg) (s : State) : Out := s.transfer true (s.rx xa) none

/-- BRL. -/
def execBrl (xa : Reg) (s : State) : Out := s.transfer true (s.rx xa) s.link

/-- BRI. -/
def execBri (off : BitVec 32) (s : State) : Out := s.transfer true (s.relative off) none

/-- BRLI. -/
def execBrli (off : BitVec 32) (s : State) : Out := s.transfer true (s.relative off) s.link

/-- RET. -/
def execRet (s : State) : Out := s.transfer true (s.rx 15) none

/-- LOOP. -/
def execLoop (xa : Reg) (off : BitVec 32) (s : State) : Out :=
  s.transfer (s.rx xa - 1 != 0) (s.relative off) (some (xa, s.rx xa - 1))

/-- BEQ. -/
def execBeq (xa xb : Reg) (off : BitVec 32) (s : State) : Out := s.transfer (s.rx xa == s.rx xb) (s.relative off) none

/-- BNE. -/
def execBne (xa xb : Reg) (off : BitVec 32) (s : State) : Out := s.transfer (s.rx xa != s.rx xb) (s.relative off) none

/-- BLT.s. -/
def execBltS (xa xb : Reg) (off : BitVec 32) (s : State) : Out :=
  s.transfer ((s.rx xa).slt (s.rx xb)) (s.relative off) none

/-- BLT.z. -/
def execBltZ (xa xb : Reg) (off : BitVec 32) (s : State) : Out :=
  s.transfer ((s.rx xa).ult (s.rx xb)) (s.relative off) none

/-- BGE.s. -/
def execBgeS (xa xb : Reg) (off : BitVec 32) (s : State) : Out :=
  s.transfer (!(s.rx xa).slt (s.rx xb)) (s.relative off) none

/-- BGE.z. -/
def execBgeZ (xa xb : Reg) (off : BitVec 32) (s : State) : Out :=
  s.transfer (!(s.rx xa).ult (s.rx xb)) (s.relative off) none

/-! ### NOP, YIELD, SIGCHK (06 R128, R134) -/

/-- NOP. -/
def execNop (s : State) : Out := .next s

/-- YIELD: the strand sleeps for 16 cycles. -/
def execYield (s : State) : Out := .next (s.sleepOn (.yield (s.cyc + 16)))

/-- YIELD_WAKE: the sleep of YIELD expires. -/
def execYieldWake (s : State) : Out :=
  let k := s.cur.ev.tile
  let n := s.cur.ev.slot
  match (s.strand k n).sleep with
  | .yield till => if till ≤ s.cyc then .next (s.modStrand k n Strand.wake) else .next s
  | _ => .next s

/-- SIGCHK (06 R134): SIG starts again from 0xFFFF, and a mismatch traps with EPC at the next bundle; it sets a sticky abort vote
where SSPOL.SIGVOTE says so (13 Table 13.5). -/
def execSigchk (sig : BitVec 16) (s : State) : Out :=
  let had := s.me.sig
  let s := s.modMe fun st => { st with sig := 0xFFFF }
  let sticky := match s.partOf s.cur.tile with
    | some id => s.versioned s.cur.tile && bitOf (s.part id).sspol 1
    | none => false
  let s := if had != sig && sticky then s.modTile s.cur.tile fun t => { t with vote := true } else s
  if had = sig then .next s else .next (s.trapNext 0x140 (word (sig.toNat * 2 ^ 16 + had.toNat)))

/-! ### The end of a strand (06 R129) -/

/-- What the A slot of the bundle that ends a strand has queued runs on, and its result finds no register: the strand that waits for
it is gone. The model keeps it under slot 16 (log entry 59). -/
def TileEng.orphan (g : TileEng) (n : Nat) : TileEng :=
  let from16 (c : Cmd) : Cmd := if c.slot = n then { c with slot := 16 } else c
  { g with
    divq := g.divq.map fun d => if d.slot = n then { d with slot := 16 } else d
    mq := g.mq.map from16, vcq := g.vcq.map from16 }

/-- The reservations of a strand are released (08 R167). -/
def State.releaseAll (s : State) (k n : Nat) : State :=
  { s with holders := s.holders.filter fun h => !(decide (h.tile = k) && decide (h.slot = n)) }

/-- A slot whose strand has ended: free, with the registers as the strand left them (22 R454). -/
def Strand.ended (st : Strand) : Strand :=
  { st.endShadows with
    st := .free, move := none, banks := 0, pend := 0, pendP := 0, sleep := .awake, handling := [], fetched := none, faults := [], held := []
    resv := [], seen := [], prior := [] }

/-- A strand ends: it leaves its sets, its reservations are released (08 R168), and its slot is free. A fault of a posted access that
it leaves behind has no strand to take it. -/
def State.endStrand (s : State) : State :=
  let k := s.cur.tile
  let n := s.cur.slot
  let s := (s.modCore k fun c => c.leaveAll n).releaseAll k n
  let s := { s with
    reqs := s.reqs.map fun (r : Req) => if r.sdev = s.devId ∧ r.tile = k ∧ r.slot = n ∧ r.sv = true then { r with posted := false } else r }
  (s.modEng k fun g => g.orphan n).modStrand k n Strand.ended

/-- Whether some register of the strand was pending as its bundle began (02 R28). -/
def State.anyPending (s : State) : Bool := s.cur.pend != 0 || s.cur.pendP != 0

/-- HALT. -/
def execHalt (s : State) : Out := if s.anyPending then .next s.hold else .next s.endStrand

/-- TASKEND. -/
def execTaskend (s : State) : Out :=
  if s.anyPending then .next s.hold
  else .next (s.endStrand.modCore s.cur.tile fun c => { c with dqDone := (c.dqDone + 1) % 2 ^ 64 })

/-- The keep entry that the last strand of a slot made. -/
def newestKeep (l : List KeepEntry) (n : Nat) : Option KeepEntry := (l.filter fun e => e.slot == n).getLast?

/-- A keep entry ends (06 R111, R125): its slot is no longer kept when the slot's last strand made the entry. -/
def TileCore.endKeep (c : TileCore) (e : KeepEntry) : TileCore :=
  let rest := c.keeps.erase e
  let ends := newestKeep c.keeps e.slot == some e && newestKeep rest e.slot != some e
  let c := { c with keeps := rest }
  if ends && (c.strand e.slot).st == .kept then c.modStrand e.slot fun st => { st with st := .free } else c

/-- HALT.keep (06 R125): the strand's banks stay powered in a keep entry; with 4 in use the oldest is replaced. -/
def execHaltKeep (xa : Reg) (s : State) : Out :=
  if s.anyPending then .next s.hold
  else
    let e : KeepEntry := ⟨s.me.banks, s.rx xa, s.cur.slot⟩
    let s := s.endStrand
    .next (s.modCore s.cur.tile fun c =>
      let c := match c.keeps with
        | o :: l => if 4 ≤ (o :: l).length then c.endKeep o else c
        | [] => c
      { c with keeps := c.keeps ++ [e] }.modStrand e.slot fun st => { st with st := .kept })

/-! ### Tasks (06 R113, R118-R121, R130) -/

/-- Inputs used by a task: NIN of its flags (06 Table 6.4). -/
def taskNin (flags : Word) : Nat := fieldOf flags 22 20

/-- LEN and DST of an input declaration (06 Table 6.5). -/
def inputLen (w : Word) : Nat := fieldOf w 39 20

/-- DST of an input declaration. -/
def inputDst (w : Word) : Nat := fieldOf w 18 0

/-- A task record from its 16 words (06 Table 6.3). -/
def taskOf (w : Nat → Word) : Task :=
  let flags := w 1
  { pc := w 0, flags := flags, args := (List.range 6).map fun i => w (2 + i),
    ins := (List.range 4).map fun i => (w (8 + 2 * i), w (9 + 2 * i)),
    fetch := (List.range (taskNin flags)).map fun _ => ⟨false, 0, none⟩ }

/-- Whether a task record is valid (06 R130). -/
def taskValid (t : Task) : Bool :=
  fieldOf t.flags 63 31 == 0 && fieldOf t.flags 19 18 == 0 && fieldOf t.flags 15 13 == 0 &&
    decide (taskNin t.flags ≤ 4) && fieldOf t.pc 2 0 == 0 && fieldOf t.pc 63 48 == 0 &&
    (t.ins.take (taskNin t.flags)).all fun d =>
      fieldOf d.2 63 40 == 0 && fieldOf d.2 19 19 == 0 && decide (inputDst d.2 + inputLen d.2 ≤ 0x80000)

/-- The word of SPAWN's record at an index. -/
def State.recordWord (s : State) (k loc i : Nat) : Word := word (s.tlmNat k (loc + 8 * i) 8)

/-- SPAWN (06 R130, 17 R465). -/
def execSpawn (xa xd : Reg) (s : State) : Out :=
  let k := s.cur.tile
  let w := s.rx xa
  let loc := ptrLoc w
  match s.ownCause k s.priv w 128 8 false with
  | some c => if c = 0x04A then .next (s.trapAtIssue c w) else .next (s.trapAfter c w)
  | none =>
    if badRange (s.tile k).bad loc 128 then .next ((s.castAbort k 0x141).trapAfter 0x141 w)
    else
      let t := taskOf (s.recordWord k loc)
      if !taskValid t then .next (s.trapAtIssue 0x0C5 w)
      else
        let s := (s.touch k s.cur.slot loc 128).awaitBanks k s.cur.slot loc 128
        let n := (s.tile k).core.deque.length
        if Config.dequeCap ≤ n then
          .next ((s.modCore k fun c => { c with dqFull := (c.dqFull + 1) % 2 ^ 64 }).landX k s.cur.slot xd 0)
        else
          .next ((s.modCore k fun c =>
            { c with deque := t :: c.deque, dqSpawn := (c.dqSpawn + 1) % 2 ^ 64 }).landX k s.cur.slot xd (word (n + 1)))

/-- Whether every used input of a record has written its status (06 R119). -/
def Task.ready (t : Task) : Bool := t.fetch.all fun f => f.status.isSome

/-- The completion code of a status word (01 Table 1.2). -/
def statusCode (w : Word) : Nat := fieldOf w 47 40

/-- x6 of a new task: the status of the lowest-numbered input that did not end with DONE (06 R113). -/
def Task.failed (t : Task) : Word :=
  ((t.fetch.filterMap fun f => f.status).find? fun w => statusCode w != 0).getD 0

/-- The free slots among 0-14 (06 R111). -/
def TileCore.freeSlots (c : TileCore) : List Nat := (List.range 15).filter fun n => (c.strand n).st != .live

/-- The strand that a task starts (06 R113). -/
def taskStrand (t : Tile) (n : Nat) (ktab : Vector (BitVec 12) 8) (task : Task) (banks : BitVec 32) : Strand :=
  let x0 := (List.range 6).foldl (fun x i => vset x i (task.args.getD i 0)) Strand.free.x
  let x1 := vset (vset (vset (vset x0 6 task.failed) 7 task.flags) 13 (t.stack n)) 14 0x00FFF80000000000
  { Strand.free with
    st := .live, x := x1, k := ktab, pc := task.pc, sstat := setField 0 0 0 (fieldOf task.flags 12 12), banks := banks }

/-- A strand joins a set (06 R131). -/
def TileCore.join (c : TileCore) (n i : Nat) : TileCore :=
  let m := vget c.sets i ⟨0, 0⟩
  { c with sets := vset c.sets i { m with members := m.members ||| (1#16 <<< n) } }

/-- The slack table that new strands of a tile receive (18 R421). -/
def State.ktabOf (s : State) (k : Nat) : Vector (BitVec 12) 8 :=
  match s.partOf k with
  | some id => (s.part id).ktab
  | none => Strand.free.k

/-- The keep entries that a task ends, and their banks (06 R125). DESIGN CHOICE: of several with the task's pc as successor every one ends,
and all their banks are the task's (log entry 74). -/
def TileCore.startKeeps (c : TileCore) (pc : Word) : BitVec 32 × TileCore :=
  (c.keeps.filter fun e => e.succ == pc).foldl (fun p e => (p.1 ||| e.banks, p.2.endKeep e)) (0, c)

/-- TASK_POP (06 R113): the lowest free slot of the event's tile takes the bottom record once it is ready, at most one in a cycle. DESIGN
CHOICE: a tile that has arrived pops none before OPEN (log entry 75). -/
def execTaskPop (s : State) : Out :=
  let k := s.cur.ev.tile
  let t := s.tile k
  match t.core.deque, t.core.freeSlots with
  | task :: rest, n :: _ =>
    if !task.ready || !t.runs || t.arrived || decide (s.cyc < t.nextPop) then .next s
    else
      let (banks, c) := t.core.startKeeps task.pc
      let st := taskStrand t n (s.ktabOf k) task banks
      let c := { c with deque := rest }.modStrand n fun _ => st
      .next (s.setTile k { t with nextPop := s.cyc + 1, core := if bitOf task.flags 30 then c.join n (fieldOf task.flags 29 24) else c })
  | _, _ => .next s

/-! ### Membership sets (06 R123, R131) -/

/-- The set that a register names. -/
def State.setOf (s : State) (xa : Reg) : Nat := fieldOf (s.rx xa) 5 0

/-- JOIN. -/
def execJoin (xa : Reg) (s : State) : Out := .next (s.modCore s.cur.tile fun c => c.join s.cur.slot (s.setOf xa))

/-- LEAVE: a non-member that leaves has no effect. -/
def execLeave (xa : Reg) (s : State) : Out :=
  .next (s.modCore s.cur.tile fun c =>
    if (vget c.sets (s.setOf xa) ⟨0, 0⟩).members.getLsbD s.cur.slot then c.leaveSet s.cur.slot (s.setOf xa) else c)

/-- GBAR: the strand arrives and sleeps until the barrier completes. -/
def execGbar (xa : Reg) (s : State) : Out :=
  let i := s.setOf xa
  let n := s.cur.slot
  if !(vget (s.tile s.cur.tile).core.sets i ⟨0, 0⟩).members.getLsbD n then .next (s.trapAtIssue 0x120 (s.rx xa))
  else
    .next ((s.sleepOn (.gbar i)).modCore s.cur.tile fun c =>
      let m := vget c.sets i ⟨0, 0⟩
      { c with sets := vset c.sets i { m with arrived := m.arrived ||| (1#16 <<< n) } }.barrier i)

/-! ### WAITR (06 R132) -/

/-- WAITR. -/
def execWaitr (xa xd : Reg) (s : State) : Out :=
  let mask : BitVec 16 := (s.rx xa).setWidth 16
  let here := mask &&& ~~~s.cur.pend
  if mask = 0 ∨ here ≠ 0 then .next (s.putX 1 xd (here.setWidth 64)) else .next (s.sleepOn (.waitr xd mask))

/-- WAITR_WAKE: a named register stops being pending. -/
def execWaitrWake (s : State) : Out :=
  let k := s.cur.ev.tile
  let n := s.cur.ev.slot
  let st := s.strand k n
  match st.sleep with
  | .waitr xd mask =>
    let here := mask &&& ~~~st.pend
    if here = 0 then .next s else .next (s.modStrand k n fun st => (st.put (.x xd) (here.setWidth 64)).wake)
  | _ => .next s

/-! ### Contexts (06 Table 6.1) -/

/-- Words in their byte order. -/
def wordBytes (l : List Word) : List Byte := l.flatMap fun w => toBytes 8 w.toNat

/-- STATE of a context (06 Table 6.1). -/
def SlotState.code : SlotState → Nat
  | .free => 0
  | .live => 1
  | .kept => 2

/-- MSET of a slot: the sets it is a member of (06 Table 6.1). -/
def TileCore.mset (c : TileCore) (n : Nat) : Nat :=
  (List.range 64).foldl (fun m i => if (vget c.sets i ⟨0, 0⟩).members.getLsbD n then m + 2 ^ i else m) 0

/-- MV, MRD and MTGT of a context. -/
def Strand.moveWord (st : Strand) : Nat :=
  match st.move with
  | none => 0
  | some m => 2 ^ 63 + m.rd.toNat * 2 ^ 26 + m.dev % 2 ^ 14 * 2 ^ 12 + m.tile % 2 ^ 12

/-- The 256 bytes of a strand context (06 Table 6.1). -/
def Strand.contextBytes (st : Strand) (mset : Nat) : List Byte :=
  wordBytes (List.range 16 |>.map fun i => vget st.x i 0) ++ wordBytes [st.pc, st.sstat] ++
    toBytes 2 st.sig.toNat ++ toBytes 1 st.pred.toNat ++ toBytes 1 st.st.code ++ toBytes 4 0 ++ toBytes 8 mset ++
    toBytes 16 ((List.range 8).foldl (fun n i => n + (vget st.k i 0).toNat * 2 ^ (12 * i)) 0) ++
    wordBytes (List.range 8 |>.map fun i => vget st.copy i 0) ++ toBytes 8 st.moveWord ++ toBytes 8 st.banks.toNat

/-! ### MOVEAT (06 R133) -/

/-- Whether a tile of a device lies in the partition of tile `k`; the rectangle on another device is not known here (log entry 57). -/
def State.inPartition (s : State) (k dev tile : Nat) : Bool :=
  match s.partOf k with
  | none => false
  | some id => (s.part id).devs.contains dev &&
      (if dev = s.devId then (s.part id).holds tile else tile / 32 % 32 != 31 && Config.tileElsewhere id dev tile)

/-- The outstanding request of the strand ends, its destination written with 0. -/
def State.dropMove (s : State) : State :=
  s.modMe fun st => match st.move with
    | some m => { st.land (.x m.rd) 0 with move := none }
    | none => st

/-- MOVEAT: the request is recorded and acted on at a commit; the id 0xFFF cancels the one outstanding. -/
def execMoveat (xa xd : Reg) (k : SlackReg) (s : State) : Out :=
  let dev := fieldOf (s.rx xa) 25 12
  let tile := fieldOf (s.rx xa) 11 0
  if tile = 0xFFF then .next s.dropMove
  else if !s.inPartition s.cur.tile dev tile then .next (s.trapAtIssue 0x065 0)
  else .next (s.dropMove.modMe fun st => { st.mark (.x xd) with move := some ⟨xd, dev, tile, k⟩ })

/-- The strand after its move: the request is answered with where it is, no shadow lasts (02 R42), and its reservations are released
(08 R167). -/
def Strand.moved (st : Strand) (dev tile : Nat) : Strand :=
  let st := { st.endShadows with resv := [] }
  match st.move with
  | some m => { st.land (.x m.rd) (word (2 ^ 63 + dev * 2 ^ 12 + tile)) with move := none, last := none }
  | none => st

/-- A context arrives in the lowest free slot of a tile; without one it waits. -/
def State.settleMove (s : State) (tile : Nat) (ctx : Strand) : Option State :=
  match (s.tile tile).core.freeSlots with
  | n :: _ => some (s.modStrand tile n fun _ => ctx.moved s.devId tile)
  | [] => none

/-- The slack class of an outstanding MOVEAT, by which its message travels. -/
def Strand.moveSlack (st : Strand) : Nat :=
  match st.move with
  | some m => (vget st.k m.k.toNat 0xFFF).toNat
  | none => 0

/-- A context goes to another tile of the device as one message: its four flits stand for it, and it stands in the state itself. -/
def State.sendContext (s : State) (k n dst part : Nat) (st : Strand) : State :=
  let id := s.nextReq
  let s := { s with moving := s.moving ++ [(⟨id, k, dst, st, part⟩ : Moving)], nextReq := id + 1 }
  s.post { s.blankReq k n (.cargo .context 0x18 id 4 (.tile dst)) with ttile := dst, slack := st.moveSlack, came := .strand 5 }

/-- A context goes to a tile of another device: the packet holds its 256 bytes (06 R112). -/
def State.mailContext (s : State) (k n dev dst part : Nat) (st : Strand) : State :=
  let seq := (s.tile k).seq
  let hdr := packHeader seq dev dst s.devId k (s.part part).ten st.moveSlack false 2 3 n true 0x18 0 part
  (s.mail (.tile k) k hdr (st.contextBytes 0)).modTile k fun t => { t with seq := (seq + 1) % 65536 }

/-- A context that a packet of another device brings to a tile at this commit (13 R288): the event gives it as that device had it, what the
packet's bytes hold as they say. -/
def State.mailedContext (s : State) : Option (Nat × Strand) :=
  match s.letter s.cur.ev.id 0x18, s.cur.ev.ctx with
  | some (hdr, l), some ctx => if ctx.contextBytes 0 = l.take 256 then some (headerField hdr 97 86, ctx) else none
  | _, _ => none

/-- MOVEAT_ARRIVAL: the moving context of the event's number arrives, or one of another device that is bound for the tile at this
commit (13 R288). -/
def execMoveatArrival (s : State) : Out :=
  match s.moving.find? fun m => m.id == s.cur.ev.id with
  | some m =>
    if !s.landed m.id then .next s
    else match s.settleMove m.dst m.ctx with
    | some s => .next { s.unload m.id with moving := s.moving.filter fun q => q.id != m.id }
    | none => .next s
  | none =>
    match s.mailedContext with
    | some (k, ctx) =>
      match (s.tile k).coming, s.settleMove k ctx with
      | n + 1, some s => .next ((s.dropReq s.cur.ev.id).modTile k fun t => { t with coming := n })
      | _, _ => .next s
    | none => .next s

/-! ### Stealing (06 R122) -/

/-- The position of a ring's index relative to the thief, for ring `d` of 8 d places. -/
def spiralPlace (d i : Nat) : Int × Int :=
  let d' : Int := d
  if i ≤ d then (d', i)
  else if i ≤ 3 * d then (d' - (i - d : Nat), d')
  else if i ≤ 5 * d then (-d', d' - (i - 3 * d : Nat))
  else if i ≤ 7 * d then ((i - 5 * d : Nat) - d', -d')
  else (d', (i - 7 * d : Nat) - d')

/-- The victims of a whole spiral from ring `d`, index `i` on: each with its ring and index. -/
def Part.victims (p : Part) (thief : Nat) : List (Nat × Nat × Nat) :=
  (List.range (max p.pw p.ph)).tail.flatMap fun d =>
    (List.range (8 * d)).filterMap fun i =>
      let x := (gridX thief : Int) + (spiralPlace d i).1
      let y := (gridY thief : Int) + (spiralPlace d i).2
      if (p.orgx : Int) ≤ x ∧ x < p.orgx + p.pw ∧ (p.orgy : Int) ≤ y ∧ y < p.orgy + p.ph then
        some (d, i, gridId x.toNat y.toNat)
      else none

/-- Whether a tile is idle: no record, and one of slots 0-14 free. -/
def Tile.idle (t : Tile) : Bool := t.core.deque.isEmpty && !t.core.freeSlots.isEmpty

/-- STEAL_REQUEST: the event's tile, if idle, asks the next victim of its spiral. After a whole spiral without a record it
waits 256 grains. -/
def execStealRequest (s : State) : Out :=
  let k := s.cur.ev.tile
  let t := s.tile k
  match s.partOf k with
  | none => .next s
  | some id =>
    let p := s.part id
    let pos := t.core.steal
    if p.stealOff || t.arrived || !t.idle || !t.runs || pos.asking || pos.backoff.isSome then .next s
    else
      match (p.victims k).find? fun v => decide (pos.ring < v.1) || (v.1 == pos.ring && decide (pos.idx ≤ v.2.1)) with
      | none => .next (s.modCore k fun c => { c with steal := ⟨1, 0, false, some (s.gclk + 256)⟩ })
      | some v =>
        let id := s.nextReq
        .next ({ s.modCore k fun c => { c with steal := ⟨v.1, v.2.1 + 1, true, none⟩ } with
          steals := s.steals ++ [(⟨id, k, v.2.2, none⟩ : StealPacket)], nextReq := id + 1 }.ship k .steal 0xF4 id 1 (.tile v.2.2) 4095 none)

/-- A record that a thief may take: stealable, and no input fetch begun. -/
def Task.stealable (t : Task) : Bool := !bitOf t.flags 23 && t.fetch.all fun f => !f.begun

/-- The topmost record that may be taken, and the deque without it; the deque lists the bottom first. -/
def takeTop (l : List Task) : Option Task × List Task :=
  match l.reverse.find? Task.stealable with
  | some t => (some t, (l.reverse.erase t).reverse)
  | none => (none, l)

/-- Whether the tile of a steal request may give a record away: its partition steals. -/
def State.gives (s : State) (k : Nat) : Bool := (s.partOf k).any fun id => !(s.part id).stealOff

/-- STEAL_REQUEST_SERVICE: the victim of the event's packet answers, with two flits where it gives a record. DESIGN CHOICE: one that stands
between an abort's DECIDE and OPEN answers after OPEN, and one whose partition has STEALOFF set has no record to give (log entry 23). -/
def execStealRequestService (s : State) : Out :=
  match s.steals.find? fun q => q.id == s.cur.ev.id && q.reply.isNone with
  | none => .next s
  | some q =>
    if !s.landed q.id || (s.partOf q.victim).any fun id => s.discards id (.tile q.victim) then .next s
    else
    let (got, rest) := if s.gives q.victim then takeTop (s.tile q.victim).core.deque else (none, [])
    let s := if got.isSome then
        s.modCore q.victim fun c => { c with deque := rest, dqLost := (c.dqLost + 1) % 2 ^ 64 }
      else s
    .next ({ s.unload q.id with steals := updateWhere s.steals (fun r => r.id == q.id) fun r => { r with reply := some got } }.ship
      q.victim .stolen 0xF5 q.id (if got.isSome then 2 else 1) (.tile q.thief) 4095 none)

/-- STEAL_REPLY: the answer arrives; a record is pushed at the bottom of the thief's deque even when the thief is no longer
idle, but waits while 64 records are held there (R119, log entry 23), and the next search starts from ring 1. -/
def execStealReply (s : State) : Out :=
  match s.steals.find? fun q => q.id == s.cur.ev.id && s.landed q.id with
  | none => .next s
  | some q =>
    let s' := { s.unload q.id with steals := s.steals.filter fun r => r.id != q.id }
    match q.reply with
    | none => .next s
    | some none => .next (s'.modCore q.thief fun c => { c with steal := { c.steal with asking := false } })
    | some (some t) =>
      if Config.dequeCap ≤ (s.tile q.thief).core.deque.length then .next s
      else .next (s'.modCore q.thief fun c =>
        { c with deque := t :: c.deque, dqGain := (c.dqGain + 1) % 2 ^ 64, steal := ⟨1, 0, false, none⟩ })

/-- STEAL_BACKOFF_EXPIRY: the 256 grains have passed. -/
def execStealBackoffExpiry (s : State) : Out :=
  let k := s.cur.ev.tile
  match (s.tile k).core.steal.backoff with
  | some g => if g ≤ s.gclk then .next (s.modCore k fun c => { c with steal := ⟨1, 0, false, none⟩ }) else .next s
  | none => .next s

end Sys2Proof.Machine
end

