-- ==== Sys2Proof/Machine/Engines.lean ====
section
/-! DEFINITION. The accesses of engines: the copy, matrix, vector, collective and repartition commands (09 R193, 10 R215-R218, 11 R251,
12 R265, 13 R289, R290). -/

namespace Sys2Proof.Machine

/-- On whose behalf an engine accesses memory: the tile, the strand slot that its packets name (none for input fetches and page-fetch
entries), the slack that they carry, the replaced table entries that a translation still uses (17 R400), the number of the job that the
packets are of, and their OPs (14 Table 14.2). -/
structure Actor where
  tile  : Nat
  slot  : Option Nat
  slack : Nat
  old   : List Stale
  job   : Nat
  rcode : Nat := 0x26
  wcode : Nat := 0x2A
  deriving DecidableEq, Repr

/-- The number of a job: part `no` of command `id` of an engine, 1 copy, 2 matrix, 3 vector, 4 collective, 5 repartition. -/
def jobOf (engine id no : Nat) : Nat := (id * 2 ^ 32 + no) * 8 + engine

/-- An access of an engine to its own tile's TLM: a bank is addressed, by the strand whose command it is (06 R125). -/
def State.actorTouch (s : State) (a : Actor) (loc n : Nat) : State :=
  match a.slot with
  | some i => s.touch a.tile i loc n
  | none => s.touchBanks a.tile loc n

/-- An engine's access cannot be made yet: the step does not happen. -/
def State.holdUp (s : State) : State := { s with snag := true }

/-! ### Packets (09 R193, R197, 14 R311-R318; log entry 28) -/

/-- Whether a packet is one of a job. -/
def Req.ofJob (r : Req) (dev k job : Nat) : Bool :=
  r.sdev == dev && r.tile == k && (match r.op with | .engine _ _ j _ => j == job | _ => false)

/-- The packet by which an engine reads or writes bytes outside its tile. DESIGN CHOICE: a job sends one packet for each line of 64 bytes
that it reads, and one for each write (log entry 28). -/
def State.enginePacket (s : State) (a : Actor) (write : Bool) (w : Word) (loc : Nat) (l : List Byte) : Req :=
  { s.blankReq a.tile (a.slot.getD 0) (.engine write (if write then a.wcode else a.rcode) a.job l) with
    sv := a.slot.isSome, space := ptrSpace w, dev := if ptrSpace w = 3 then ptrDev w else s.devId, ttile := targetTile a.tile w,
    loc := if write then loc else loc / 64 * 64, size := if write then l.length else 64, ptr := w, slack := a.slack
    came := .strand (a.job % 8) }

/-- Whether two packets of a job are for one access. -/
def Req.sameAccess (r q : Req) : Bool :=
  (match r.op, q.op with
    | .engine w _ j _, .engine w' _ j' _ => w == w' && j == j'
    | _, _ => false) &&
    r.sdev == q.sdev && r.tile == q.tile && r.space == q.space && r.dev == q.dev && r.ttile == q.ttile && r.loc == q.loc && r.size == q.size

/-- The answer of the packet of an access, once it is back; without the packet the step lacks it, and until its answer it waits. -/
def State.packetAnswer (s : State) (r : Req) : State × Option Reply :=
  match s.reqs.find? fun q => q.sameAccess r with
  | some q => if q.stage = .back ∧ q.reply ≠ .discard then (s, some q.reply) else (s.holdUp, none)
  | none => (if s.wants.any fun q => q.sameAccess r then s else { s with wants := s.wants ++ [r] }, none)

/-- An access outside the tile whose packet is `r`: what its answer reports, or what the access does there. -/
def State.viaPacket (s : State) (r : Req) (f : State → State × Reply) : State × Reply :=
  match s.packetAnswer r with
  | (s, none) => (s, .none)
  | (s, some (.fault c)) => (s, .fault c)
  | (s, some (.capacity c)) => (s, .capacity c)
  | (s, some .reject) => (s, .fault 0x101)
  | (s, some _) => f s

/-- The bytes of an access in the line that another device's answer brought. -/
def State.foreignBytes (s : State) (r : Req) (loc n : Nat) : List Byte :=
  match s.packetAnswer r with
  | (_, some (.data l)) => (l.drop (loc % 64)).take n
  | _ => []

/-- The packets that a step lacks leave for its tile's port. -/
def State.sendWants (s : State) (l : List Req) : State :=
  l.foldl (fun s r => s.post { r with id := s.nextReq, seq := (s.tile r.tile).seq, stamp := s.gclk }) s

/-- The latest accesses to banks as another state has them: a bank that was addressed in retention begins to wake (06 R125). -/
def State.keepTouches (s0 s : State) : State :=
  { s0 with tiles := s0.tiles.map fun p => (p.1, { p.2 with touched := (s.tile p.1).touched }) }

/-- Whether a packet of a job is on its way. -/
def State.jobOpen (s : State) (a : Actor) : Bool := s.reqs.any fun r => r.ofJob s.devId a.tile a.job && r.stage != .back

/-- A job is over: its answered packets leave the state. -/
def State.endJob (s : State) (a : Actor) : State := { s with reqs := s.reqs.filter fun r => !r.ofJob s.devId a.tile a.job }

/-- The end of a step in which an engine made accesses. A step whose accesses lack packets sends them; one whose packets are not all
answered, whose access is held back or waits for a bank to wake, does not happen. -/
def State.engineEnd (s0 : State) (a : Actor) (s : State) : Out :=
  match s.missing with
  | some pa => .fault (.noMemory pa)
  | none => if s.stalled || s0.jobOpen a then .next ((s0.keepTouches s).sendWants s.wants) else .next (s.endJob a)

/-! ### What the accesses do (07 R139-R146, 09 R184, R185, R190, 13 R289, R290) -/

/-- A read of an engine returns bytes: its strand observes what was ordered before the writes that hold them (09 R190). -/
def State.engObserve (s : State) (a : Actor) (ids : List Nat) (p : Point) (loc n : Nat) : State :=
  match a.slot with
  | some i => s.observes a.tile i ids (s.notesAt p loc n)
  | none => s

/-- What was ordered before a write of an engine's strand is known of its bytes. -/
def State.engNote (s : State) (a : Actor) (p : Point) (loc n : Nat) : State :=
  s.noteWrite p loc n (match a.slot with | some i => s.inFlight (s.strand a.tile i).prior | none => [])

/-- The stores in transit of the tile or its die that a read of space 10 sees (09 R185). -/
def State.transitFor (s : State) (k loc n : Nat) : List Req :=
  (s.stationStores (k / 1024) ++ s.portStores k).filter fun q => some q.part == s.partOf k && overlaps q.loc q.size loc n

/-- The lengths at which a write of some bytes is seen in part: within words that it covers only in part byte by byte, else word by word
(09 R184). -/
def seenParts (loc n : Nat) : List Nat :=
  (List.range n).filter fun i => i != 0 && ((loc + i) % 8 == 0 || !coversWord ((loc + i) / 8) loc n)

/-- Monitors see a write as it proceeds from its first byte to its last (09 R184, R203): `s0` is the state before it, `s` the state after it.
DESIGN CHOICE: the words of a write take effect in ascending order (log entry 28). -/
def State.seenRising (s0 s : State) (p : Point) (loc : Nat) (l : List Byte) : State :=
  let show' (u : State) (n : Nat) : State := match p with
    | .tile k => u.setTile k { u.tile k with tlm := memWrite (s0.tile k).tlm loc (l.take n) }
    | _ => { u with hbm := memWrite s0.hbm loc (l.take n) }
  let whole (u : State) : State := match p with
    | .tile k => u.setTile k { u.tile k with tlm := (s.tile k).tlm }
    | _ => { u with hbm := s.hbm }
  (whole ((seenParts loc l.length).foldl (fun u n => (show' u n).serveMonitors) s)).serveMonitors

/-- A read of an engine at a physical address; a station that has applied an abort performs none (13 R289). -/
def State.engReadAt (s : State) (a : Actor) (space va pa n : Nat) : State × Reply :=
  let p := s.party a.tile
  if s.heldBack p.part pa n || s.discards (p.part.getD 0xFFFF) (.station (homeStation pa)) then (s.holdUp, .none)
  else match s.hbmRead p pa n with
    | .data l =>
      let held := if space = 2 then s.transitFor a.tile va n else []
      (s.engObserve a (held.map (·.id)) (.station (homeStation pa)) pa n,
        .data (((List.range n).zip l).map fun c => (transitByte held (va + c.1)).getD c.2))
    | r => (s, r)

/-- Read `n` bytes at a byte offset of a pointer, within one page and one line. -/
def State.engRead (s : State) (a : Actor) (w : Word) (off n : Nat) : State × Reply :=
  if n = 0 then (s, .data [])
  else
    let k := a.tile
    let p := s.party k
    let loc := ptrLoc w + off
    let r := s.enginePacket a false w loc []
    if locLimit (ptrSpace w) < loc + n then (s, .fault 0x046)
    else match ptrSpace w with
    | 1 =>
      if ownTlm k w then
        if (s.tile k).asleep loc n then ((s.touchBanks k loc n).holdUp, .none)
        else if badRange (s.tile k).bad loc n then (s.actorTouch a loc n, .fault 0x141)
        else ((s.actorTouch a loc n).engObserve a [] (.tile k) loc n, .data ((s.tile k).bytes loc n))
      else s.viaPacket r fun s =>
        let j := targetTile k w
        if (s.tile j).asleep loc n then ((s.touchBanks j loc n).holdUp, .none)
        else if s.discards (p.part.getD 0xFFFF) (.tile j) || s.tileHeld p.part j then (s.holdUp, .none)
        else ((s.touchBanks j loc n).engObserve a [] (.tile j) loc n, s.peekTile p j loc n)
    | 3 =>
      if s.deviceIn k (ptrDev w) = false then (s, .fault 0x065)
      else if ptrDev w ≠ s.devId then s.viaPacket r fun s => (s, .data (s.foreignBytes r loc n))
      else match p.part with
        | none => (s, .fault 0x065)
        | some id =>
          if (s.part id).explen.toNat < loc + n then (s, .fault 0x066)
          else s.viaPacket r fun s => match s.translate a.old p.part ((s.part id).expbase.toNat + loc) .read with
            | .at pa => s.engReadAt a 0 ((s.part id).expbase.toNat + loc) pa n
            | .fault c => (s, .fault c)
            | .missing pa => ({ s with missing := some pa }, .fault 0x060)
    | sp =>
      s.viaPacket r fun s => match s.translate a.old p.part loc .read with
        | .at pa => s.engReadAt a sp loc pa n
        | .fault c => (s, .fault c)
        | .missing pa => ({ s with missing := some pa }, .fault 0x060)

/-- A write of an engine at a physical address; a station that has applied the abort of the partition discards it (13 R289). -/
def State.engWriteAt (s : State) (a : Actor) (space pa : Nat) (l : List Byte) : State × Reply :=
  let p := s.party a.tile
  if s.discards (p.part.getD 0xFFFF) (.station (homeStation pa)) then (s, .none)
  else match s.hbmWrite p space pa l with
    | (s', .none) =>
      let s' := s'.engNote a (.station (homeStation pa)) pa l.length
      (if space = 2 then s.seenRising s' (.station (homeStation pa)) pa l else s', .none)
    | r => r

/-- Write bytes at a byte offset of a pointer, within one page and one line; what goes to another device is in the packet. -/
def State.engWrite (s : State) (a : Actor) (w : Word) (off : Nat) (l : List Byte) : State × Reply :=
  if l = [] then (s, .none)
  else
    let k := a.tile
    let p := s.party k
    let loc := ptrLoc w + off
    let r := s.enginePacket a true w loc l
    if locLimit (ptrSpace w) < loc + l.length then (s, .fault 0x046)
    else match ptrSpace w with
    | 1 =>
      if ownTlm k w then
        let bad := partlyBad (s.tile k).bad loc l.length
        if (s.tile k).asleep loc l.length then ((s.touchBanks k loc l.length).holdUp, .none)
        else
          let s' := ((s.actorTouch a loc l.length).tlmWrite k loc l).engNote a (.tile k) loc l.length
          (s.seenRising s' (.tile k) loc l, if bad then .fault 0x141 else .none)
      else s.viaPacket r fun s =>
        let j := targetTile k w
        if (s.tile j).asleep loc l.length then ((s.touchBanks j loc l.length).holdUp, .none)
        else if s.discards (p.part.getD 0xFFFF) (.tile j) then (s, .none)
        else match s.pokeTile p j loc l with
          | (s', .none) => (s.seenRising ((s'.touchBanks j loc l.length).engNote a (.tile j) loc l.length) (.tile j) loc l, .none)
          | q => q
    | 3 =>
      if s.deviceIn k (ptrDev w) = false then (s, .fault 0x065)
      else if ptrDev w ≠ s.devId then s.viaPacket r fun s => (s, .none)
      else match p.part with
        | none => (s, .fault 0x065)
        | some id =>
          if (s.part id).explen.toNat < loc + l.length then (s, .fault 0x066)
          else s.viaPacket r fun s => match s.translate a.old p.part ((s.part id).expbase.toNat + loc) .write with
            | .at pa => s.engWriteAt a 3 pa l
            | .fault c => (s, .fault c)
            | .missing pa => ({ s with missing := some pa }, .fault 0x060)
    | sp =>
      s.viaPacket r fun s => match s.translate a.old p.part loc .write with
        | .at pa => s.engWriteAt a sp pa l
        | .fault c => (s, .fault c)
        | .missing pa => ({ s with missing := some pa }, .fault 0x060)

/-- The end of the piece that starts at a location: pieces of at most 64 bytes that cross no 64-byte line. -/
def pieceLen (loc n : Nat) : Nat := min n (64 - loc % 64)

/-- Read a long extent piece by piece, each piece within one page and one line; the first fault ends it. -/
def State.engReadAll : Nat → State → Actor → Word → Nat → Nat → List Byte → State × Reply
  | 0, s, _, _, _, _, acc => (s, .data acc)
  | fuel + 1, s, a, w, off, n, acc =>
    if n = 0 then (s, .data acc)
    else
      let m := pieceLen (ptrLoc w + off) n
      match s.engRead a w off m with
      | (s, .data l) => State.engReadAll fuel s a w (off + m) (n - m) (acc ++ l)
      | r => r

/-- Read `n` bytes from an offset of a pointer. -/
def State.engGet (s : State) (a : Actor) (w : Word) (off n : Nat) : State × Reply :=
  State.engReadAll (n / 64 + 2) s a w off n []

/-- Write a long extent piece by piece; a capacity or a fault ends it, and the number of bytes written is answered. -/
def State.engWriteAll : Nat → State → Actor → Word → Nat → List Byte → Nat → State × Reply × Nat
  | 0, s, _, _, _, _, done => (s, .none, done)
  | fuel + 1, s, a, w, off, l, done =>
    if l = [] then (s, .none, done)
    else
      let m := pieceLen (ptrLoc w + off) l.length
      match s.engWrite a w off (l.take m) with
      | (s, .fault c) => (s, .fault c, done)
      | (s, .capacity c) => State.engWriteAll fuel (s.capacity a.tile c) a w (off + m) (l.drop m) (done + m)
      | (s, _) => State.engWriteAll fuel s a w (off + m) (l.drop m) (done + m)

/-- Write bytes at an offset of a pointer. -/
def State.engPut (s : State) (a : Actor) (w : Word) (off : Nat) (l : List Byte) : State × Reply × Nat :=
  State.engWriteAll (l.length / 64 + 2) s a w off l 0

/-- An engine command addresses ranges of its tile's TLM (06 R125). -/
def State.touchRanges (s : State) (k slot : Nat) (l : List (Nat × Nat)) : State := l.foldl (fun s p => s.touch k slot p.1 p.2) s

/-- Whether one of some ranges lies in a bank that is in retention. -/
def Tile.asleepAny (t : Tile) (l : List (Nat × Nat)) : Bool := l.any fun p => t.asleep p.1 p.2

/-- On whose behalf a command of the matrix engine (2) or the vector engine (3) accesses memory. Its slack is that at its start (11 R251,
12 R265). -/
def Cmd.actor (c : Cmd) (engine k : Nat) (old : List Stale) : Actor :=
  { tile := k, slot := some c.slot, slack := c.slack, old := old, job := jobOf engine c.id 0 }

end Sys2Proof.Machine
end

