-- ==== Sys2Proof/Machine/TileStore.lean ====
section
/-! DEFINITION. The tile store, and the extents of strided operands (10 R208, R210, 11 R233-R235). -/

namespace Sys2Proof.Machine

/-- KEEP of a tile's matrix configuration (11 Table 11.3). -/
def TileEng.keep (g : TileEng) : Bool := bitOf g.mcfg 1

/-- The row limit of the tile store (11 R233). -/
def Tile.rowLimit (t : Tile) : Nat := if t.eng.keep || t.keepOpen then 64 else 128

/-- The number of a cell. -/
def cellAt (row col : Nat) : Nat := 128 * row + col

/-- A cell of the tile store. -/
def Tile.cell (t : Tile) (row col : Nat) : BitVec 32 := (assoc t.ts (cellAt row col)).getD 0

/-- The byte address of a cell in the tile store, a row after a row. -/
def tsAddr (row col : Nat) : Nat := 4 * cellAt row col

/-- The byte at an address of the tile store (10 R208). -/
def Tile.tsByte (t : Tile) (a : Nat) : Byte := ((assoc t.ts (a / 4)).getD 0).extractLsb' (8 * (a % 4)) 8

/-- A list of cells with one byte replaced; a zero cell is unlisted. -/
def tsSet (l : List (Nat × BitVec 32)) (a : Nat) (v : Byte) : List (Nat × BitVec 32) :=
  let old : BitVec 32 := (assoc l (a / 4)).getD 0
  let new : BitVec 32 := (setField (old.setWidth 64) (8 * (a % 4) + 7) (8 * (a % 4)) v.toNat).setWidth 32
  if new = 0 then assocDrop l (a / 4) else assocPut l (a / 4) new

/-- Write bytes of the tile store (17 R407): the part of a write that covers an uncorrectable word only in part is not
performed. -/
def Tile.tsPut (t : Tile) (a : Nat) (l : List Byte) : Tile :=
  { t with
    ts := (spareBad t.tsBad a l).foldl (fun m c => tsSet m c.1 c.2) t.ts
    tsBad := t.tsBad.filter fun w => !coversWord w a l.length }

/-- Write cells of a row from a column on. -/
def Tile.putRow (t : Tile) (row col : Nat) (l : List (BitVec 32)) : Tile :=
  t.tsPut (tsAddr row col) (l.flatMap fun v => toBytes 4 v.toNat)

/-- Rows 0-63 copied into rows 64-127, uncorrectable words included (11 R234). -/
def Tile.copyKept (t : Tile) : Tile :=
  let low {α : Type} (l : List (Nat × α)) : List (Nat × α) := l.filter fun c => decide (c.1 < 64 * 128)
  { t with
    ts := low t.ts ++ (low t.ts).map fun c => (c.1 + 64 * 128, c.2)
    tsBad := (t.tsBad.filter fun w => decide (w < 64 * 64)).flatMap fun w => [w, w + 64 * 64] }

/-- Rows 64-127 copied back into rows 0-63 (11 R234). -/
def Tile.copyBack (t : Tile) : Tile :=
  let high := t.ts.filter fun c => decide (64 * 128 ≤ c.1)
  { t with
    ts := high.map (fun c => (c.1 - 64 * 128, c.2)) ++ high
    tsBad := (t.tsBad.filter fun w => decide (64 * 64 ≤ w)).flatMap fun w => [w - 64 * 64, w] }

/-- A strided operand's extent relative to its location (10 R210): the least and the greatest offset. -/
def extent (len nrow npln : Nat) (rs ps : Int) : Int × Int :=
  let a : Int := ((nrow : Int) - 1) * rs
  let b : Int := ((npln : Int) - 1) * ps
  (min 0 a + min 0 b, max 0 a + max 0 b + len - 1)

/-- Whether an extent of a pointer fails R210: outside its space, or TLM that R136 denies. -/
def extentBad (priv : Nat) (w : Word) (lo hi : Int) (write : Bool) : Bool :=
  let a : Int := ptrLoc w + lo
  let b : Int := ptrLoc w + hi
  decide (a < 0) || decide ((locLimit (ptrSpace w) : Int) ≤ b) ||
    (ptrSpace w == 1 && !tlmMay priv write a.toNat (b - a + 1).toNat)

/-- Bytes of one block of a scaled operand (10 R207). -/
def blockBytes (w : Word) : Nat := 2 ^ (ptrBlk w + 2) * (ptrFmt w).granBytes / (ptrFmt w).granElems

/-- A pointer moved by a signed byte count. -/
def ptrMove (w : Word) (d : Int) : Word := ptrAt w ((ptrLoc w : Int) + d).toNat

end Sys2Proof.Machine
end

