-- ==== Sys2Proof/Machine/Copy.lean ====
section
/-! DEFINITION. The copy engine, input fetches and page-fetch lists (10, 06 R119). -/

namespace Sys2Proof.Machine

/-! ### The shadow words (10 Table 10.1) -/

/-- A shadow word of a transfer. -/
def Xfer.word (x : Xfer) (i : Nat) : Word := vget x.words i 0

/-- The bytes per row, rows and planes of shadow words. -/
def copyLen (w : Vector Word 8) : Nat := fieldOf (vget w 4 0) 31 0
/-- NROW. -/
def copyRows (w : Vector Word 8) : Nat := fieldOf (vget w 4 0) 47 32
/-- NPLN. -/
def copyPlanes (w : Vector Word 8) : Nat := fieldOf (vget w 4 0) 63 48
/-- CCTL.TSE. -/
def copyTse (w : Vector Word 8) : Nat := fieldOf (vget w 5 0) 3 2
/-- CCTL.QCLS. -/
def copyClass (w : Vector Word 8) : Nat := fieldOf (vget w 5 0) 1 0
/-- The row stride of a side: SRS for word 6, DRS for word 7. -/
def copyRs (w : Vector Word 8) (i : Nat) : Int := (BitVec.ofNat 32 (fieldOf (vget w i 0) 31 0)).toInt
/-- The plane stride of a side: SPS for word 6, DPS for word 7. -/
def copyPs (w : Vector Word 8) (i : Nat) : Int := (BitVec.ofNat 32 (fieldOf (vget w i 0) 63 32)).toInt
/-- T. -/
def copyTotal (w : Vector Word 8) : Nat := copyLen w * copyRows w * copyPlanes w

/-- Whether a side is the tile store: side 0 is the source, side 2 the destination. -/
def copyIsTs (w : Vector Word 8) (side : Nat) : Bool := copyTse w == (if side = 0 then 2 else 1)

/-- Whether the transfer is scaled (10 R207). -/
def copyScaled (w : Vector Word 8) : Bool := !copyIsTs w 0 && ptrBlk (vget w 0 0) != 0

/-- A fat-pointer side's stride words start at 6. -/
def strideWord (side : Nat) : Nat := 6 + side / 2

/-- Whether a number of bytes is a multiple of another; strides may be negative. -/
def wholeIn (n : Int) (m : Nat) : Bool := n % (m : Int) == 0

/-- The size rules (10 R209). -/
def copySizeBad (w : Vector Word 8) : Bool :=
  let len := copyLen w
  let src := vget w 0 0
  let dst := vget w 2 0
  let gran (p : Word) : Nat := (ptrFmt p).granBytes
  let side (i : Nat) (p : Word) : Bool :=
    wholeIn len (gran p) && (copyIsTs w i ||
      (wholeIn (copyRs w (strideWord i)) (gran p) && wholeIn (copyPs w (strideWord i)) (gran p)))
  let tsWord (p : Word) : Bool :=
    fieldOf p 63 14 == 0 && len % 4 == 0 && decide (fieldOf p 6 0 + len / 4 ≤ 128) &&
      decide (fieldOf p 13 7 + copyRows w ≤ 128) && copyPlanes w == 1
  let bb := blockBytes src
  let blk := ptrBlk src != 0
  !(side 0 src && side 2 dst) ||
    (ptrBlk src != ptrBlk dst || (blk && ptrFmt src != ptrFmt dst)) ||
    (blk && (copyTse w != 0 || !wholeIn len bb || !wholeIn (copyRs w 6) bb || !wholeIn (copyPs w 6) bb ||
      !wholeIn (copyRs w 7) bb || !wholeIn (copyPs w 7) bb)) ||
    ((copyIsTs w 0 && !tsWord src) || (copyIsTs w 2 && !tsWord dst)) ||
    decide (2 ^ 32 - 1 < copyTotal w)

/-- The extent of a side relative to its location. -/
def copyExtent (w : Vector Word 8) (side : Nat) : Int × Int :=
  extent (copyLen w) (copyRows w) (copyPlanes w) (copyRs w (strideWord side)) (copyPs w (strideWord side))

/-- The extent check (10 R210). -/
def copyExtentBad (priv : Nat) (w : Vector Word 8) : Bool :=
  let bb : Int := blockBytes (vget w 0 0)
  let side (i : Nat) (write : Bool) : Bool :=
    let e := copyExtent w i
    !copyIsTs w i && (extentBad priv (vget w i 0) e.1 e.2 write ||
      (copyScaled w && extentBad priv (vget w (i + 1) 0) (e.1 / bb) (e.2 / bb) write))
  side 0 false || side 2 true

/-! ### Moving bytes (10 R206-R208, R212, R218) -/

/-- The offset of a copy-order position on a side. -/
def copyOffset (w : Vector Word 8) (side pos : Nat) : Int :=
  let len := copyLen w
  ((pos / (len * copyRows w) : Nat) : Int) * copyPs w (strideWord side) +
    ((pos / len % copyRows w : Nat) : Int) * copyRs w (strideWord side) + ((pos % len : Nat) : Int)

/-- A failed access of the engine: uncorrectable data makes the superstep vote abort (10 R213). -/
def State.copyFault (s : State) (k c : Nat) : State := if uncorrectable c then s.castAbort k c else s

/-- A row of the tile store and a byte in it, for a copy-order position. -/
def tsPlace (w : Vector Word 8) (side pos : Nat) : Nat × Nat × Nat :=
  let p := vget w side 0
  (fieldOf p 13 7 + pos / copyLen w % copyRows w, fieldOf p 6 0, pos % copyLen w)

/-- Read bytes of the tile store. -/
def State.tsRead (s : State) (k : Nat) (w : Vector Word 8) (pos n : Nat) : State × Reply :=
  let t := s.tile k
  let (row, col, b) := tsPlace w 0 pos
  let a := tsAddr row col + b
  if t.rowLimit ≤ row then (s, .fault 0x060)
  else if badRange t.tsBad a n then (s, .fault 0x141)
  else (s, .data ((List.range n).map fun i => t.tsByte (a + i)))

/-- Write bytes of the tile store. -/
def State.tsWrite (s : State) (k : Nat) (w : Vector Word 8) (pos : Nat) (l : List Byte) : State × Reply :=
  let t := s.tile k
  let (row, col, b) := tsPlace w 2 pos
  let a := tsAddr row col + b
  if t.rowLimit ≤ row then (s, .fault 0x060)
  else (s.setTile k (t.tsPut a l), if partlyBad t.tsBad a l.length then .fault 0x141 else .none)

/-- On whose behalf a chunk of a transfer accesses memory: input fetches, page-fetch entries and fired copies name no strand. -/
def Xfer.actor (x : Xfer) (k : Nat) (c : Chunk) (old : List Stale) : Actor :=
  { tile := k, slack := c.slack, old := old, job := jobOf 1 x.key c.no, rcode := 0x64, wcode := 0x64
    slot := match x.why with
      | .cpgo | .multicast .. => some x.slot
      | _ => none }

/-- The first byte of a write that is not performed because its word is uncorrectable and covered only in part (17 R407). -/
def firstSpared (bad : List Nat) (a n : Nat) : Option Nat :=
  (List.range n).find? fun i => bad.contains ((a + i) / 8) && !coversWord ((a + i) / 8) a n

/-- How much of a write of `n` bytes that failed stands at its destination from the first byte on: in the tile's own TLM all before the
first uncorrectable word, elsewhere none. -/
def State.writtenPart (s : State) (k : Nat) (w : Word) (n : Nat) : Nat :=
  if ownTlm k w then (firstSpared (s.tile k).bad (ptrLoc w) n).getD 0 else 0

/-- Of two failures of a write the one that left less written. -/
def worse (a b : Option (Nat × Nat)) : Option (Nat × Nat) :=
  match a, b with
  | some x, some y => if y.2 < x.2 then some y else some x
  | none, y => y
  | x, none => x

/-- Write to each destination in turn; a capacity is recorded and the access counts as done (13 R279). A failure answers its cause and
the bytes before the first one not written at every destination. -/
def State.writeEach (s : State) (a : Actor) : List Word → List Byte → State × Option (Nat × Nat)
  | [], _ => (s, none)
  | w :: ws, l =>
    let part := s.writtenPart a.tile w l.length
    let put := s.engPut a w 0 l
    let mine := match put.2.1 with
      | .fault c => some (c, max put.2.2 part)
      | _ => none
    let rest := State.writeEach put.1 a ws l
    (rest.1, worse mine rest.2)

/-- The destination pointers of a transfer, for its data or its scales: one, or one for each tile of a rectangle (10 R212). -/
def Xfer.targets (k : Nat) (x : Xfer) (w : Word) : List Word :=
  match x.why with
  | .multicast width height =>
    let o := targetTile k (x.word 2)
    (List.range height).flatMap fun j => (List.range width).map fun i =>
      setField w 54 43 (gridId (gridX o + i) (gridY o + j))
  | _ => [w]

/-- Copy the scale bytes of the blocks that start in a piece (10 R207). A failure answers its cause and the position in the piece of the
block's first byte. DESIGN CHOICE: each scale byte is a write of its own (log entry 71). -/
def State.copyScales (s : State) (a : Actor) (x : Xfer) (pos : Nat) : List Nat → State × Option (Nat × Nat)
  | [] => (s, none)
  | i :: l =>
    let bb : Int := blockBytes (x.word 0)
    let o := copyOffset x.words 0 pos + i
    let o' := copyOffset x.words 2 pos + i
    if o % bb ≠ 0 then State.copyScales s a x pos l
    else match s.engRead a (ptrMove (x.word 1) (o / bb)) 0 1 with
      | (s, .data b) =>
        (match s.writeEach a (x.targets a.tile (ptrMove (x.word 3) (o' / bb))) b with
        | (s, none) => State.copyScales s a x pos l
        | (s, some (c, _)) => (s, some (c, i)))
      | (s, .fault c) => (s, some (c, i))
      | (s, _) => (s, none)

/-- Bytes of a piece: within a row and a 64-byte line of the destination, each piece a write of its own (10 R218). DESIGN CHOICE: the rule
gives a write at most 64 bytes and says no more of how a chunk's bytes are grouped (log entry 71). -/
def pieceAt (x : Xfer) (pos n : Nat) : Nat :=
  let line := if copyIsTs x.words 2 then 64 else 64 - ((ptrLoc (x.word 2) : Int) + copyOffset x.words 2 pos).toNat % 64
  min (min n (copyLen x.words - pos % copyLen x.words)) line

/-- Write the data of a piece at every destination. -/
def State.writePiece (s : State) (a : Actor) (x : Xfer) (pos : Nat) (l : List Byte) : State × Option (Nat × Nat) :=
  if copyIsTs x.words 2 then
    let (row, col, b) := tsPlace x.words 2 pos
    let part := (firstSpared (s.tile a.tile).tsBad (tsAddr row col + b) l.length).getD 0
    match s.tsWrite a.tile x.words pos l with
    | (s, .fault c) => (s, some (c, part))
    | (s, _) => (s, none)
  else s.writeEach a (x.targets a.tile (ptrMove (x.word 2) (copyOffset x.words 2 pos))) l

/-- Copy one piece: it is read whole, then its scales are copied, then its data is written. A failure answers its cause and the bytes of
the piece before the first one that was not written everywhere. -/
def State.copyPiece (s : State) (a : Actor) (x : Xfer) (pos n : Nat) : State × Option (Nat × Nat) :=
  let got := if copyIsTs x.words 0 then s.tsRead a.tile x.words pos n
    else s.engGet a (ptrMove (x.word 0) (copyOffset x.words 0 pos)) 0 n
  match got with
  | (s, .data l) =>
    if !copyScaled x.words then s.writePiece a x pos l
    else match s.copyScales a x pos (List.range n) with
      | (s, none) => s.writePiece a x pos l
      | (s, some (c, i)) =>
        match s.writePiece a x pos (l.take i) with
        | (s, none) => (s, some (c, i))
        | r => r
  | (s, .fault c) => (s, some (c, 0))
  | (s, _) => (s, none)

/-- Copy the bytes of a chunk; answers the copy-order position of the first byte that was not written everywhere. Bytes
beyond it may or may not be written (10 R213). -/
def State.copyRun : Nat → State → Actor → Xfer → Nat → Nat → Option Nat → State × Option Nat
  | 0, s, _, _, _, _, bad => (s, bad)
  | fuel + 1, s, a, x, pos, n, bad =>
    if n = 0 then (s, bad)
    else
      let m := pieceAt x pos n
      if bad.isSome && s.skips a.tile 1 x.id pos then State.copyRun fuel s a x (pos + m) (n - m) bad
      else
        match s.copyPiece a x pos m with
        | (s, some (c, i)) => State.copyRun fuel (s.copyFault a.tile c) a x (pos + m) (n - m) (bad <|> some (pos + i))
        | (s, none) => State.copyRun fuel s a x (pos + m) (n - m) bad

/-! ### The queue (10 R214, R215) -/

/-- Whether a transfer holds one of the entries 0-23. -/
def Xfer.isCommand (x : Xfer) : Bool :=
  match x.why with
  | .input | .page => false
  | _ => true

/-- Whether one of the entries 0-23 is free. -/
def TileEng.commandRoom (g : TileEng) : Bool := decide ((g.xfers.filter Xfer.isCommand).length < 24)

/-- Whether one of the entries 24-31 is free. -/
def TileEng.fetchRoom (g : TileEng) : Bool := decide ((g.xfers.filter fun x => !x.isCommand).length < 8)

/-- The transfer with a number. -/
def TileEng.xfer (g : TileEng) (key : Nat) : Option Xfer := g.xfers.find? fun x => x.key == key

/-- Change a transfer. -/
def TileEng.modXfer (g : TileEng) (key : Nat) (f : Xfer → Xfer) : TileEng :=
  { g with xfers := updateWhere g.xfers (fun x => x.key == key) f }

/-- A transfer leaves its virtual queue. -/
def TileEng.unqueue (g : TileEng) (key : Nat) : TileEng := { g with vq := g.vq.map fun l => l.filter fun i => i != key }

/-- A transfer enters the tail of its virtual queue. -/
def TileEng.enqueue (g : TileEng) (x : Xfer) : TileEng :=
  { g with xfers := g.xfers ++ [x], vq := vset g.vq x.cls (vget g.vq x.cls [] ++ [x.key]) }

/-- The size of a transfer's next chunk. -/
def Xfer.nextSize (x : Xfer) : Nat := min 2048 (x.total - x.started)

/-- The quantum of a class in bytes (10 R215, Table 10.2). -/
def TileEng.quantum (g : TileEng) (c : Nat) : Nat := max 2048 (64 * fieldOf g.cpquant (16 * c + 15) (16 * c))

/-- NextChunk (10 R215): the transfer whose chunk starts, and the engine with its deficits. -/
def nextChunk : Nat → TileEng → Option (Xfer × TileEng)
  | 0, _ => none
  | fuel + 1, g =>
    let c := g.turn
    let step : TileEng :=
      let d := if vget g.vq c [] = [] then vset g.deficit c 0 else g.deficit
      let c' := (c + 1) % 4
      { g with turn := c', deficit := if vget g.vq c' [] = [] then d else vset d c' (vget d c' 0 + g.quantum c') }
    match (vget g.vq c []).head?.bind g.xfer with
    | some x =>
      if x.nextSize ≤ vget g.deficit c 0 then some (x, { g with deficit := vset g.deficit c (vget g.deficit c 0 - x.nextSize) })
      else nextChunk fuel step
    | none => nextChunk fuel step

/-- Whether engines of a tile may start work: not between ABORT or a DECIDE and the OPEN that follows (13 R289, R301). -/
def Tile.engRuns (t : Tile) : Bool := !t.halted && !t.decided && !t.lost

/-- Whether commands and chunks that have started run on: until a DECIDE, past ABORT too (13 R289, R301). -/
def Tile.engGoesOn (t : Tile) : Bool := !t.decided && !t.lost

/-- Whether what precedes a transfer is performed (09 R193). -/
def State.copyOrdered (s : State) (k : Nat) (x : Xfer) : Bool :=
  match x.why with
  | .cpgo | .multicast .. =>
    let spaces := (if copyIsTs x.words 0 then [] else [ptrSpace (x.word 0)]) ++
      (if copyIsTs x.words 2 then [] else [ptrSpace (x.word 2)])
    s.earlierDone k x.slot x.mark x.fmark spaces
  | _ => true

/-- A chunk of a transfer is over: every write of it is acknowledged, or the first byte that was not written everywhere is known, and then
no further chunk starts (10 R213). -/
def TileEng.chunkDone (g : TileEng) (key no : Nat) (bad : Option Nat) : TileEng :=
  let g := g.modXfer key fun y =>
    { y with
      flight := y.flight.filter fun d => d.no != no
      good := match bad, y.good with
        | some p, some q => some (min p q)
        | some p, none => some p
        | none, q => q }
  if bad.isSome then g.unqueue key else g

/-- COPY_CHUNK_START (10 R215, R217): the engine of the event's tile starts the chunk that NextChunk chooses, with at most 32 in flight and
8 cycles after the one before it at the earliest. -/
def execCopyChunkStart (s : State) : Out :=
  let k := s.cur.ev.tile
  let t := s.tile k
  if !t.engRuns || decide (s.cyc < t.eng.chunkAt) || decide (32 ≤ (t.eng.xfers.map fun x => x.flight.length).sum) then .next s
  else match nextChunk 9 t.eng with
    | none => .next s
    | some (x, g) =>
      let ts := copyIsTs x.words 0 || copyIsTs x.words 2
      let n := x.nextSize
      if (x.started = 0 && s.withheld) || !s.copyOrdered k x || (ts && t.keepCopy) || s.jobHeld k (some (1, x.key)) s.nextReq then .next s
      else
        let c : Chunk := ⟨x.started / 2048, x.started, n, x.slack - (s.gclk - x.issued)⟩
        .next ((s.setTile k { t with eng := { g with chunkAt := s.cyc + 8 } }).modEng k fun g =>
          let g := g.modXfer x.key fun y => { y with started := y.started + n, flight := y.flight ++ [c] }
          if x.started + n = x.total then g.unqueue x.key else g)

/-- COPY_CHUNK_ACK (10 R206-R208, R213, R215): chunk `a` of the event's transfer makes its accesses, and is over once its packets have been
answered. A chunk that has started goes on after ABORT too (13 R301). -/
def execCopyChunkAck (s : State) : Out :=
  let k := s.cur.ev.tile
  match (s.tile k).eng.xfer s.cur.ev.id with
  | none => .next s
  | some x =>
    match x.flight.find? fun c => c.no == s.cur.ev.a with
    | none => .next s
    | some c =>
      if !(s.tile k).engGoesOn then .next s
      else
        let a := x.actor k c (s.staleFor s.cur.ev.ok)
        let r := s.begin.copyRun (c.size + 1) a x c.pos c.size none
        s.engineEnd a (r.1.modEng k fun g => g.chunkDone x.key c.no r.2)

/-- The bytes of a transfer, in copy order, that were written everywhere. -/
def Xfer.done (x : Xfer) : Nat :=
  let base := x.good.getD x.started
  (x.flight.map fun c => c.pos).foldl min base

/-- The status word of a transfer (10 R213). -/
def Xfer.statusOf (x : Xfer) : Word :=
  statusWord x.id (if x.cancel then 3 else if x.good.isSome then 2 else 0) 1 x.done

/-- The status of an input fetch is written into its record (06 R119). -/
def TileCore.fetchDone (c : TileCore) (key : Nat) (w : Word) : TileCore :=
  { c with deque := c.deque.map fun t =>
      { t with fetch := updateWhere t.fetch (fun f => f.begun && f.key == key) fun f => { f with status := some w } } }

/-- The request of a tile itself: fired commands, and what the hardware sends (15 R348). -/
def State.tileReq (s : State) (k : Nat) (op : ReqOp) (slack : Nat) : Req :=
  { s.blankReq k 0 op with sv := false, slack := slack }

/-- The token packet of a token address (15 R346): to this tile, a tile of this device, or another device. -/
def tokenReq (s : State) (k : Nat) (w : Word) (slack : Nat) : Req :=
  let tile := fieldOf w 11 0
  let self := tile == 0xFFF
  { s.tileReq k (.token (fieldOf w 29 26) (fieldOf w 31 30)) slack with
    space := 1, dev := if self then s.devId else fieldOf w 25 12, ttile := if self then k else tile, loc := 0x200, ptr := w }

/-- Whether a device and tile of a token, counter or destination word name a tile of the partition of tile `k`; 0xFFF names
that tile itself (15 R333, R346). The rectangle on another device stands in that device's directory alone (18 R433; log entry 57). -/
def State.namesTile (s : State) (k : Nat) (w : Word) : Bool :=
  fieldOf w 11 0 == 0xFFF ||
    (match s.partOf k with
    | none => false
    | some id =>
      (s.part id).devs.contains (fieldOf w 25 12) &&
        (if fieldOf w 25 12 = s.devId then (s.part id).holds (fieldOf w 11 0)
        else fieldOf w 9 5 != 31 && Config.tileElsewhere id (fieldOf w 25 12) (fieldOf w 11 0)))

/-- The check of a token address (15 R346). -/
def State.tokenCause (s : State) (k : Nat) (w : Word) : Option Nat :=
  if fieldOf w 63 32 ≠ 0 then some 0x124 else if s.namesTile k w then none else some 0x065

/-- A transfer ends: its status goes where it belongs and its entry is released (10 R213, 06 R119, 15 R348). -/
def State.endXfer (s : State) (k : Nat) (x : Xfer) : State :=
  let w := x.statusOf
  let s := s.modEng k fun g => { g.unqueue x.key with xfers := g.xfers.filter fun y => y.key != x.key }
  match x.why with
  | .cpgo | .multicast .. =>
    (match x.rd with
    | some r => s.landX k x.slot r w
    | none => s)
  | .input => s.modCore k fun c => c.fetchDone x.key w
  | .page =>
    s.modEng k fun g =>
      { g with pages := updateWhere g.pages (fun p => p.started && p.key == x.key) fun p =>
          { p with done := true, faulted := x.good.isSome } }
  | .trigger token =>
    let s := s.modEng k fun g => { g with fired := g.fired.erase x.slot }
    if statusCode' w ≠ 0 then s.refuseCommand k
    else if token = 0 then s
    else if (s.tokenCause k token).isSome then s.refuseCommand k
    else s.post { tokenReq s k token x.slack with cell := some x.slot }
where
  /-- CODE of a status word. -/
  statusCode' (w : Word) : Nat := fieldOf w 47 40

/-- COPY_TRANSFER_END (10 R213): the transfer of the event's number, with no chunk in flight, writes its status. -/
def execCopyTransferEnd (s : State) : Out :=
  let k := s.cur.ev.tile
  match (s.tile k).eng.xfer s.cur.ev.id with
  | none => .next s
  | some x =>
    if x.flight = [] ∧ (x.started = x.total ∨ x.good.isSome ∨ x.cancel) then .next (s.endXfer k x) else .next s

/-! ### CPSRC to CPGO.mc (10 R205, R211, R212, R227) -/

/-- Write shadow registers. -/
def State.setShadow (s : State) (i : Nat) (a b : Word) : Out :=
  .next (s.modMe fun st => { st with copy := vset (vset st.copy i a) (i + 1) b })

/-- A scaled operand's two words: the odd one is 0 when BLK is 0. -/
def State.scaledPair (s : State) (p : RegPair) : Word × Word :=
  (s.rx p.even, if ptrBlk (s.rx p.even) = 0 then 0 else s.rx p.odd)

/-- CPSRC. -/
def execCpsrc (xa : RegPair) (s : State) : Out := s.setShadow 0 (s.scaledPair xa).1 (s.scaledPair xa).2

/-- CPDST. -/
def execCpdst (xa : RegPair) (s : State) : Out := s.setShadow 2 (s.scaledPair xa).1 (s.scaledPair xa).2

/-- CPSHP. -/
def execCpshp (xa xb : Reg) (s : State) : Out := s.setShadow 4 (s.rx xa) (s.rx xb)

/-- CPSTR. -/
def execCpstr (xa xb : Reg) (s : State) : Out := s.setShadow 6 (s.rx xa) (s.rx xb)

/-- The pointer checks of CPGO: each fat pointer that the transfer uses, and each scale pointer; the first failure's cause and
the pointer as the shadow word `shown` holds it. -/
def State.copyCause (s : State) (w shown : Vector Word 8) : Option (Nat × Word) :=
  let side (i : Nat) : Option (Nat × Word) :=
    let p := vget w i 0
    if copyIsTs w i then none
    else match s.pointerCause p with
      | some c => some (c, p)
      | none => if ptrBlk p = 0 then none else (s.scaleCause (vget w (i + 1) 0)).map fun c => (c, vget shown (i + 1) 0)
  side 0 <|> side 2

/-- The check of CPGO.mc's rectangle (10 R212): it lies in the partition, or at boot in the die's logical grid, which stands once the
die's L2P table is installed (22 R449). -/
def State.multicastCause (s : State) (k : Nat) (w : Vector Word 8) (xm : Word) : Option (Nat × Word) :=
  let dst := vget w 2 0
  let width := fieldOf xm 5 0 + 1
  let height := fieldOf xm 11 6 + 1
  if ptrSpace dst ≠ 1 ∨ copyTse w ≠ 0 ∨ (ptrBlk dst ≠ 0 ∧ ptrSpace (vget w 3 0) ≠ 1) then some (0x0C1, dst)
  else
    let o := targetTile k dst
    let all (f : Nat → Bool) : Bool := (List.range height).all fun j => (List.range width).all fun i =>
      decide (gridX o + i < 64) && decide (gridY o + j < 62) && f (gridId (gridX o + i) (gridY o + j))
    let inside := match s.partOf k with
      | none => s.booting && s.l2pOk.getLsbD (k / 1024) && all fun j => j / 1024 == k / 1024
      | some id => all (s.part id).holds
    if inside then none else some (0x065, 0)

/-- The next transfer id and the engine after it is taken. -/
def State.takeTxc (s : State) (k : Nat) : Nat × State :=
  ((s.tile k).eng.txc, s.modEng k fun g => { g with txc := (g.txc + 1) % 2 ^ 64 })

/-- A checked transfer enters its queue, or its status is decided at once (10 R211). The answer is that status, if any. -/
def State.placeXfer (s : State) (k : Nat) (x : Xfer) (sized : Bool) : State × Option Word :=
  let fast (code : Nat) : State × Option Word := (s, some (statusWord x.id code 1 0))
  if x.total = 0 then fast 0
  else if sized && copySizeBad x.words then fast 1
  else if copyExtentBad x.priv x.words then fast 2
  else ({ (s.modEng k fun g => g.enqueue { x with key := s.nextReq }) with nextReq := s.nextReq + 1 }, none)

/-- A transfer of a tile that is not yet filled in. -/
def State.blankXfer (s : State) (why : CopyFor) (w : Vector Word 8) (id priv slack : Nat) : Xfer :=
  { key := 0, id := id, why := why, slot := s.cur.slot, rd := none, words := w, cls := copyClass w, priv := priv,
    slack := slack, issued := s.gclk, mark := s.nextReq, fmark := s.me.fenced, total := copyTotal w, started := 0,
    flight := [], good := none, cancel := false }

/-- The launch of CPGO and CPGO.mc (10 R211). -/
def State.launchXfer (s : State) (why : CopyFor) (xi xs : Reg) (kc : SlackReg) : State :=
  let k := s.cur.tile
  let w := s.me.copy
  let (id, s) := s.takeTxc k
  let x := { s.blankXfer why w id s.priv (s.slackOf kc) with rd := some xs }
  let s := if xi = xs then s else s.putX 1 xi (word id)
  let s := s.markX xs
  match s.placeXfer k x true with
  | (s, some st) => s.landX k s.cur.slot xs st
  | (s, none) => s

/-- The checks of CPGO at issue. -/
def State.cpgoCause (s : State) (w shown : Vector Word 8) : Option (Nat × Word) :=
  if copyTse w = 3 ∨ fieldOf (vget w 5 0) 63 4 ≠ 0 then some (0x0C0, vget w 5 0) else s.copyCause w shown

/-- CPGO. -/
def execCpgo (xi xs : Reg) (k : SlackReg) (s : State) : Out :=
  if !(s.tile s.cur.tile).eng.commandRoom then .next s.hold
  else match s.cpgoCause s.me.copy s.me.copy with
    | some (c, v) => .next (s.trapAtIssue c v)
    | none => .next (s.launchXfer .cpgo xi xs k)

/-- The shadow words with the TILE of a CDSTQ in space 01, which CPGO.mc ignores, naming the tile itself (10 R212). -/
def ownScale (w : Vector Word 8) : Vector Word 8 :=
  if ptrSpace (vget w 3 0) = 1 then vset w 3 (setField (vget w 3 0) 54 43 0xFFF) else w

/-- CPGO.mc. -/
def execCpgoMc (xi xs xm : Reg) (k : SlackReg) (s : State) : Out :=
  if !(s.tile s.cur.tile).eng.commandRoom then .next s.hold
  else match s.cpgoCause (ownScale s.me.copy) s.me.copy <|> s.multicastCause s.cur.tile s.me.copy (s.rx xm) with
    | some (c, v) => .next (s.trapAtIssue c v)
    | none => .next (s.launchXfer (.multicast (fieldOf (s.rx xm) 5 0 + 1) (fieldOf (s.rx xm) 11 6 + 1)) xi xs k)

/-! ### CPCAN, CPQRY (10 R222, R223) -/

/-- The CPGO or CPGO.mc transfer with an id, among those that a tile holds. -/
def TileEng.byId (g : TileEng) (id : Nat) : Option Xfer :=
  g.xfers.find? fun x => x.id == id && (match x.why with | .cpgo | .multicast .. => true | _ => false)

/-- CPCAN. -/
def execCpcan (pd : PredReg) (xa : Reg) (s : State) : Out :=
  let k := s.cur.tile
  let tell (s : State) (b : Bool) : Out := .next (s.modMe fun st => st.land (.p pd) (predWord b))
  match (s.tile k).eng.byId (s.rx xa).toNat with
  | none => tell s false
  | some x =>
    if x.started = x.total then tell s false
    else if x.started = 0 then tell (s.endXfer k { x with cancel := true }) true
    else tell (s.modEng k fun g => (g.modXfer x.key fun y => { y with cancel := true }).unqueue x.key) true

/-- CPQRY. -/
def execCpqry (xd xa : Reg) (s : State) : Out :=
  let k := s.cur.tile
  let g := (s.tile k).eng
  let id := (s.rx xa).toNat
  let v :=
    if id = 0 then
      g.pages.length + (g.pages.filter fun p => p.done).length * 2 ^ 8 + (g.pages.filter fun p => p.faulted).length * 2 ^ 16
    else match g.xfers.find? fun x => x.id == id with
      | none => id % 65536 * 2 ^ 48
      | some x => id % 65536 * 2 ^ 48 + (if x.started = 0 then 1 else 2) * 2 ^ 40 + x.cls * 2 ^ 32 + x.done
  .next (s.landX k s.cur.slot xd (word v))

/-! ### Input fetches (06 R119, 10 R214) -/

/-- The shadow words of a raw copy of one row into this tile's TLM. -/
def rawWords (src : Word) (dst len cls : Nat) : Vector Word 8 :=
  vset (vset (vset (vset (Vector.replicate 8 0) 0 (setField src 63 57 0)) 2 (0x00FFF80000000000 + word dst)) 4
    (word (2 ^ 48 + 2 ^ 32 + len))) 5 (word cls)

/-- The first input fetch that has not begun among the 4 bottom-most records: record and input. -/
def TileCore.nextInput (c : TileCore) : Option (Nat × Nat) :=
  ((List.range 4).flatMap fun i =>
    match c.deque[i]? with
    | some t => ((List.range t.fetch.length).zip t.fetch).filterMap fun p => if p.2.begun then none else some (i, p.1)
    | none => []).head?

/-- An input fetch begins under a number, with its status where that is decided at once. -/
def TileCore.beginInput (c : TileCore) (i j key : Nat) (st : Option Word) : TileCore :=
  { c with deque := c.deque.modify i fun t => { t with fetch := t.fetch.modify j fun _ => ⟨true, key, st⟩ } }

/-- INPUT_FETCH_START (06 R119): the next input fetch of the event's tile takes an entry and an id, at user privilege. -/
def execInputFetchStart (s : State) : Out :=
  let k := s.cur.ev.tile
  let t := s.tile k
  match t.core.nextInput with
  | none => .next s
  | some (i, j) =>
    match t.core.deque[i]? with
    | none => .next s
    | some task =>
      if !t.engRuns || !t.eng.fetchRoom then .next s
      else
        let (src, w) := (task.ins[j]?).getD (0, 0)
        let (id, s) := s.takeTxc k
        let words := rawWords src (fieldOf w 18 0) (fieldOf w 39 20) (fieldOf task.flags 17 16)
        let x := { s.blankXfer .input words id 0 (fieldOf task.flags 11 0) with slot := 0, mark := 0, fmark := 0 }
        let key := s.nextReq
        let (s, st) := if (s.pointerCause src).isSome then (s, some (statusWord id 2 1 0)) else s.placeXfer k x false
        .next (s.modCore k fun c => c.beginInput i j key st)

/-! ### Page-fetch lists (10 R224-R226) -/

/-- PFL.ADD. DESIGN CHOICE: the destination is checked here at the strand's privilege, and once more at user privilege when the entry starts
(log entry 72). -/
def execPflAdd (pd : PredReg) (xa xb : Reg) (kc : SlackReg) (s : State) : Out :=
  let k := s.cur.tile
  let w := s.rx xa
  let e := s.rx xb
  let len := fieldOf e 39 20
  let dst := fieldOf e 18 0
  match s.pointerCause w with
  | some c => .next (s.trapAtIssue c w)
  | none =>
    if ptrSpace w = 1 then .next (s.trapAtIssue 0x049 w)
    else if ptrBlk w ≠ 0 then .next (s.trapAtIssue 0x045 w)
    else if fieldOf e 63 42 ≠ 0 ∨ fieldOf e 19 19 ≠ 0 ∨ 0x80000 < dst + len then .next (s.trapAtIssue 0x0C6 e)
    else if len ≠ 0 ∧ tlmMay s.priv true dst len = false then .next (s.trapAtIssue 0x064 e)
    else
      let full := decide (64 ≤ (s.tile k).eng.pages.length)
      let entry : PageFetch :=
        { key := 0, src := w, dst := dst, len := len, cls := fieldOf e 41 40, slack := s.slackOf kc, slot := s.cur.slot,
          issued := s.gclk, started := decide (len = 0), done := decide (len = 0), faulted := false }
      let s := if full then s else s.modEng k fun g => { g with pages := g.pages ++ [entry] }
      .next (s.modMe fun st => st.land (.p pd) (predWord (!full)))

/-- PFL.CLR. -/
def execPflClr (xd : Reg) (s : State) : Out :=
  let k := s.cur.tile
  let waiting := (s.tile k).eng.pages.filter fun p => !p.started
  .next ((s.modEng k fun g => { g with pages := g.pages.filter fun p => p.started }).landX k s.cur.slot xd (word waiting.length))

/-- The first entry of a list that has not started begins. -/
def beginPage (key : Nat) (faulted : Bool) : List PageFetch → List PageFetch
  | [] => []
  | p :: l => if p.started then p :: beginPage key faulted l else { p with key := key, started := true, done := faulted, faulted := faulted } :: l

/-- PAGE_FETCH_START (10 R214, R224): the next entry of the list takes a command entry once no input fetch waits for one; its
source range is checked under R210 now. DESIGN CHOICE: that check is at user privilege, for the destination too (log entry 72). -/
def execPageFetchStart (s : State) : Out :=
  let k := s.cur.ev.tile
  let t := s.tile k
  match t.eng.pages.find? fun p => !p.started with
  | none => .next s
  | some p =>
    if !t.engRuns || !t.eng.fetchRoom || t.core.nextInput.isSome then .next s
    else
      let words := rawWords p.src p.dst p.len p.cls
      let x := { s.blankXfer .page words 0 0 p.slack with slot := p.slot, issued := p.issued, mark := 0, fmark := 0 }
      let key := s.nextReq
      let (s, st) := s.placeXfer k x false
      .next (s.modEng k fun g => { g with pages := beginPage key st.isSome g.pages })

end Sys2Proof.Machine
end

