-- ==== Sys2Proof/Machine/Physical.lean ====
section
/-! DEFINITION. Physical tiles: the L2P and PTS registers, spares and retirement; and causes that a partition or a service
tile is given (01 R7, 14 R323, 17 R392, R406-R409). -/

namespace Sys2Proof.Machine

/-! ### L2P and PTS (17 Table 17.9) -/

/-- A PTS register by die × 1,024 + physical index. -/
def State.ptsWord (s : State) (i : Nat) : Word := (assoc s.pts i).getD (if s.fused.contains i then 2 else 1)

/-- PTS.STATE. -/
def ptsState (w : Word) : Nat := fieldOf w 2 0

/-- PTS.SVC. -/
def ptsSvc (w : Word) : Bool := bitOf w 3

/-- PTS.CECNT. -/
def ptsCecnt (w : Word) : Nat := fieldOf w 8 4

/-- Write a PTS register. -/
def State.setPts (s : State) (i : Nat) (w : Word) : State := { s with pts := assocPut s.pts i w }

/-- An L2P entry by logical id. -/
def State.l2pWord (s : State) (k : Nat) : Word := (assoc s.l2p k).getD 0

/-- The physical tile of a die that is its service tile: the one marked SVC. -/
def State.servicePhys (s : State) (d : Nat) : Option Nat :=
  (List.range 1024).map (1024 * d + ·) |>.find? fun i => ptsSvc (s.ptsWord i)

/-- The physical tile, as die × 1,024 + index, that a tile runs on. -/
def State.physOf (s : State) (k : Nat) : Option Nat :=
  if isService k then s.servicePhys (k / 1024)
  else
    let w := s.l2pWord k
    if bitOf w 15 then some (1024 * (k / 1024) + 32 * fieldOf w 9 5 + fieldOf w 4 0) else none

/-- The first spare of a die in physical order that is not the service tile (17 R408). -/
def State.spareOf (s : State) (d : Nat) : Option Nat :=
  (List.range 1024).map (1024 * d + ·) |>.find? fun i => ptsState (s.ptsWord i) == 1 && !ptsSvc (s.ptsWord i)

/-- A tile moves onto the first spare, its old physical tile taking a state; answers whether a spare was found (17 R408, R409). A service
tile takes its mark with it, and the spare that it moves onto stays unmapped (01 R7). -/
def State.replaceTile (s : State) (k oldState : Nat) : State × Bool :=
  match s.physOf k, s.spareOf (k / 1024) with
  | some i, some j =>
    let s := s.setPts i (setField (setField (s.ptsWord i) 2 0 oldState) 3 3 0)
    if isService k then (s.setPts j (setField (s.ptsWord j) 3 3 1), true) else
    let s := s.setPts j (setField (s.ptsWord j) 2 0 0)
    let w := word (2 ^ 15 + j % 1024 / 32 * 32 + j % 32)
    ({ s with l2p := assocPut s.l2p k w }, true)
  | _, _ => (s, false)

/-! ### Causes given to a strand (14 R323, 17 R392) -/

/-- A cause for the lowest-numbered live strand of a tile, or for slot 15, which becomes live with it. -/
def State.giveTile (s : State) (k priv cause : Nat) (tval : Word) : State :=
  let t := s.tile k
  match (List.range 16).find? fun n => (t.core.strand n).st == .live with
  | some n => s.modStrand k n fun st => { st with held := st.held ++ [⟨cause, tval⟩] }
  | none =>
    let s := if (s.partOf k).isSome then s.record k cause else s
    s.modStrand k 15 fun _ => overflowStrand t (match s.partOf k with | some id => (s.part id).ktab | none => Strand.free.k)
      priv cause tval

/-- TVAL of 0x144 and 0x146. -/
def State.tileTval (s : State) (k : Nat) : Word := word (s.devId * 2 ^ 12 + k)

/-- The tile of this device that takes a partition's causes: the one of lowest rank (07 R142) that is not lost. -/
def State.causeTile (s : State) (id : Nat) : Option Nat := leastBy (fun k => k) ((s.part id).tiles.filter fun k => !(s.tile k).lost)

/-- A cause that a partition takes at its next OPEN (17 R392), on this device when it holds the partition's lowest-ranked live tile; else the
management plane carries it to the device that does. -/
def State.dueCause (s : State) (id cause : Nat) (tval : Word) : State :=
  let p := s.part id
  if (p.devs.take p.nd).any (fun d => decide (d < s.devId)) || (s.causeTile id).isNone then s.emit (.cause id cause tval)
  else s.modPart id fun p => { p with due := p.due ++ [⟨cause, tval⟩] }

/-- A cause that a die's service tile takes by the link-event rule (17 R408). -/
def State.tileEvent (s : State) (die cause : Nat) (tval : Word) : State :=
  if (s.linkEvents.filter fun e => e.1 == die).length < 8 then
    { s with linkEvents := s.linkEvents ++ [(die, cause, tval.toNat)] }
  else s

/-- A link event comes about (14 R323): it is held in order, up to 8 for a die; later ones are counted in XCNT of the link
only. -/
def State.linkEvent (s : State) (die link cause : Nat) (tval : Word) : State :=
  if (s.linkEvents.filter fun e => e.1 == die).length < 8 then
    { s with linkEvents := s.linkEvents ++ [(die, cause, tval.toNat)] }
  else
    s.countAt (linkPoint link)

/-- What of a tile goes with it to another physical tile: what a slot of a firkin holds (13 Table 13.11). The latch is not in it, and of
the tile store only rows 0 to 63 in keep mode (11 R255). -/
def Tile.carried (t : Tile) : Tile :=
  { t with
    eng := { t.eng with front := none, back := none }
    ts := if t.eng.keep then t.ts.filter fun c => decide (c.1 < 64 * 128) else []
    tsBad := if t.eng.keep then t.tsBad.filter fun w => decide (w < 64 * 64) else []
    retained := 0, touched := [] }

/-- A tile is due for retirement (17 R408): it leaves its physical tile for a spare, or it stays mapped and 0x146 is raised. DESIGN
CHOICE: that of a tile of no partition goes to the die's service tile, as 0x145 does (log entry 48). -/
def State.retire (s : State) (k : Nat) : State :=
  match s.replaceTile k 3 with
  | (s, true) => s.modTile k Tile.carried
  | (s, false) =>
    let s := match s.physOf k with
      | some i => s.setPts i (setField (s.ptsWord i) 2 0 0)
      | none => s
    match s.partOf k with
    | some id => s.dueCause id 0x146 (s.tileTval k)
    | none => s.tileEvent (k / 1024) 0x146 (s.tileTval k)

end Sys2Proof.Machine
end

