-- ==== Sys2Proof/Machine/Superstep.lean ====
section
/-! DEFINITION. The barrier of a superstep: arrival, the chain, the decision, commit and abort, OPEN (13). -/

namespace Sys2Proof.Machine

/-! ### The chain (13 R283) -/

/-- Column of the corner of a die part. -/
def Part.cornerX (p : Part) (d : Nat) : Nat := max p.orgx (32 * (d % 2))

/-- Row of the corner of a die part. -/
def Part.cornerY (p : Part) (d : Nat) : Nat := max p.orgy (31 * (d / 2))

/-- The dies that hold a part of the rectangle. -/
def Part.dies (p : Part) : List Nat := (List.range 4).filter fun d => p.tiles.any fun k => k / 1024 == d

/-- The node to which a tile sends, lost tiles not considered. -/
def Part.up (p : Part) (k : Nat) : BarNode :=
  let d := k / 1024
  if gridX k ≠ p.cornerX d then .tile (gridId (gridX k - 1) (gridY k))
  else if gridY k ≠ p.cornerY d then .tile (gridId (gridX k) (gridY k - 1))
  else .die d

/-- The nearest node above a tile that is not a lost tile. -/
def State.upLive (s : State) (p : Part) : Nat → Nat → BarNode
  | 0, k => .die (k / 1024)
  | fuel + 1, k =>
    match p.up k with
    | .tile j => if (s.tile j).lost then State.upLive s p fuel j else .tile j
    | n => n

/-- Whether this device's root is the partition root (13 R286). -/
def Part.isRoot (p : Part) : Bool := p.tree.root || decide (p.nd ≤ 1)

/-- The parent of a node; the partition root has none. -/
def State.parentOf (s : State) (p : Part) : BarNode → Option BarNode
  | .tile k => some (s.upLive p 128 k)
  | .die _ => some .device
  | .station _ => some .device
  | .child _ => some .device
  | .device => if p.isRoot then none else some .parent
  | .parent => none

/-- The tiles of a partition that are not lost. -/
def State.liveTiles (s : State) (p : Part) : List Nat := p.tiles.filter fun k => !(s.tile k).lost

/-- The stations of the present dies. -/
def State.stations (s : State) : List Nat := (List.range 64).filter fun n => s.diePresent (n / 16)

/-- The nodes of this device that send up packets of a kind. -/
def State.senders (s : State) (p : Part) (kind : BarKind) : List BarNode :=
  (s.liveTiles p).map .tile ++ p.dies.map .die ++ (if kind = .done then s.stations.map .station else [])

/-- The nodes of this device that a node waits for. -/
def State.childrenOf (s : State) (p : Part) (kind : BarKind) (n : BarNode) : List BarNode :=
  (s.senders p kind).filter fun c => s.parentOf p c == some n

/-- The packets of a kind that a node has received. -/
def Part.received (p : Part) (kind : BarKind) (n : BarNode) : List BarMsg :=
  p.bar.got.filter fun m => m.kind == kind && m.dst == n

/-- Whether a node has received a packet from every child: from the device's children as many as NCHILD. -/
def State.allReceived (s : State) (p : Part) (kind : BarKind) (n : BarNode) : Bool :=
  let ms := p.received kind n
  (s.childrenOf p kind n).all (fun c => ms.any fun m => m.src == c) &&
    (n != .device || p.nd ≤ 1 || decide (p.tree.nchild ≤ (ms.filter fun m => match m.src with | .child _ => true | _ => false).length))

/-! ### Votes and reductions (13 R282, R285, R300) -/

/-- The combine of an integer or min/max SYNCR operation (13 Table 13.7). -/
def syncCombine (op : SyncOp) (a b : Word) : Word :=
  match op with
  | .add => a + b
  | .min => minS a b
  | .max => maxS a b
  | .and => a &&& b
  | .or => a ||| b
  | .xor => a ^^^ b
  | .fmin => word (fminBits a.toNat b.toNat)
  | .fmax => word (fmaxBits a.toNat b.toNat)
  | .fadd => a

/-- What one SYNCR strand contributes (13 Table 13.7). -/
def syncContribution (op : SyncOp) (v : Word) : BarRed :=
  match op with
  | .fadd => .acc (Acc.clear.add (fp32 v))
  | .fmin | .fmax => .int op (word (if (fp32 v).isNaN then nan32 else fieldOf v 31 0))
  | _ => .int op v

/-- Two contributions combined, and whether their operations differ. -/
def BarRed.join : BarRed → BarRed → BarRed × Bool
  | .none, r => (r, false)
  | r, .none => (r, false)
  | .int f a, .int g b => if f = g then (.int f (syncCombine f a b), false) else (.int f a, true)
  | .acc a, .acc b => (.acc (a.merge b), false)
  | r, _ => (r, true)

/-- The result of SYNCR (13 Table 13.7). -/
def syncResult (op : SyncOp) (r : BarRed) : Word :=
  match r with
  | .acc a => word (a.round .fp32 .rn false 0)
  | .int _ v => v
  | .none =>
    match op with
    | .min => 0x7FFFFFFFFFFFFFFF
    | .max => 0x8000000000000000
    | .and => 0xFFFFFFFFFFFFFFFF
    | .fmin | .fmax => 0x7FC00000
    | _ => 0

/-- Two vote bytes combined: bit 0 is the OR, bits 7:1 the maximum (13 R285). -/
def voteJoin (a b : Nat) : Nat := (a % 2 ||| b % 2) + 2 * max (a / 2) (b / 2)

/-- Whether a vote asks for an abort. -/
def voteAbort (v : Nat) : Bool := v % 2 == 1

/-- The vote byte of a recorded cause's class. -/
def causeVote (c : Nat) : Nat := 2 * (1 + c / 32)

/-- A tile's vote byte (13 R282). -/
def Tile.voteByte (t : Tile) : Nat := t.causes.foldl (fun v c => voteJoin v (causeVote c)) (if t.vote then 1 else 0)

/-- The SYNCR contributions of a tile. -/
def Tile.contributions (t : Tile) : List BarRed :=
  t.core.slots.toList.filterMap fun st =>
    match st.st, st.sleep with
    | .live, .sync _ (some (op, v)) => some (syncContribution op v)
    | _, _ => none

/-- Contributions combined, and whether some operations differ. -/
def joinAll (l : List BarRed) : BarRed × Bool :=
  l.foldl (fun a r => ((a.1.join r).1, a.2 || (a.1.join r).2)) (.none, false)

/-- What a node sends up in an ARRIVE: its inputs, joined with its own contribution; and the causes that R285 records at
it. -/
def State.combined (s : State) (p : Part) (n : BarNode) : Nat × BarRed × List Nat :=
  let ms := p.received .arrive n
  let own := match n with
    | .tile k => if (s.tile k).arrived then (s.tile k).contributions else []
    | _ => []
  let (red, clash) := joinAll (own ++ ms.map (·.red))
  let causes := (if clash then [0x0E7] else []) ++ (if ms.any fun m => m.ssnum != p.ssnum then [0x0E6] else [])
  let mine := match n with
    | .tile k => if (s.tile k).arrived || (s.tile k).cast then (s.tile k).voteByte else 0
    | .device => if p.forced then 1 + causeVote 0x0EA else 0
    | _ => 0
  let v := ms.foldl (fun v m => voteJoin v m.vote) mine
  (causes.foldl (fun v c => voteJoin v (1 + causeVote c)) v, red, causes)

/-! ### Packets between devices (13 R284, 14 R306) -/

/-- KIND (13 Table 13.3). -/
def BarKind.code : BarKind → Nat
  | .arrive => 1
  | .decide => 2
  | .done => 3
  | .open => 4
  | .save => 5

/-- ROP of an operation (13 Table 13.7). -/
def syncRop : SyncOp → Nat
  | .add => 0
  | .min => 1
  | .max => 2
  | .and => 3
  | .or => 4
  | .xor => 5
  | .fmin => 6
  | .fmax => 7
  | .fadd => 8

/-- ROP and RVAL of a reduction, and the second flit of an accumulator (13 R284). -/
def BarRed.fields : BarRed → Nat × Nat × List Byte
  | .none => (0xF, 0, [])
  | .int op v => (syncRop op, v.toNat, [])
  | .acc a =>
    let bit (b : Bool) (n : Nat) : Nat := if b then n else 0
    (8, 0, toBytes 40 (BitVec.ofInt 320 a.v).toNat ++ toBytes 8 (a.cnt % 2 ^ 43) ++
      [BitVec.ofNat 8 (bit a.nan 8 + bit a.pinf 4 + bit a.ninf 2 + bit a.nz 1)] ++ List.replicate 15 0)

/-- The payload of a barrier packet (13 Table 13.3). -/
def barPayload (id : Nat) (kind : BarKind) (vote ssnum : Nat) (red : BarRed) : List Byte :=
  let (rop, rval, second) := red.fields
  toBytes 2 id ++ [BitVec.ofNat 8 kind.code, BitVec.ofNat 8 vote] ++ toBytes 4 ssnum ++ [BitVec.ofNat 8 rop] ++ List.replicate 7 0 ++
    toBytes 8 rval ++ List.replicate 40 0 ++ second

/-- The reduction part of a packet's payload. -/
def redOf (l : List Byte) : BarRed :=
  let b (i n : Nat) : Nat := ofBytes ((l.drop i).take n)
  let v := word (b 16 8)
  match b 8 1 % 16 with
  | 0 => .int .add v
  | 1 => .int .min v
  | 2 => .int .max v
  | 3 => .int .and v
  | 4 => .int .or v
  | 5 => .int .xor v
  | 6 => .int .fmin v
  | 7 => .int .fmax v
  | 8 => .acc ⟨(BitVec.ofNat 320 (b 64 40)).toInt, b 104 8 % 2 ^ 43, b 112 1 / 8 % 2 == 1, b 112 1 / 4 % 2 == 1, b 112 1 / 2 % 2 == 1,
      b 112 1 % 2 == 1⟩
  | _ => .none

/-- The superstep that is being decided: after a commit's decision the one before SSNUM. -/
def Part.deciding (p : Part) : Nat := if p.bar.commit == some true then (p.ssnum + 2 ^ 32 - 1) % 2 ^ 32 else p.ssnum

/-- A barrier packet leaves the device root for another device: on VC 0 with slack 0, by the route of 14 R308. -/
def State.barOut (s : State) (id dev : Nat) (kind : BarKind) (vote : Nat) (red : BarRed) : State :=
  let p := s.part id
  let payload := barPayload id kind vote (if kind = .open then p.ssnum else p.deciding) red
  s.mail (.router p.corner) p.corner (packHeader 0 dev 0 s.devId 0 p.ten 0 false 0 (payload.length / 64 - 1) 0 false 0xF3 4 id) payload

/-- The barrier packet of another device of partition `id` that stands at the device root under the event's number: its source device, its
KIND, VOTE and SSNUM, and its reduction. -/
def State.barIn (s : State) (id : Nat) : Option (Nat × Nat × Nat × Nat × BarRed) :=
  match s.letter s.cur.ev.id 0xF3 with
  | none => none
  | some (hdr, l) =>
    let b (i n : Nat) : Nat := ofBytes ((l.drop i).take n)
    let src := headerField hdr 85 72
    if src ≠ s.devId ∧ src ∈ (s.part id).devs ∧ b 0 2 = id ∧ 1 < (s.part id).nd then some (src, b 2 1, b 3 1, b 4 4, redOf l) else none

/-- Where a node of the barrier chain stands: die roots beside the corners of their die parts (13 R283). -/
def Part.pointOf (p : Part) : BarNode → Point
  | .tile k => .tile k
  | .station n => .station n
  | .die d => .router (gridId (p.cornerX d) (p.cornerY d))
  | _ => .router p.corner

/-! ### Up packets -/

/-- A packet for a node of this device enters the chain: one flit, two with an accumulator, on VC 0 (13 R284). -/
def State.barPost (s : State) (id : Nat) (kind : BarKind) (src dst : BarNode) (vote : Nat) (red : BarRed) : State :=
  let p := s.part id
  let m : BarMsg := ⟨s.nextReq, kind, src, dst, vote, p.ssnum, red⟩
  let s := { s.modPart id fun p => { p with bar := { p.bar with flight := p.bar.flight ++ [m] } } with nextReq := s.nextReq + 1 }
  s.shipFrom id (p.pointOf src) .barrier 0xF3 m.id (match red with | .acc _ => 2 | _ => 1) (p.pointOf dst)

/-- A node sends a packet to its parent; to another device it leaves by a port. -/
def State.sendUp (s : State) (id : Nat) (n : BarNode) (kind : BarKind) (vote : Nat) (red : BarRed) : State :=
  let p := s.part id
  let s' := s.modPart id fun p => { p with bar := { p.bar with sent := p.bar.sent ++ [(n, kind)] } }
  match s.parentOf p n with
  | none => s'
  | some .parent =>
    let m : BarMsg := ⟨0, kind, n, .parent, vote, p.ssnum, red⟩
    (s'.modPart id fun p => { p with bar := { p.bar with got := p.bar.got ++ [m] } }).barOut id p.tree.parent kind vote red
  | some q => s'.barPost id kind n q vote red

/-- Whether a node has already sent an ARRIVE that asks for an abort. -/
def Part.abortSent (p : Part) (n : BarNode) : Bool :=
  (p.bar.flight ++ p.bar.got).any fun m => m.kind == .arrive && m.src == n && voteAbort m.vote

/-- A packet of the chain leaves the state. -/
def State.barTake (s : State) (id : Nat) (m : BarMsg) : State :=
  (s.unload m.id).modPart id fun p => { p with bar := { p.bar with flight := p.bar.flight.filter fun q => q.id != m.id } }

/-- Whether a node has what it passes down to its children: the device root once it has sent the packet, any other once it has received
it. After the root's last DONE no DECIDE is passed on. -/
def Part.passesDown (p : Part) (kind : BarKind) (n : BarNode) : Bool :=
  match kind, n with
  | .decide, .device => p.bar.commit.isSome && !p.bar.sent.contains (.device, .done)
  | .decide, n => p.bar.applied.contains n
  | .open, .device => p.bar.sent.contains (.device, .open)
  | .open, n => p.bar.opened.contains n
  | kind, n => p.bar.sent.contains (n, kind)

/-- Every node sends a down packet to those of its children that have neither received it nor have it on its way: after each receipt to all
of them at once, after a loss to those that were relinked (13 R283). -/
def State.passDown (s : State) (id : Nat) (kind : BarKind) : State :=
  let p := s.part id
  let lacks (c : BarNode) : Bool := !p.passesDown kind c && !p.bar.flight.any fun m => m.kind == kind && m.dst == c
  ((s.senders p .done).filter lacks).foldl (fun s c =>
    match s.parentOf p c with
    | some n => if p.passesDown kind n then s.barPost id kind n c p.bar.vote (if kind = .decide then p.bar.result else .none) else s
    | none => s) s

/-- A tile of a partition is lost (13 R283): what its children sent it, received or on its way, goes to their new parents, and what it would
have passed down comes from those. -/
def State.relink (s : State) (id k : Nat) : State :=
  let p := s.part id
  let lost := p.bar.flight.filter fun m => m.dst == .tile k
  let s := lost.foldl (fun s m => s.barTake id m) s
  let s := lost.foldl (fun s m => match m.kind, s.parentOf p m.src with
    | .arrive, some n | .done, some n => s.barPost id m.kind m.src n m.vote m.red
    | _, _ => s) s
  let move (m : BarMsg) : BarMsg := if m.dst = .tile k then { m with dst := (s.parentOf p m.src).getD m.dst } else m
  let s := s.modPart id fun p => { p with bar := { p.bar with got := p.bar.got.map move } }
  [BarKind.decide, .open, .save].foldl (fun s kind => s.passDown id kind) s

/-- A node sends its ARRIVE once it holds every input, or at once when its vote asks for an abort (13 R285, R287). The root
sends none. -/
def State.tryArrive (s : State) (id : Nat) (n : BarNode) : State :=
  let p := s.part id
  let (vote, red, causes) := s.combined p n
  let ready := match n with
    | .tile k => (s.tile k).arrived
    | _ => true
  if p.bar.commit.isSome || (s.parentOf p n).isNone then s
  else if (voteAbort vote && !p.abortSent n) || (ready && s.allReceived p .arrive n && !p.bar.sent.contains (n, .arrive)) then
    let s := match n with
      | .tile k => causes.foldl (fun (s : State) c => s.stickyVote k c) s
      | _ => s
    s.sendUp id n .arrive vote red
  else s

/-- Whether no packet of a tile awaits an answer, of its strands or of its engines. -/
def State.answered (s : State) (k : Nat) : Bool := s.reqs.all fun r => !Req.unanswered s k r

/-- Whether a node may send DONE: it has applied the DECIDE, an aborted tile has no request outstanding, and every context
bound for a tile has arrived (13 R288, R289). -/
def State.doneReady (s : State) (id : Nat) (n : BarNode) : Bool :=
  let p := s.part id
  match n with
  | .tile k =>
    p.bar.applied.contains n &&
      (if p.bar.commit = some false then s.answered k
       else !(s.moving.any fun m => m.dst == k) && (s.tile k).coming == 0 &&
        p.tiles.all fun j => p.bar.applied.contains (.tile j) || (s.tile j).lost ||
          (s.tile j).core.slots.toList.all fun st => match st.move with
            | some m => !(m.dev == s.devId && m.tile == k)
            | none => true)
  | .device | .station _ | .die _ => p.bar.applied.contains n
  | _ => true

/-! ### DECIDE and OPEN -/

/-- The tree that the launch installs (13 R286). -/
def Part.launchTree (p : Part) : BarTree :=
  { parent := if p.di = 0 then 0 else p.devs.getD ((p.di - 1) / 16) 0
    root := decide (p.di = 0)
    nchild := min 16 (p.nd - 1 - 16 * p.di) }

/-- The child devices of this one in the barrier tree: in the launch tree by their index; else those whose ARRIVE has come, or, while
they are fewer than NCHILD, every device but the parent (log entry 60). -/
def State.childDevs (s : State) (p : Part) : List Nat :=
  if p.nd ≤ 1 ∨ p.tree.nchild = 0 then []
  else if p.tree = p.launchTree then (p.devs.drop (16 * p.di + 1)).take p.tree.nchild
  else
    let known := ((p.received .arrive .device).filterMap fun m => match m.src with | .child d => some d | _ => none).eraseDups
    if p.tree.nchild ≤ known.length then known else p.devs.filter fun d => d != s.devId && (p.tree.root || d != p.tree.parent)

/-- A packet to each child device. -/
def State.tellChildren (s : State) (id : Nat) (kind : BarKind) (vote : Nat) (red : BarRed) : State :=
  (s.childDevs (s.part id)).foldl (fun s d => s.barOut id d kind vote red) s

/-- What a timer of a partition holds as it starts. -/
def State.timerStart (s : State) (p : Part) : Nat := if p.stopped then 0 else s.gclk

/-- The decision is known on this device: on a commit SSNUM advances and the deadline ends; a forced abort reinstalls the
launch tree (13 R287, R288, 17 R402). -/
def State.settleVote (s : State) (id : Nat) (vote : Nat) (red : BarRed) : State :=
  let commit := !voteAbort vote
  let s := s.tellChildren id .decide vote red
  let s := s.modPart id fun p =>
    let p := { p with bar := { p.bar with commit := some commit, vote := vote, result := red } }
    if commit then { p with ssnum := (p.ssnum + 1) % 2 ^ 32, deadline := none }
    else if p.forced then
      { p with deadline := none, tree := p.launchTree, treeNext := none, slice := if p.bar.saving then none else some (s.timerStart p) }
    else p
  s.passDown id .decide

/-- Whether a tile of a partition on this device recorded a capacity cause (13 R280). -/
def State.capacityAbort (s : State) (p : Part) : Bool := (s.liveTiles p).any fun k => (s.tile k).capCause.isSome

/-! ### Apply at a tile (13 R288, R289) -/

/-- Whether all 8 bytes of a word stand in an overlay. -/
def overHasWord (o : Overlay) (w : Nat) : Bool := (List.range 8).all fun i => (assoc o (8 * w + i)).isSome

/-- One source's deltas (07 R142): a byte that the tile itself wrote keeps its value against a lower rank. -/
def Tile.applyDelta (t : Tile) (rank src : Nat) (o : Overlay) : Tile :=
  let mine := o.filter fun c => !(decide (src < rank) && t.own.contains c.1)
  let cells := mine.filter fun c => !t.bad.contains (c.1 / 8) || overHasWord mine (c.1 / 8)
  { t with tlm := overApply t.tlm cells, bad := t.bad.filter fun w => !overHasWord mine w }

/-- The deltas of every source, in ascending order of rank. -/
def Tile.applyDeltas (t : Tile) (rank : Nat) : Tile :=
  { t.deltas.foldl (fun t d => t.applyDelta rank d.1 d.2) t with deltas := [], undo := [], undoBad := [], own := [] }

/-- A SYNC or SYNCR strand at a commit: its destination is written and its pc passes the bundle. -/
def Strand.synced (ssnum : Nat) (r : BarRed) (st : Strand) : Strand :=
  match st.sleep with
  | .sync xd none => (st.land (.x xd) (word ssnum)).wake
  | .sync xd (some (op, _)) => (st.land (.x xd) (syncResult op r)).wake
  | _ => st

/-- Whether a strand's MOVEAT may be met: no register but its destination is pending (06 R133). -/
def Strand.mayMove (st : Strand) : Bool :=
  match st.move with
  | some m => st.st == .live && (st.unmark (.x m.rd)).pend == 0 && st.pendP == 0
  | none => false

/-- A strand leaves its tile for another one. -/
def State.departStrand (s : State) (k n : Nat) : State :=
  let s := (s.modCore k fun c => c.leaveAll n).releaseAll k n
  s.modStrand k n fun _ => Strand.free

/-- One MOVEAT request at a commit (06 R133): to its own tile it completes in place; to a tile with a free slot the context
leaves as a message; to another device when `other` says that a slot is free there. -/
def State.moveStrand (s : State) (id k : Nat) (other : Bool) (n : Nat) : State :=
  let st := s.strand k n
  match st.move with
  | none => s
  | some m =>
    if !st.mayMove then s
    else if m.dev ≠ s.devId then
      if other then (s.departStrand k n).mailContext k n m.dev m.tile id { st.endShadows with resv := [] } else s
    else if m.tile = k then
      ((s.modCore k fun c => c.leaveAll n).releaseAll k n).modStrand k n fun st => st.moved s.devId k
    else if (s.tile m.tile).core.freeSlots.length ≤ (s.moving.filter fun q => q.dst == m.tile).length || (s.tile m.tile).lost then s
    else (s.departStrand k n).sendContext k n m.tile id st

/-- A tile applies a commit (13 R288, steps 1 to 4): `other` says that a slot is free on the other device that a MOVEAT
names, and `coming` how many contexts of other devices are bound for this tile. Committed messages are ready to be sent (15 R335); the keep entries and the page-fetch list end (06 R125, 10 R226). -/
def State.commitTile (s : State) (id k : Nat) (other : Bool) (coming : Nat) : State :=
  let p := s.part id
  let rank := s.rank k
  let s := s.modTile k fun t =>
    let t := t.applyDeltas rank
    let core := { t.core with slots := t.core.slots.map (Strand.synced p.ssnum p.bar.result) }
    let core := core.keeps.foldl TileCore.endKeep core
    { t with
      core := core
      eng := { t.eng with pages := [], held := [] }
      outgoing := t.outgoing ++ t.eng.held
      xpIn := [], capCause := none, decided := true, coming := if p.nd ≤ 1 then 0 else coming }
  (List.range 15).foldl (fun s n => s.moveStrand id k other n) s

/-- Requests that wait at a node are answered with a discard (13 R289). -/
def State.discardWaiting (s : State) (id : Nat) (n : BarNode) : State :=
  (s.reqs.filter fun r => r.stage == .waiting && r.part == id && r.op.isMemory && r.node == n).foldl
    (fun s r => s.answer r .discard 0) s

/-- Whether a packet is one of the barrier or of the management plane, which no abort discards. -/
def Req.outlasts (r : Req) : Bool :=
  match r.op with
  | .cargo .barrier .. | .cargo .stones .. => true
  | .transit hdr _ => headerField hdr 31 24 == 0xF3 || headerField hdr 31 24 == 0xFA
  | _ => false

/-- A tile applies an abort (13 R289, Table 13.1): everything as at open, its scratch zero. -/
def State.abortTile (s : State) (id k : Nat) : State :=
  let mine (r : Req) : Bool := r.sdev == s.devId && r.tile == k
  let drop (r : Req) : Bool :=
    (!r.op.isMemory && !r.isXp && !r.outlasts && r.part == id && (mine r || (r.dev == s.devId && r.ttile == k))) ||
      (mine r && (r.stage == .lost || r.stage == .back))
  let s := { s with
    reqs := s.reqs.filter fun r => !drop r
    holders := s.holders.filter fun h => h.tile != k
    xinvs := s.xinvs.filter fun x => s.reqs.all fun q => !(mine q && q.stage == Stage.lost && q.visits x.id)
    steals := s.steals.filter fun q => q.thief != k && q.victim != k }
  let s := s.discardWaiting id (.tile k)
  s.modTile k fun t =>
    let scr := t.eng.scrbase
    let tlm := (t.undo.foldl (fun m u => memWrite m (64 * u.1) u.2) t.tlm).filter fun c => decide (c.1 < scr)
    let bad := (t.bad.filter fun w => decide (8 * w < scr) && (assoc t.undo (w / 8)).isNone) ++ t.undoBad
    let core := { t.openCore with
      slots := t.openCore.slots.map fun st => { st with resv := [] }
      inbox := t.openCore.inbox ++ t.xpIn
      accepted := t.openCore.accepted + t.xpIn.length }
    let eng := { t.openEng with front := none, back := none, chunkAt := t.eng.chunkAt }
    let t := { t with
      core := core, eng := eng, tlm := tlm, bad := bad, undo := [], undoBad := [], own := [], deltas := []
      inAfter := [], xpIn := [], lcause := t.causes.head?.getD 0x1FF, causes := [], vote := false, cast := false, arrived := false, coming := 0
      port := t.port.filter fun i => s.reqs.any fun r => r.id == i, decided := true }
    if t.keepOpen then (if t.keepCopy then t else t.copyBack) else { t with ts := [], tsBad := [] }

/-! ### Apply at a station -/

/-- Whether a byte of an overlay belongs to a station. -/
def homeOf (n : Nat) (c : Host.Cell) : Bool := homeStation c.1 == n

/-- One tile's pending versions at a station become committed; an uncorrectable word is written only where it is covered
whole (17 R407). -/
def State.commitVersions (s : State) (n : Nat) (o : Overlay) : State :=
  let mine := o.filter (homeOf n)
  let cells := mine.filter fun c => !s.hbmBad.contains (c.1 / 8) || overHasWord mine (c.1 / 8)
  { s with hbm := overApply s.hbm cells, hbmBad := s.hbmBad.filter fun w => !overHasWord mine w }

/-- One element's reductions at the commit of superstep `ssnum` (08 R175); on an uncorrectable base they are discarded, and the station
counts the error. -/
def State.commitRed (s : State) (seed : Word) (ssnum : Nat) (e : RedElem) : State :=
  if badRange s.hbmBad e.pa e.op.size then { s with stationErrs := bump s.stationErrs (homeStation e.pa) }
  else
    let rw := if e.op = .addBf16Sr then randomWord seed (word e.pa) ssnum else 0
    let v := e.op.resolve (ofBytes (memBytes s.hbm e.pa e.op.size)) e.parts rw
    { s with hbm := memWrite s.hbm e.pa (toBytes e.op.size v) }

/-- The 64-byte lines of a list of byte ranges. -/
def linesOf (l : List (Nat × Nat)) : List Nat :=
  (l.flatMap fun r => (List.range ((r.1 + r.2 + 63) / 64 - r.1 / 64)).map (r.1 / 64 + ·)).eraseDups

/-- A station applies a commit (13 R288): versions by rank, then reductions; the journal is dropped. -/
def State.commitStation (s : State) (id n : Nat) : State :=
  let p := s.part id
  let old := (p.ssnum + 2 ^ 32 - 1) % 2 ^ 32
  let reds := p.reds.filter fun e => homeStation e.pa == n
  let lines := linesOf (p.versions.flatMap (fun v => (v.2.filter (homeOf n)).map fun c => (c.1, 1)) ++
    reds.map (fun e => (e.pa, e.op.size)) ++
    (p.journal.filter fun e => homeStation e.pa == n).map fun e => (e.pa, e.old.length))
  let s := p.versions.foldl (fun s v => s.commitVersions n v.2) s
  let s := reds.foldl (fun s e => s.commitRed p.seed old e) s
  s.modPart id fun p =>
    { p with
      versions := p.versions.map fun v => (v.1, v.2.filter fun c => !homeOf n c)
      reds := p.reds.filter fun e => homeStation e.pa != n
      journal := p.journal.filter fun e => homeStation e.pa != n
      bar := { p.bar with changed := p.bar.changed ++ lines } }

/-- A station applies an abort (13 R289): versions and accumulators are discarded, the journal is undone newest first, and the
reservations of the partition are revoked (08 R167, R177). -/
def State.abortStation (s : State) (id n : Nat) : State :=
  let p := s.part id
  let s := s.discardWaiting id (.station n)
  let mine := p.journal.filter fun e => homeStation e.pa == n
  let s := { s with holders := s.holders.filter fun h => !(homeStation (8 * h.word) == n && s.partOf h.tile == some id) }
  let s := mine.foldl State.undoEntry s
  s.modPart id fun p =>
    { p with
      versions := p.versions.map fun v => (v.1, v.2.filter fun c => !homeOf n c)
      reds := p.reds.filter fun e => homeStation e.pa != n
      journal := p.journal.filter fun e => homeStation e.pa != n
      bar := { p.bar with changed := p.bar.changed ++ linesOf (mine.map fun e => (e.pa, e.old.length)) } }

/-! ### Apply at the device (13 R288 step 5) -/

/-- The ceiling of a clock epoch (18 R430). -/
def State.clockCeiling (s : State) : Nat :=
  if s.pwravg ≤ s.pwrbal then 100 else max 20 (s.clkstep * s.pwrbal / s.pwravg)

/-- Install an epoch: of several for one superstep the lowest step stands (17 R411). -/
def installEpoch (l : List (Nat × Nat)) (m step : Nat) : List (Nat × Nat) :=
  if l.any fun e => e.1 == m then updateWhere l (fun e => e.1 == m) fun e => (m, min e.2 step) else l ++ [(m, step)]

/-- Stones leave for a device in a packet of the management plane (17 R410, 14 Table 14.3): within this device from the device root to the
Perroed controller. DESIGN CHOICE: the packet of another device holds their number in its first 8 bytes (log entry 52). -/
def State.shipStones (s : State) (id dev n : Nat) : State :=
  let p := s.part id
  if dev = s.devId then
    let job := s.nextReq
    let s := { s with stones := s.stones ++ [(job, s.devId, n)], nextReq := job + 1 }
    s.place { s.blankReq p.corner 0 (.cargo .stones 0xFA job 1 (.router 0)) with
      sv := false, part := id, ten := p.ten, slack := 4095, came := .strand 5 } (.router p.corner)
  else
    s.mail (.router p.corner) p.corner (packHeader 0 dev 0 s.devId 0 p.ten 4095 false 5 0 0 false 0xFA 5 id) (toBytes 8 n ++ List.replicate 56 0)

/-- Staged stones leave the balance. -/
def State.sendStones (s : State) (id : Nat) (g : Nat × Nat) : State := { s with pwrbal := s.pwrbal - g.2 }.shipStones id g.1 g.2

/-- Whether a stolen record is on its way to a tile of a partition (06 R122). -/
def State.stolenTo (s : State) (p : Part) : Bool :=
  s.steals.any fun q => p.holds q.thief && (match q.reply with | some (some _) => true | _ => false)

/-- Whether no tile of a partition has a live strand, a record or a queued command, and none is on its way (18 R422). -/
def State.idlePart (s : State) (id : Nat) : Bool :=
  (s.moving.all fun m => m.part != id) && !s.stolenTo (s.part id) && (s.liveTiles (s.part id)).all fun k =>
    let t := s.tile k
    t.core.slots.toList.all (fun st => st.st != .live) && t.core.deque.isEmpty && t.eng.xfers.isEmpty && t.eng.mq.isEmpty &&
      t.eng.vcq.isEmpty && t.eng.collq.isEmpty && t.eng.repq.isEmpty

/-- The running launch is Done (18 R422), and what depends on it is satisfied (R420). -/
def State.finishLaunch (s : State) (id : Nat) : State :=
  match (s.part id).running with
  | none => s
  | some (fn, n) =>
    let s := s.modSlot fn n fun q => { q with state := 3, energy := (s.part id).lenergy }
    let s := s.modFunction fn fun f => { f with slots := f.slots.map fun q => (q.1, { q.2 with deps := q.2.deps.filter fun m => m != n }) }
    (s.raiseBit fn 0).modPart id fun p => { p with running := none }

/-- The device applies a commit: stones, what is staged for the partition's other devices, the end of the launch (for the other devices
`ok`), and tiles due for retirement. -/
def State.commitDevice (s : State) (id : Nat) : State :=
  let p := s.part id
  let s := p.give.foldl (fun s g => s.sendStones id g) s
  let s := if p.nd ≤ 1 then s else s.emit (.staged id p.staged p.epochNew s.clockCeiling)
  let s := s.modPart id fun p => { p with give := [], cretry := false, ceiling := s.clockCeiling }
  let s := if s.idlePart id && (p.nd ≤ 1 || s.cur.ev.ok) then s.finishLaunch id else s
  p.tiles.foldl (fun s k =>
    match s.physOf k with
    | some i => if ptsState (s.ptsWord i) == 5 && !(s.tile k).lost then s.retire k else s
    | none => s) s

/-- The device applies an abort: what was staged is dropped, and R280 decides about a capacity abort, of which `elsewhere` says that a
tile of another device recorded one. -/
def State.abortDevice (s : State) (id : Nat) (elsewhere : Bool) : State :=
  let p := s.part id
  let trap := bitOf p.sspol 0 || p.cretry
  let cap := s.capacityAbort p || (decide (1 < p.nd) && elsewhere)
  let s := p.tiles.foldl (fun s k => s.modTile k fun t =>
    let t : Tile := if cap && !trap then { t with capCause := none } else t
    if t.lost then { t with causes := [], vote := false, cast := false } else t) s
  s.modPart id fun p =>
    { p with
      staged := [], give := [], epochNew := [], treeNext := none, abcnt := (p.abcnt + 1) % 2 ^ 32, lvote := p.bar.vote
      cretry := p.cretry || (cap && !trap)
      rounds := p.rounds.filterMap fun r => r.carried.map fun l => { r with served := l }
      colls := [] }

/-- Whether every tile and station of this device has applied the DECIDE, and every context bound for a tile has arrived (13 R288). -/
def State.allApplied (s : State) (id : Nat) : Bool :=
  (s.liveTiles (s.part id)).all (fun k => s.doneReady id (.tile k)) && s.stations.all fun n => (s.part id).bar.applied.contains (.station n)

/-! ### OPEN -/

/-- The staged write of a control register that stands: the last one of the highest-ranked tile (17 R382). -/
def lastStaged (l : List StagedCsr) (num : Nat) : Option Word :=
  (l.foldl (fun (a : Option StagedCsr) c =>
    if c.num ≠ num then a
    else match a with
      | some b => if b.rank ≤ c.rank then some c else a
      | none => some c) none).map (·.val)

/-- A lost tile's place is taken by a spare that starts as a newly launched tile (17 R409). -/
def State.replaceLost (s : State) (id k : Nat) : State :=
  if !(s.tile k).lost || !(s.tile k).recast.isEmpty then s
  else match s.replaceTile k 4 with
    | (s, false) => s.dueCause id 0x146 (s.tileTval k)
    | (s, true) =>
      let p := s.part id
      let shape := (s.tile p.corner).tlm.filter fun c => decide (c.1 < 0x100)
      s.renewTile k { Tile.reset with tlm := shape, core := { TileCore.reset with tvec := p.entryPc } }

/-- After a commit a spare takes the place of every lost tile (17 R409). -/
def State.replaceAll (s : State) (id : Nat) (commit : Bool) : State :=
  if commit then (s.part id).tiles.foldl (fun s k => s.replaceLost id k) s else s

/-- The contributions of a round that was not formed end with its superstep (15 R342). -/
def State.dropRound (s : State) (r : Round) : State :=
  if r.result.isSome then s else r.parts.foldl (fun s q => s.unload (groupJob 1 q.1 r.job)) s

/-- OPEN leaves the device root for the tiles and stations (13 R287): staged registers, the barrier tree and a clock epoch
take effect, and after a commit a lost tile is replaced. Of the other devices of the partition the event brings what they staged, the least
of their ceilings (18 R430), the tree groups that their members make inactive, and how many members they hold (15 R340). -/
def State.openPart (s : State) (id : Nat) : State :=
  let p := s.part id
  let e := s.cur.ev
  let alone := decide (p.nd ≤ 1)
  let commit := p.bar.commit == some true
  let s := (s.tellChildren id .open 0 .none).replaceAll id commit
  let old := (p.ssnum + 2 ^ 32 - 1) % 2 ^ 32
  let ceiling := if alone || e.op = 0 then p.ceiling else min p.ceiling (max 20 e.op)
  let asked := if commit then p.epochNew ++ (if alone then [] else e.epochs) else []
  let epochs := asked.foldl (fun l q => installEpoch l q.1 (min q.2 ceiling)) p.epochs
  let staged := p.staged ++ (if alone then [] else e.csrs)
  let s := match epochs.find? fun e => e.1 == old with
    | some e => if commit then { s with clkstep := e.2 } else s
    | none => s
  let s := s.modPart id fun p =>
    let v (num : Nat) (w : Word) : Word := (lastStaged staged num).getD w
    { p with
      seed := v 0x020 p.seed, sspol := v 0x023 p.sspol, expbase := v 0x025 p.expbase, explen := v 0x026 p.explen, staged := []
      tree := p.treeNext.getD p.tree, treeNext := none, forced := p.forcedLate, forcedLate := false
      epochs := if commit then epochs.filter fun e => e.1 != old else epochs, epochNew := []
      rounds := p.rounds.filterMap fun r =>
        if r.result.isSome && !r.parts.all (fun q => q.1 / 4096 != s.devId || r.served.contains q.1) then some { r with carried := some r.served }
        else none
      colls := [], clash := if p.nd ≤ 1 then 0 else s.cur.ev.w
      others := if p.nd ≤ 1 then [] else s.cur.ev.bytes
      bar := { p.bar with sent := p.bar.sent ++ [(.device, .open)] } }
  (p.rounds.foldl (fun s r => s.dropRound r) s).passDown id .open

/-- SAVE leaves the device root in place of OPEN. -/
def State.savePart (s : State) (id : Nat) : State :=
  let s := ((s.tellChildren id .save 0 .none).replaceAll id ((s.part id).bar.commit == some true)).modPart id fun p =>
    { p with forced := false, forcedLate := false, bar := { p.bar with sent := p.bar.sent ++ [(.device, .save)] } }
  s.passDown id .save

/-- A node sends DONE to its parent once it may and holds its children's; the root sends OPEN, or SAVE when the partition is
to be switched out (13 R287). -/
def State.tryDone (s : State) (id : Nat) (n : BarNode) : State :=
  let p := s.part id
  if p.bar.commit.isNone || p.bar.sent.contains (n, .done) || !s.doneReady id n || !s.allReceived p .done n then s
  else match s.parentOf p n with
    | some _ => s.sendUp id n .done 0 .none
    | none =>
      let s := s.modPart id fun p => { p with bar := { p.bar with sent := p.bar.sent ++ [(n, .done)] } }
      if p.bar.saving && (p.bar.commit == some true || p.forced) then s.savePart id else s.openPart id

/-- A tree group's descriptors at OPEN: those staged take effect, and those with LEAVE end (15 R340). -/
def TileCore.openGroups (c : TileCore) : TileCore :=
  { c with
    groups := (c.gstaged.foldl (fun g d => assocPut g d.1 d.2) c.groups).filter fun g => !bitOf g.2 13
    gstaged := [], rounds := [], cseqs := [] }

/-- The pending bits that a captured context keeps: that of the destination of an outstanding MOVEAT (06 R112). -/
def Strand.moveMask (st : Strand) : BitVec 16 :=
  match st.move with
  | some m => 1#16 <<< m.rd.toNat
  | none => 0

/-- A strand as a snapshot or a firkin captures it (06 R112): no result is in flight in it (02 R42), and one that sleeps at a bundle issues
that bundle again, with no register pending. -/
def Strand.captured (st : Strand) : Strand :=
  let st := st.endShadows
  match st.sleep with
  | .awake | .trap _ => st
  | _ => { st with sleep := .awake, pend := st.pend &&& st.moveMask, pendP := 0 }

/-- The control part of a tile as the snapshot of an open keeps it: its contexts, no strand arrived at a set's barrier, and no answer to a
steal request awaited. -/
def TileCore.snapshot (c : TileCore) : TileCore :=
  { c with
    slots := c.slots.map Strand.captured, sets := c.sets.map fun m => { m with arrived := 0 }, steal := { c.steal with asking := false } }

/-- A tile receives OPEN (13 R288, R291): staged SCRBASE and groups, the snapshot, the KEEP copy; strands issue from the next
cycle on, or 64 later with KEEP; the copy engine's turn starts again (10 R215); causes cast since the DECIDE are cast again. -/
def State.openTile (s : State) (id k : Nat) (commit : Bool) : State :=
  let s := s.modTile k fun t =>
    let keep := t.eng.keep
    let start := s.cyc + (if keep then 65 else 1)
    let core := if commit then t.core.openGroups else t.core
    let core := { core with slots := core.slots.map fun st => if st.st = .live then { st with readyAt := max st.readyAt start } else st }
    let eng := { t.eng with scrbase := t.eng.scrNext.getD t.eng.scrbase, scrNext := none, turn := 3, deficit := Vector.replicate 4 0 }
    { t with
      core := core, eng := eng, openCore := core.snapshot, openEng := eng, keepOpen := keep, keepCopy := keep
      heapOpen := #v[t.hwake, t.tflt, t.tdup]
      causes := t.recast, vote := !t.recast.isEmpty, cast := !t.recast.isEmpty, recast := []
      arrived := false, decided := false, halted := false, capCause := t.recast.find? isCapacity, xpIn := []
      outgoing := t.outgoing.map fun m => if m.since = 0 then { m with since := s.gclk } else m }
  let s := match (s.part id).due with
    | [] => s
    | l =>
      if s.causeTile id = some k then
        (l.foldl (fun s h => s.giveTile k 1 h.cause h.tval) s).modPart id fun p => { p with due := [] }
      else s
  s

/-- A tile that recorded a capacity cause takes 0x0E5 at the OPEN that follows the abort (13 R280). -/
def State.capacityTrap (s : State) (k : Nat) (cap : Option Nat) : State :=
  match cap with
  | some c => s.giveTile k 1 0x0E5 (word c)
  | none => s

/-- The barrier of the next superstep begins once every node has received OPEN. -/
def State.closeBarrier (s : State) (id : Nat) : State :=
  let p := s.part id
  let open' (n : BarNode) : Bool := p.bar.opened.contains n
  if (s.liveTiles p).all (fun k => open' (.tile k)) && s.stations.all fun n => open' (.station n) then
    (p.bar.flight.foldl (fun s m => s.unload m.id) s).modPart id fun p => { p with bar := { Barrier.clear with saving := p.bar.saving } }
  else s

/-! ### Meanings: up -/

/-- Whether a tile may arrive (13 R281). DESIGN CHOICE: it waits also for its divide unit, for its loads of its own TLM and for the
acknowledgements of its XINVs, so that no result is in flight at OPEN (log entry 75). -/
def State.mayArrive (s : State) (k : Nat) : Bool :=
  let t := s.tile k
  let live (n : Nat) : Bool := (t.core.strand n).st == .live
  let syncing (n : Nat) : Bool := match (t.core.strand n).sleep with | .sync .. => true | _ => false
  !t.arrived && !t.decided && !t.halted && !t.lost &&
    (List.range 15).all (fun n => !live n || syncing n) && !live 15 &&
    (t.core.freeSlots.isEmpty || match t.core.deque with | d :: _ => !d.ready | [] => true) &&
    (t.core.deque.take 4).all Task.ready && t.eng.xfers.isEmpty && t.eng.pages.all (·.done) &&
    t.eng.mq.isEmpty && t.eng.vcq.isEmpty && t.eng.collq.isEmpty && t.eng.repq.isEmpty && t.eng.fired.isEmpty &&
    t.outgoing.isEmpty && t.eng.divq.isEmpty && t.eng.ownLoads.isEmpty && s.answered k

/-- TILE_ARRIVE (13 R281): the event's tile arrives with its vote. -/
def execTileArrive (s : State) : Out :=
  let k := s.cur.ev.tile
  match s.partOf k with
  | none => .next s
  | some id =>
    if s.mayArrive k && (s.part id).bar.commit.isNone && !s.booting then
      .next ((s.modTile k fun t => { t with arrived := true }).tryArrive id (.tile k))
    else .next s

/-- An up packet reaches its node. -/
def State.barReceive (s : State) (id : Nat) (m : BarMsg) : State :=
  let s := if s.cur.ev.ok then s.dropReq m.id else s.barTake id m
  s.modPart id fun p => { p with bar := { p.bar with got := p.bar.got ++ [m] } }

/-- A packet of a kind with the event's number that stands at its node: one of this device, or one from a child device when `ok`. -/
def State.barPacket (s : State) (kind : BarKind) : Option BarMsg :=
  let e := s.cur.ev
  if e.ok then
    match s.barIn e.part with
    | some (dev, k, vote, ssnum, red) => if k = kind.code then some ⟨e.id, kind, .child dev, .device, vote, ssnum, red⟩ else none
    | none => none
  else (s.part e.part).bar.flight.find? fun m => m.id == e.id && m.kind == kind && s.landed m.id

/-- A down packet of a kind that stands at a node. -/
def State.heard (s : State) (p : Part) (kind : BarKind) (n : BarNode) : Option BarMsg :=
  p.bar.flight.find? fun m => m.kind == kind && m.dst == n && s.landed m.id

/-- A node takes a down packet and passes it on. -/
def State.hear (s : State) (id : Nat) (kind : BarKind) (n : BarNode) (f : Barrier → Barrier) : State :=
  let s := match s.heard (s.part id) kind n with
    | some m => s.barTake id m
    | none => s
  (s.modPart id fun p => { p with bar := f p.bar }).passDown id kind

/-- ARRIVE_RECEIPT (13 R285): a node of the event's partition receives an ARRIVE and sends its own when it may. -/
def execArriveReceipt (s : State) : Out :=
  let id := s.cur.ev.part
  match s.barPacket .arrive with
  | none => .next s
  | some m =>
    if (s.part id).bar.commit.isSome then .next s else .next ((s.barReceive id m).tryArrive id m.dst)

/-- ROOT_DECIDE (13 R287): the partition root on this device holds every input, or an abort, and decides. -/
def execRootDecide (s : State) : Out :=
  let id := s.cur.ev.part
  let p := s.part id
  let (vote, red, _) := s.combined p .device
  if p.valid && p.isRoot && p.bar.commit.isNone && (voteAbort vote || s.allReceived p .arrive .device) then
    .next (s.settleVote id vote red)
  else .next s

/-! ### Meanings: apply -/

/-- A node applies a decision once, and passes it on. -/
def State.applyAt (s : State) (id : Nat) (n : BarNode) (f : State → State) : State :=
  ((f s).hear id .decide n fun b => { b with applied := b.applied ++ [n] }).tryDone id n

/-- A decision that arrives from the device above: its vote and its reduction. -/
def State.decideIn (s : State) (id : Nat) : Option (Nat × BarRed) :=
  let p := s.part id
  if !p.valid || p.isRoot || p.bar.commit.isSome then none
  else match s.barIn id with
    | some (_, 2, vote, _, red) => some (vote, red)
    | _ => none

/-- Whether a node of a partition may apply now: one that the DECIDE has reached, the device after all of them. -/
def State.mayApply (s : State) (id : Nat) (commit : Bool) (n : BarNode) : Bool :=
  let p := s.part id
  p.bar.commit == some commit && !p.bar.applied.contains n &&
    (match n with
    | .tile k => (s.liveTiles p).contains k && (s.heard p .decide n).isSome
    | .station m => s.stations.contains m && (s.heard p .decide n).isSome
    | .die _ => (s.heard p .decide n).isSome
    | .device => s.allApplied id
    | _ => false)

/-- COMMIT_APPLY (13 R288): the event's node applies a commit and sends DONE; from `parent` the decision itself arrives from
the device above. -/
def execCommitApply (s : State) : Out :=
  let e := s.cur.ev
  let id := e.part
  match e.node with
  | .parent =>
    match s.decideIn id with
    | some (vote, red) => if voteAbort vote then .next s else .next ((s.dropReq e.id).settleVote id vote red)
    | none => .next s
  | n =>
    if !s.mayApply id true n then .next s
    else .next (s.applyAt id n fun s =>
      match n with
      | .tile k => s.commitTile id k e.ok e.a
      | .station m => s.commitStation id m
      | .device => s.commitDevice id
      | _ => s)

/-- ABORT_APPLY (13 R289): the event's node restores what it held at open, then sends DONE; from `parent` the decision
itself arrives from the device above. -/
def execAbortApply (s : State) : Out :=
  let e := s.cur.ev
  let id := e.part
  match e.node with
  | .parent =>
    match s.decideIn id with
    | some (vote, red) => if voteAbort vote then .next ((s.dropReq e.id).settleVote id vote red) else .next s
    | none => .next s
  | n =>
    if !s.mayApply id false n then .next s
    else .next (s.applyAt id n fun s =>
      match n with
      | .tile k => s.abortTile id k
      | .station m => s.abortStation id m
      | .device => s.abortDevice id e.ok
      | _ => s)

/-- DONE_RECEIPT (13 R287): a node receives a DONE and forwards its own; the root that holds every DONE sends OPEN or SAVE. -/
def execDoneReceipt (s : State) : Out :=
  let id := s.cur.ev.part
  match s.barPacket .done with
  | none => .next s
  | some m => if (s.part id).bar.commit.isNone then .next s else .next ((s.barReceive id m).tryDone id m.dst)

/-- Whether a node of this device may receive OPEN, which has reached it: not a tile of a stopped partition, nor a station after an abort
(17 R405). -/
def State.mayOpen (s : State) (p : Part) (n : BarNode) : Bool :=
  !p.bar.opened.contains n && (s.heard p .open n).isSome &&
    (match n with
    | .tile k => (s.liveTiles p).contains k && !p.stopped
    | .station m => s.stations.contains m && (!p.stopped || p.bar.commit == some true)
    | .die _ => true
    | _ => false)

/-- OPEN_RECEIPT (13 R288): the event's node receives OPEN, or SAVE in its place; the device root receives them from the device above. -/
def execOpenReceipt (s : State) : Out :=
  let e := s.cur.ev
  let id := e.part
  let p := s.part id
  match e.node with
  | .device =>
    if p.valid && !p.isRoot && p.bar.sent.contains (.device, .done) && !p.bar.sent.contains (.device, .open) &&
        !p.bar.sent.contains (.device, .save) then
      match s.barIn id with
      | some (_, 4, _, _, _) => .next ((s.dropReq e.id).openPart id)
      | some (_, 5, _, _, _) => .next (((s.dropReq e.id).modPart id fun p => { p with bar := { p.bar with saving := true } }).savePart id)
      | _ => .next s
    else .next s
  | n =>
    if !p.bar.sent.contains (n, .save) && (s.heard p .save n).isSome then
      .next (s.hear id .save n fun b => { b with sent := b.sent ++ [(n, .save)] })
    else if !s.mayOpen p n then .next s
    else
      let commit := p.bar.commit != some false
      let s := match n with
        | .tile k => (s.openTile id k commit).capacityTrap k (if commit then none else (s.tile k).capCause)
        | _ => s
      .next ((s.hear id .open n fun b => { b with opened := b.opened ++ [n] }).closeBarrier id)

/-! ### Meanings: the instructions (13 R300-R304) -/

/-- Whether a register of the strand was pending as its bundle began, the destination of an outstanding MOVEAT apart (06 R112, R133,
log entry 61). -/
def State.pendingButMove (s : State) : Bool :=
  s.cur.pend &&& ~~~s.me.moveMask != 0 || s.cur.pendP != 0

/-- SYNC and SYNCR issue once no register of their strand is pending and no posted access can still fault (07 R148), and not in slot
15; the strand sleeps. -/
def State.synchronise (s : State) (xd : Reg) (red : Option (SyncOp × Word)) : State :=
  if s.pendingButMove || !s.reported then s.hold
  else if s.cur.slot = 15 then s.trapAtIssue 0x0EC 0
  else (s.markX xd).sleepOn (.sync xd red)

/-- SYNC. -/
def execSync (xd : Reg) (s : State) : Out := .next (s.synchronise xd none)

/-- SYNCR. -/
def execSyncr (xd xa : Reg) (op : SyncOp) (s : State) : Out := .next (s.synchronise xd (some (op, s.rx xa)))

/-- VOTE: bit 0 casts a sticky abort vote. -/
def execVote (xa : Reg) (s : State) : Out := if bitOf (s.rx xa) 0 then .next (s.stickyVote s.cur.tile 0x0E8) else .next s

/-- ABORT: an immediate abort; the tile stops. -/
def execAbort (s : State) : Out :=
  if !s.versioned s.cur.tile then .next s
  else .next ((s.castAbort s.cur.tile 0x0E9).modTile s.cur.tile fun t => { t with halted := true })

/-- SSNUM. -/
def execSsnum (xd : Reg) (s : State) : Out := .next ((s.putX 1 xd (word (s.ssnumOf s.cur.tile))).used 1)

/-- UNDOQ (13 R303): entries that the partition uses, and free entries. -/
def execUndoq (xd xa : Reg) (s : State) : Out :=
  let k := s.cur.tile
  let kind := fieldOf (s.rx xa) 3 0
  let n := fieldOf (s.rx xa) 13 8
  let t := s.tile k
  let mine (f : Part → Nat) : Nat := match s.partOf k with
    | some id => f (s.part id)
    | none => 0
  if 4 < kind ∨ (2 ≤ kind ∧ !s.diePresent (n / 16)) then .next (s.trapAtIssue 0x0EB (s.rx xa))
  else
    let (used, free) := match kind with
      | 0 => (t.undo.length, Config.undoCap - t.undo.length)
      | 1 => (t.deltaCount, Config.deltaCap - t.deltaCount)
      | 2 => (mine fun p => (p.versionLines n).length, Config.versionCap - s.versionsUsed n)
      | 3 => (mine fun p => p.journalUsed n, Config.journalCap - s.journalUsed n)
      | _ => (mine fun p => p.redsUsed n, Config.accCap - s.redsUsed n)
    .next (s.landX k s.cur.slot xd (word (used + free * 2 ^ 32)))

/-- A barrier-tree entry as a word (13 R304). -/
def BarTree.word (t : BarTree) : Word := Machine.word (t.parent + (if t.root then 2 ^ 14 else 0) + t.nchild * 2 ^ 15)

/-- BDEF (13 R304): stages the device's barrier-tree entry. -/
def execBdef (xd xa : Reg) (s : State) : Out :=
  let k := s.cur.tile
  let v := s.rx xa
  let parent := fieldOf v 13 0
  if s.priv = 0 then .next (s.trapAtIssue 0x160 0)
  else match s.partOf k with
    | none => .next (s.landX k s.cur.slot xd 0x8000000000000000)
    | some id =>
      let p := s.part id
      if fieldOf v 63 21 ≠ 0 ∨ 47 < fieldOf v 20 15 ∨ (!bitOf v 14 ∧ (parent = s.devId ∨ !p.devs.contains parent)) then
        .next (s.landX k s.cur.slot xd 0x8000000000000000)
      else
        let old := p.treeNext.getD p.tree
        .next ((s.modPart id fun p => { p with treeNext := some ⟨parent, bitOf v 14, fieldOf v 20 15⟩ }).landX k s.cur.slot xd old.word)

end Sys2Proof.Machine
end

