-- ==== Sys2Proof/Machine/Messages.lean ====
section
/-! DEFINITION. Messages: SEND to INPEEK, inboxes, the overflow heap, and messages to other partitions (15 R331-R339, 06 R124). -/

namespace Sys2Proof.Machine

/-! ### Directory entries (18 Table 18.7) -/

/-- A little-endian field of a record. -/
def fieldAt (l : List Byte) (off n : Nat) : Nat := ofBytes ((l.drop off).take n)

/-- PARTID of a directory entry. -/
def DirEntry.partid (d : DirEntry) : Nat := fieldAt d.bytes 0 2
/-- TEN. -/
def DirEntry.ten (d : DirEntry) : Nat := fieldAt d.bytes 2 1 % 16
/-- ND. -/
def DirEntry.nd (d : DirEntry) : Nat := fieldAt d.bytes 4 2
/-- DI. -/
def DirEntry.di (d : DirEntry) : Nat := fieldAt d.bytes 6 2
/-- ORGX. -/
def DirEntry.orgx (d : DirEntry) : Nat := fieldAt d.bytes 8 2
/-- ORGY. -/
def DirEntry.orgy (d : DirEntry) : Nat := fieldAt d.bytes 0xA 2
/-- PW. -/
def DirEntry.pw (d : DirEntry) : Nat := fieldAt d.bytes 0xC 2
/-- PH. -/
def DirEntry.ph (d : DirEntry) : Nat := fieldAt d.bytes 0xE 2
/-- REGION. -/
def DirEntry.region (d : DirEntry) : Nat := fieldAt d.bytes 0x10 1
/-- ENTRY. -/
def DirEntry.entry (d : DirEntry) : Nat := fieldAt d.bytes 0x12 2
/-- NRANK of the partition (06 Table 6.7). -/
def DirEntry.nrank (d : DirEntry) : Nat := d.pw * d.ph * d.nd

/-- The valid directory entry of a partition. -/
def State.dirOf (s : State) (id : Nat) : Option DirEntry := (s.directory.find? fun d => d.2.valid && d.2.partid == id).map (·.2)

/-- The tile of a partition's rectangle on this device with a rank there (06 R121). -/
def DirEntry.tileOf (d : DirEntry) (rank : Nat) : Nat := gridId (d.orgx + rank % d.pw) (d.orgy + rank / d.pw)

/-! ### Entries (15 Table 15.2) -/

/-- A message header word. -/
def messageHeader (tag len sdev stile slot : Nat) (xp : Bool) : Word :=
  word (tag * 2 ^ 48 + len * 2 ^ 42 + sdev * 2 ^ 28 + stile * 2 ^ 16 + slot * 2 ^ 12 + (if xp then 2 else 0) + 1)

/-- A 64-byte inbox entry. -/
def messageEntry (h : Word) (payload : List Byte) : List Byte :=
  toBytes 8 h.toNat ++ payload ++ List.replicate (56 - payload.length) 0

/-! ### Sending (15 R333, R335) -/

/-- Whether a destination word names the sender's own partition. -/
def State.sendsInside (s : State) (k : Nat) (w : Word) : Bool := fieldOf w 63 48 == 0xFFFF || s.partOf k == some (fieldOf w 63 48)

/-- The checks of SEND in their order: the cause and TVAL of the first that fails (15 R333). DESIGN CHOICE: 0x127 comes first, as R333 orders
them, though 17 R465 puts 0x04A before every other check but check 1 (log entry 76). -/
def State.sendCause (s : State) (k priv : Nat) (dest payload ctl : Word) : Option (Nat × Word) :=
  let len := fieldOf ctl 21 16
  if fieldOf dest 47 26 ≠ 0 then some (0x127, dest)
  else if fieldOf ctl 63 22 ≠ 0 ∨ 56 < len then some (0x127, ctl)
  else match (if len = 0 then none else s.ownCause k priv payload len 8 false) with
    | some c => some (c, payload)
    | none =>
      if s.sendsInside k dest then (if s.namesTile k dest then none else some (0x065, 0))
      else match s.partOf k, s.dirOf (fieldOf dest 63 48) with
        | some id, some d =>
          if d.ten = (s.part id).ten ∧ fieldOf dest 25 0 < d.nrank then
            (if 64 ≤ (s.tile k).eng.held.length then some (0x128, dest) else none)
          else some (0x065, 0)
        | _, _ => some (0x065, 0)

/-- The request of a message within the partition. -/
def State.messageReq (s : State) (k slot : Nat) (dest : Word) (entry : List Byte) (slack : Nat) : Req :=
  let self := fieldOf dest 11 0 == 0xFFF
  { s.blankReq k slot (.message entry) with
    dev := if self then s.devId else fieldOf dest 25 12, ttile := if self then k else fieldOf dest 11 0, loc := 0, size := 64,
    ptr := dest, slack := slack, posted := true, acc := accessRecord 0x80 0 64 dest [] }

/-- Whether a tile may create a request for itself (07 R149, 09 R197). -/
def State.tileRoom (s : State) (r : Req) : Bool :=
  decide (s.outstanding r.tile < Config.tileReqCap) && decide (s.toTarget r.tile (s.targetOf r) < 1024)

/-- A checked message leaves, or is held until the commit when it is for another partition. -/
def State.sendChecked (s : State) (r : Req) (dest : Word) (entry : List Byte) : State :=
  if s.sendsInside r.tile dest then
    (s.post r).modCore r.tile fun c => { c with sent := c.sent + 1 }
  else s.modEng r.tile fun g => { g with held := g.held ++ [⟨dest, entry, 0, false⟩] }

/-- The entry that a SEND forms. -/
def State.sendEntry (s : State) (k slot : Nat) (dest payload ctl : Word) : List Byte :=
  let len := fieldOf ctl 21 16
  messageEntry (messageHeader (fieldOf ctl 15 0) len s.devId k slot (!s.sendsInside k dest)) ((s.tile k).bytes (ptrLoc payload) len)

/-- SEND and SENDL: the checks, the payload, the message. -/
def State.send (s : State) (dest payload ctl : Word) (slack : Nat) : State :=
  let k := s.cur.tile
  let len := fieldOf ctl 21 16
  match s.sendCause k s.priv dest payload ctl with
  | some (c, v) => s.trapAtIssue c v
  | none =>
    let r := { s.messageReq k s.cur.slot dest (s.sendEntry k s.cur.slot dest payload ctl) slack with
      epc := s.cur.pc, paired := s.cur.paired }
    if s.sendsInside k dest && !s.roomFor r then s.hold
    else if 0 < len ∧ badRange (s.tile k).bad (ptrLoc payload) len then (s.castAbort k 0x141).trapAfter 0x141 payload
    else
      let s := if len = 0 then s else (s.touch k s.cur.slot (ptrLoc payload) len).awaitBanks k s.cur.slot (ptrLoc payload) len
      s.sendChecked r dest (s.sendEntry k s.cur.slot dest payload ctl)

/-- SEND. -/
def execSend (xa xb xc : Reg) (k : SlackReg) (s : State) : Out := .next (s.send (s.rx xa) (s.rx xb) (s.rx xc) (s.slackOf k))

/-- SENDL: the slack stands in the instruction. -/
def execSendl (xd xa xb : Reg) (grains : BitVec 12) (s : State) : Out :=
  .next (s.send (s.rx xa) (s.rx xb) (s.rx xd) grains.toNat)

/-! ### The overflow heap (15 R337) -/

/-- HBASE. -/
def Tile.heapBase (t : Tile) : Nat := ofBytes (t.bytes 0xC00 8) % 2 ^ 19
/-- HCAP. -/
def Tile.heapCap (t : Tile) : Nat := ofBytes (t.bytes 0xC08 2)
/-- HHEAD. -/
def Tile.heapHead (t : Tile) : Nat := ofBytes (t.bytes 0xC10 2)
/-- HCNT as software left it. -/
def Tile.heapCount (t : Tile) : Nat := ofBytes (t.bytes 0xC18 2)

/-- Whether the hardware treats the heap as present. -/
def Tile.heapHere (t : Tile) : Bool :=
  t.heapCap != 0 && decide (t.heapBase + 64 * t.heapCap ≤ 0x80000) && decide (t.heapCount ≤ t.heapCap)

/-- HCNT as the hardware reads it. -/
def Tile.heapHeld (t : Tile) : Nat := if t.heapHere then t.heapCount else 0

/-- The TLM offset of the heap's oldest entry. -/
def Tile.heapOldest (t : Tile) : Nat := t.heapBase + 64 * (t.heapHead % t.heapCap)

/-- Slot 15 wakes for a message that found the inbox full (06 R124, 15 R337). -/
def State.fullInbox (s : State) (k : Nat) : State :=
  let t := s.tile k
  if (t.core.strand 15).st ≠ .live ∧ t.heapHere ∧ t.heapCount < t.heapCap then
    let s := if (s.partOf k).isSome then s.record k 0x108 else s
    (s.modStrand k 15 fun _ => overflowStrand t (s.ktabOf k) 1 0x108 64).modTile k fun t => { t with hwake := t.hwake + 1 }
  else s

/-! ### Accepting (15 R334, R335) -/

/-- An entry is accepted into an inbox, with the stores in transit that were ordered before it (09 R190). -/
def State.acceptEntry (s : State) (k : Nat) (entry : List Byte) (after : List (Nat × Nat)) : State :=
  let xp := bitOf (word (ofBytes (entry.take 8))) 1
  s.modTile k fun t =>
    { t with
      core := { t.core with inbox := t.core.inbox ++ [entry], accepted := t.core.accepted + 1 }
      inAfter := t.inAfter ++ List.replicate (t.core.inbox.length - t.inAfter.length) [] ++ [after]
      xpIn := if xp && s.versioned k then t.xpIn ++ [entry] else t.xpIn }

/-- Whether an inbox has a free entry. -/
def Tile.inboxRoom (t : Tile) : Bool := decide (t.core.inbox.length < Config.inboxCap)

/-- The rank of a tile among its partition's tiles on this device. -/
def Part.localRank (p : Part) (k : Nat) : Nat := (gridY k - p.orgy) * p.pw + (gridX k - p.orgx)

/-- The save-area messages of a tile of a partition, by its rank on this device. -/
def State.savedFor (s : State) (id rank : Nat) : List (List Byte) := ((assoc s.saved id).bind fun l => assoc l rank).getD []

/-- Replace the save-area messages of a tile. -/
def State.setSaved (s : State) (id rank : Nat) (l : List (List Byte)) : State :=
  let old := (assoc s.saved id).getD []
  { s with saved := assocPut s.saved id (if l = [] then assocDrop old rank else assocPut old rank l) }

/-- Whether messages of a tile's save area wait, which later messages must let pass. -/
def State.savedWait (s : State) (k : Nat) : Bool :=
  match s.partOf k with
  | some id => s.savedFor id ((s.part id).localRank k) != []
  | none => false

/-- Whether an earlier message of the same strand to the same tile is still to be accepted, or one of the same tile to the same tile of
another partition (15 R334, R335); a fired SEND is ordered after nothing (09 R195). -/
def State.messageBehind (s : State) (r : Req) : Bool :=
  r.cell.isNone && s.reqs.any fun q =>
    q.cell.isNone && decide (q.id < r.id) && q.sdev == r.sdev && q.tile == r.tile && !q.over &&
      (match q.op with | .message _ => true | _ => false) &&
      (if r.isXp then q.isXp && q.ptr == r.ptr else q.slot == r.slot && q.sv == r.sv && q.dev == r.dev && q.ttile == r.ttile)

/-- What stands in the way of a packet for a tile that is no memory access: the tile is lost, or stands between an abort's DECIDE and
OPEN. -/
def State.tileRefusal (s : State) (r : Req) : Option Reply :=
  if (s.tile r.ttile).lost then some (.fault 0x143)
  else if s.discards r.part (.tile r.ttile) && !r.isXp then some .discard
  else none

/-- Whether the message of a request is for a partition that is not, or no longer, the one of the tile at which it stands (15 R335); at a port
every message from another partition is. -/
def State.stray (s : State) (r : Req) : Bool := r.place.isPort || (r.isXp && s.partOf r.ttile != some (fieldOf r.ptr 63 48))

/-- A message from another partition that is not at a tile of its target's (15 R335): it goes on to its tile where the target is resident, into
the save area where it is not, and waits while that is full; without a directory entry it meets class 3 (R333). -/
def State.strayMessage (s : State) (r : Req) (l : List Byte) : State :=
  let part := fieldOf r.ptr 63 48
  match s.dirOf part with
  | none => s.reply r (.fault 0x065) 0
  | some d =>
    let rank := fieldOf r.ptr 25 0 % (d.pw * d.ph)
    if (s.part part).valid then s.setReq { r with ttile := d.tileOf rank, stage := .wire }
    else
      let saved := s.savedFor part rank
      if 4096 ≤ saved.length then s else (s.setSaved part rank (saved ++ [l])).reply r .none 0

/-- Whether a packet of another device is sent again while the first one still waits at its target (09 R197). -/
def State.repeated (s : State) (r : Req) : Bool :=
  r.sdev != s.devId && s.reqs.any fun q =>
    q.id != r.id && q.sdev == r.sdev && q.tile == r.tile && q.seq == r.seq && q.place == r.place && q.stage == .waiting

/-- MESSAGE_ARRIVAL (15 R334): the message of the event's number reaches its target's port; it is accepted, or waits there.
A full inbox wakes the overflow strand. One that the port's window knows is answered alone (09 R197). -/
def execMessageArrival (s : State) : Out :=
  match s.req s.cur.ev.id with
  | none => .next s
  | some r =>
    match r.op with
    | .message l =>
      if r.stage ≠ .target ∨ s.messageBehind r then .next s
      else
        let (s, r) := s.depart r
        if s.repeated r then .next (s.dropReq r.id)
        else match (s.windowEntry r).map (·.reply) <|> (if s.stray r then none else s.tileRefusal r) with
          | some a => .next (s.reply r a s.cur.ev.a)
          | none =>
            if s.stray r then .next (s.strayMessage r l)
            else if (s.tile r.ttile).inboxRoom && !s.savedWait r.ttile then .next ((s.acceptEntry r.ttile l r.after).reply r .none s.cur.ev.a)
            else
              let s := (s.startWait r).modTile r.ttile fun t => { t with port := t.port ++ [r.id] }
              .next (if (s.tile r.ttile).inboxRoom then s else s.fullInbox r.ttile)
    | _ => .next s

/-- A message no longer waits at a tile's port. -/
def State.leavePort (s : State) (r : Req) : State := s.modTile r.ttile fun t => { t with port := t.port.filter fun i => i != r.id }

/-- MESSAGE_ACCEPT (15 R334, R335): a message that waits at a port is accepted; without such a message the oldest one of the
event tile's save area is. -/
def execMessageAccept (s : State) : Out :=
  match s.req s.cur.ev.id with
  | some r =>
    match r.op with
    | .message l =>
      if r.stage ≠ .waiting then .next s
      else if s.stray r then
        let s' := s.strayMessage r l
        .next (if (s'.req r.id).map (·.stage) = some .waiting then s else s'.leavePort r)
      else if (s.tile r.ttile).inboxRoom ∧ s.savedWait r.ttile = false ∧ s.messageBehind r = false ∧ s.tileRefusal r = none then
        .next (((s.acceptEntry r.ttile l r.after).leavePort r).wakeReq r .none)
      else .next s
    | _ => .next s
  | none =>
    let k := s.cur.ev.tile
    match s.partOf k with
    | none => .next s
    | some id =>
      let rank := (s.part id).localRank k
      match s.savedFor id rank with
      | e :: l =>
        if (s.tile k).inboxRoom && !(s.tile k).decided && !(s.tile k).lost then .next ((s.acceptEntry k e []).setSaved id rank l) else .next s
      | [] => .next s

/-- The request of a committed message, for a tile of this device or of another one. -/
def State.heldReq (s : State) (k : Nat) (m : HeldMessage) (dev tile : Nat) : Req :=
  { s.tileReq k (.message m.entry) 4095 with
    dev := dev, ttile := tile, size := 64, ptr := m.dest, slot := fieldOf (word (ofBytes (m.entry.take 8))) 15 12
    slack := 4095 - (s.gclk - m.since) }

/-- What becomes of a committed message to another partition, and whether it leaves its tile: it goes as a packet to its tile, which has
room for it, or to another device; into the save area; it meets class 3 where the partition is no longer in the directory; or it waits. -/
def State.deliverHeld (s : State) (k : Nat) (m : HeldMessage) : State × Bool :=
  let part := fieldOf m.dest 63 48
  let rank := fieldOf m.dest 25 0
  match s.dirOf part with
  | none => (s.messageFault k m.dest m.entry 0x065, true)
  | some d =>
    let area := d.pw * d.ph
    if rank / area ≠ d.di then
      match d.list[rank / area]? with
      | none => (s.messageFault k m.dest m.entry 0x065, true)
      | some dev =>
        let r := s.heldReq k m dev (rank % area)
        if s.tileRoom r then (s.post r, true) else (s, false)
    else if (s.part part).valid then
      let j := d.tileOf (rank % area)
      let r := s.heldReq k m s.devId j
      if (s.tile j).lost then (s.messageFault k m.dest m.entry 0x143, true)
      else if (s.tile j).inboxRoom && !s.savedWait j && s.tileRoom r then (s.post r, true)
      else (if (s.tile j).inboxRoom then s else s.fullInbox j, false)
    else
      let l := s.savedFor part (rank % area)
      if 4096 ≤ l.length then (s, false) else (s.setSaved part (rank % area) (l ++ [m.entry]), true)

/-- HELD_MESSAGE_SEND (15 R335): after OPEN the event's tile sends its committed message number `a`, the first to its target. A
message that finds no room waits at the tile. -/
def execHeldMessageSend (s : State) : Out :=
  let k := s.cur.ev.tile
  let i := s.cur.ev.a
  let t := s.tile k
  match t.outgoing[i]? with
  | none => .next s
  | some m =>
    if t.decided || t.lost || (t.outgoing.take i).any (fun q => q.dest == m.dest) then .next s
    else match s.deliverHeld k m with
      | (s, true) =>
        .next (s.modTile k fun t =>
          { t with
            outgoing := t.outgoing.eraseIdx i
            core := { t.core with sent := t.core.sent + 1 }
            openCore := { t.openCore with sent := t.openCore.sent + 1 } })
      | (s, false) => .next s

/-- A message that waits at its sending tile with its slack of 4,095 run out is counted in XEVT once (15 R335). -/
def State.exhaustHeld (s : State) (k : Nat) : State :=
  let t := s.tile k
  let due (m : HeldMessage) : Bool := !m.spent && decide (m.since + 4095 ≤ s.gclk)
  if t.decided || !t.outgoing.any due then s
  else s.modTile k fun t =>
    { t with
      xevt := min (t.xevt + (t.outgoing.filter due).length) 0xFFFFFFFF
      outgoing := t.outgoing.map fun m => if due m then { m with spent := true } else m }

/-! ### Receiving (15 R336, R338) -/

/-- Where the next message for a strand comes from. -/
inductive MessageSource where
  | inbox (entry : List Byte)
  | heap (entry : List Byte)
  deriving DecidableEq, Repr

/-- The oldest message that is available to RECV. -/
def Tile.available (t : Tile) (raw : Bool) : Option MessageSource :=
  let head := t.core.inbox.head?.map MessageSource.inbox
  if raw then head
  else if (t.core.strand 15).st = .live then none
  else if 0 < t.heapHeld then some (.heap (t.bytes t.heapOldest 64))
  else head

/-- A message's bytes. -/
def MessageSource.entry : MessageSource → List Byte
  | .inbox l | .heap l => l

/-- A message's header word. -/
def MessageSource.header (m : MessageSource) : Word := word (ofBytes (m.entry.take 8))

/-- A message leaves its place. -/
def State.consume (s : State) (k : Nat) (m : MessageSource) : State :=
  match m with
  | .inbox _ => s.modTile k fun t => { t with core := { t.core with inbox := t.core.inbox.tail }, inAfter := t.inAfter.tail }
  | .heap _ =>
    let t := s.tile k
    let s := s.tlmWrite k 0xC10 (toBytes 2 ((t.heapHead + 1) % t.heapCap))
    s.tlmWrite k 0xC18 (toBytes 2 (t.heapCount - 1))

/-- The stores in transit that were ordered before a message that a strand takes (09 R190). -/
def State.orderedBefore (s : State) (k : Nat) (m : MessageSource) : List (Nat × Nat) :=
  match m with
  | .inbox _ => (s.tile k).inAfter.head?.getD []
  | .heap _ => s.notesAt (.tile k) (s.tile k).heapOldest 64

/-- A strand takes a message: the entry is written to its TLM, and the destination receives the header word. A heap entry that
reads uncorrectable is a fault of the access. -/
def State.takeMessage (s : State) (k n : Nat) (m : MessageSource) (loc : Nat) (xd : Reg) : State :=
  let bad := match m with
    | .heap _ => badRange (s.tile k).bad (s.tile k).heapOldest 64
    | .inbox _ => false
  if bad then
    let st := s.strand k n
    ((s.castAbort k 0x141).modStrand k n fun st => st.unmark (.x xd)).takeTrap k n ⟨0x141, st.pc, 0x00FFF80000000000 + word (s.tile k).heapOldest, st.askip, .none⟩
  else
    let s := (s.observes k n [] (s.orderedBefore k m)).consume k m
    (((s.touch k n loc 64).awaitBanks k n loc 64).tlmWrite k loc m.entry).landX k n xd m.header

/-- The checks of RECV's operands: at issue, then as those of a store. -/
def State.recvCause (s : State) (w : Word) (raw : Bool) : Option (Nat × Bool) :=
  match s.ownCause s.cur.tile s.priv w 64 64 true with
  | some c => some (c, c == 0x04A)
  | none => if raw && s.priv == 0 then some (0x160, true) else none

/-- RECV and RECV.nb. -/
def State.recv (s : State) (xd : Reg) (w opt : Word) (nb : Bool) : State :=
  let k := s.cur.tile
  let raw := bitOf opt 0
  match s.recvCause w raw with
  | some (0x160, _) => s.trapAtIssue 0x160 0
  | some (c, true) => s.trapAtIssue c w
  | some (c, false) => if raw && s.priv == 0 then s.trapAtIssue 0x160 0 else s.trapAfter c w
  | none =>
    match (s.tile k).available raw with
    | some m =>
      if (match m with | .heap _ => badRange (s.tile k).bad (s.tile k).heapOldest 64 | .inbox _ => false) then
        (s.castAbort k 0x141).trapAfter 0x141 (0x00FFF80000000000 + word (s.tile k).heapOldest)
      else s.takeMessage k s.cur.slot m (ptrLoc w) xd
    | none =>
      if nb then s.landX k s.cur.slot xd 0 else (s.markX xd).sleepOn (.recv xd (ptrLoc w) opt)

/-- RECV. -/
def execRecv (xd xa xb : Reg) (s : State) : Out := .next (s.recv xd (s.rx xa) (s.rx xb) false)

/-- RECV.nb. -/
def execRecvNb (xd xa xb : Reg) (s : State) : Out := .next (s.recv xd (s.rx xa) (s.rx xb) true)

/-- INPEEK. -/
def execInpeek (xd xa : Reg) (s : State) : Out :=
  let k := s.cur.tile
  let t := s.tile k
  let v :=
    if bitOf (s.rx xa) 0 then
      word (t.core.inbox.length + t.heapHeld * 2 ^ 16 + (if (t.core.strand 15).st = .live then 2 ^ 63 else 0))
    else match t.available false with
      | some m => m.header
      | none => 0
  .next (s.landX k s.cur.slot xd v)

/-! ### Strands that sleep in RECV -/

/-- The oldest strand of a tile that sleeps in RECV and for which a message is available, with its sleep. -/
def Tile.nextReceiver (t : Tile) : Option (Nat × Reg × Nat × Word × MessageSource) :=
  let l := (List.range 16).filterMap fun n =>
    let st := t.core.strand n
    match st.st, st.sleep with
    | .live, .recv xd loc opt => (t.available (bitOf opt 0)).map fun m => (st.last.getD 0, n, xd, loc, opt, m)
    | _, _ => none
  (leastBy (·.1) l).map (·.2)

/-- Sleeping RECVs of a tile are served in their issue order. -/
def State.serveRecv (s : State) (k : Nat) : Nat → State
  | 0 => s
  | fuel + 1 =>
    match (s.tile k).nextReceiver with
    | none => s
    | some (n, xd, loc, _, m) =>
      if !(s.tile k).runs then s
      else
        let s1 := s.takeMessage k n m loc xd
        let s2 := if (s1.strand k n).sleep == (s.strand k n).sleep then s1.modStrand k n Strand.wake else s1
        State.serveRecv s2.serveMonitors k fuel

end Sys2Proof.Machine
end

