-- ==== Sys2Proof/Machine/Image.lean ====
section
/-! DEFINITION. The bytes of a firkin as they stand in its area of HBM (13 R296, Tables 13.11, 13.12; contexts: 06 Table 6.1). Bytes
that the spec calls opaque, and those of entries not in use, are free values. -/

namespace Sys2Proof.Machine

/-- Bytes of one tile slot of a firkin. -/
def slotSize : Nat := 0xB0000

/-- Bytes of a device's part of a firkin with an area of tiles. -/
def imageSize (area : Nat) : Nat := 0x1000 + area * slotSize

/-! ### Parts of a slot -/

/-- The contexts of a tile, slot 0 first. -/
def TileCore.contextsBytes (c : TileCore) : List Byte :=
  (List.range 16).flatMap fun n => (c.strand n).captured.contextBytes (c.mset n)

/-- The 128 bytes of a task record (06 Table 6.3). -/
def Task.recordBytes (t : Task) : List Byte :=
  wordBytes ([t.pc, t.flags] ++ t.args ++ t.ins.flatMap fun i => [i.1, i.2])

/-- The header of a tile slot (13 Table 13.12): IMGVER, FLAGS, TILE, DQN, SSNUM and the counters. -/
def Tile.slotHeader (t : Tile) (k ssnum : Nat) : List Byte :=
  toBytes 2 1 ++ toBytes 2 (if t.eng.keep then 1 else 0) ++ toBytes 2 k ++ toBytes 2 t.core.deque.length ++ toBytes 4 ssnum ++
    toBytes 4 0 ++ toBytes 8 t.eng.txc ++ toBytes 8 t.eng.mcc ++ toBytes 8 t.eng.vcc ++ toBytes 8 t.eng.mcfg.toNat ++
    toBytes 8 t.eng.tcc ++ toBytes 8 0

/-- The header of the device's part: IMGVER, PARTID, SSNUM, PW, PH, ND and DI. -/
def Firkin.header (f : Firkin) : List Byte :=
  toBytes 2 f.imgver ++ toBytes 2 f.partid ++ toBytes 4 f.ssnum ++ toBytes 2 f.pw ++ toBytes 2 f.ph ++ toBytes 2 f.nd ++ toBytes 2 f.di

/-! ### Writing an image -/

/-- Fill `n` bytes of an area with known bytes and, after them, open ones: the free bytes are taken by their place in the area. -/
def State.fillPart (s : State) (base off n : Nat) (known : List Byte) : State :=
  let rest := (List.range (n - known.length)).map fun i => Config.freeByte (s.freeCtr + off + known.length + i)
  { s with hbm := memWrite s.hbm (base + off) (known ++ rest) }

/-- Write what stands before the tile store in a tile's slot. Each entry of the held messages is 128 bytes: its destination word, its
header word and its payload, the rest open. -/
def State.writeParts (s : State) (base off k ssnum : Nat) (t : Tile) : State :=
  let s := s.fillPart base off 0x1000 (t.slotHeader k ssnum)
  let s := s.fillPart base (off + 0x1000) 0x1000 t.core.contextsBytes
  let s := s.fillPart base (off + 0x2000) 0x2000 (t.core.deque.flatMap Task.recordBytes)
  let s := s.fillPart base (off + 0x4000) 0x1000 t.core.inbox.flatten
  t.outgoing.zipIdx.foldl
    (fun s m => s.fillPart base (off + 0x5000 + 128 * m.2) 128 (toBytes 8 m.1.dest.toNat ++ m.1.entry))
    (s.fillPart base (off + 0x5000) 0x3000 [])

/-- Write the tile store's cells, row 0 first, 4 bytes each. -/
def putCells (m : Memory) (a : Nat) (l : List (Nat × BitVec 32)) : Memory :=
  l.foldl (fun m c => memWrite m (a + 4 * c.1) (toBytes 4 c.2.toNat)) m

/-- Write a memory's bytes from an address on. -/
def putBytes (m : Memory) (a : Nat) (l : Memory) : Memory := l.foldl (fun m c => memPut m (a + c.1) c.2) m

/-- Write a tile's slot at an offset of the area, which was cleared before. -/
def State.writeSlot (s : State) (base off k ssnum : Nat) (t : Tile) : State :=
  let s := s.writeParts base off k ssnum t
  let hbm := putBytes (putCells s.hbm (base + off + 0x8000) t.ts) (base + off + 0x10000) t.tlm
  { s with hbm := memWrite hbm (base + off + 0x10000) (t.bytes 0 0x1000) }

/-- Write the device's part of a firkin at its physical base: the area is cleared, then the slots and the header stand in it. -/
def State.writeImage (s : State) (base : Nat) (f : Firkin) : State :=
  let n := imageSize (f.pw * f.ph)
  let s := { s with
    hbm := s.hbm.filter fun c => !(decide (base ≤ c.1) && decide (c.1 < base + n))
    hbmBad := s.hbmBad.filter fun w => !coversWord w base n }
  let s := f.tiles.foldl
    (fun s t => s.writeSlot base (0x1000 + t.1 * slotSize) (gridId (f.part.orgx + t.1 % f.pw) (f.part.orgy + t.1 / f.pw)) f.ssnum t.2) s
  (s.fillPart base 0 0x1000 f.header).used n

/-! ### Reading an image (13 R297) -/

/-- A little-endian number in an image. -/
def imageNat (m : Memory) (a n : Nat) : Nat := ofBytes (memBytes m a n)

/-- A word of an image. -/
def imageWord (m : Memory) (a : Nat) : Word := word (imageNat m a 8)

/-- STATE of a context; 3 is never written (06 Table 6.1). -/
def SlotState.ofCode (n : Nat) : SlotState := if n = 0 then .free else if n = 2 then .kept else .live

/-- MV, MRD and MTGT of a context; the slack class of the request has no place in it (log entry 43). -/
def moveOf (w : Word) (k : SlackReg) : Option MoveReq :=
  if bitOf w 63 then some ⟨(fieldOf w 29 26 : Nat), fieldOf w 25 12, fieldOf w 11 0, k⟩ else none

/-- A strand from the 256 bytes of its context (06 Table 6.1); what the context does not hold is as it was, and no result is in flight, no
reservation is held and no stall count runs. -/
def Strand.ofContext (m : Memory) (a : Nat) (old : Strand) : Strand :=
  let w (i : Nat) : Word := imageWord m (a + 8 * i)
  { old.captured with
    st := SlotState.ofCode (fieldOf (w 18) 25 24)
    x := Vector.ofFn fun i : Fin 16 => w i.val
    pred := BitVec.ofNat 8 (fieldOf (w 18) 23 16)
    pc := w 16, sstat := w 17
    sig := BitVec.ofNat 16 (fieldOf (w 18) 15 0)
    k := Vector.ofFn fun i : Fin 8 => BitVec.ofNat 12 (imageNat m (a + 0xA0) 16 >>> (12 * i.val))
    copy := Vector.ofFn fun i : Fin 8 => w (22 + i.val)
    move := moveOf (w 30) ((old.move.map (·.k)).getD 0)
    banks := BitVec.ofNat 32 (fieldOf (w 31) 31 0)
    readyAt := 0, resv := [], fenced := 0, seen := [] }

/-- A deque record from its 128 bytes (06 Table 6.3); its input fetches go on where the record is the one that was saved. -/
def Task.ofRecord (m : Memory) (a : Nat) (old : Option Task) : Task :=
  let t := taskOf fun i => imageWord m (a + 8 * i)
  match old with
  | some o => if o.recordBytes = t.recordBytes then { t with fetch := o.fetch } else t
  | none => t

/-- The sets of a tile: their members as the contexts' MSET words say (06 R123). -/
def setsOf (m : Memory) (a : Nat) (old : Vector MemberSet 64) : Vector MemberSet 64 :=
  Vector.ofFn fun i : Fin 64 =>
    { vget old i.val ⟨0, 0⟩ with
      members := BitVec.ofNat 16 (((List.range 16).map fun n => if bitOf (imageWord m (a + 0x100 * n + 0x98)) i.val then 2 ^ n else 0).sum) }

/-- The part of a memory that lies in a range, from 0 on. -/
def memoryPart (m : Memory) (a n : Nat) : Memory :=
  (m.filter fun c => decide (a ≤ c.1) && decide (c.1 < a + n)).map fun c => (c.1 - a, c.2)

/-- Rows 0-63 of the tile store in an image, each cell that is not zero. -/
def cellsOf (m : Memory) (a : Nat) : List (Nat × BitVec 32) :=
  (List.range (64 * 128)).filterMap fun i =>
    let v := imageNat m (a + 4 * i) 4
    if v = 0 then none else some (i, BitVec.ofNat 32 v)

/-- What messages an image holds for the message area: each entry's destination word, header word and payload. -/
def heldOf (m : Memory) (a : Nat) (old : List HeldMessage) : List HeldMessage :=
  old.zipIdx.map fun q =>
    { q.1 with dest := imageWord m (a + 128 * q.2), entry := memBytes m (a + 128 * q.2 + 8) q.1.entry.length }

/-- The control part of a tile from its slot at `a`: contexts, deque with its counters, inbox; what the slot holds as opaque state is as
it was saved. -/
def TileCore.ofSlot (m : Memory) (a : Nat) (old : TileCore) : TileCore :=
  { old with
    slots := Vector.ofFn fun n : Fin 16 => Strand.ofContext m (a + 0x1000 + 0x100 * n.val) (old.strand n.val)
    sets := setsOf m (a + 0x1000) old.sets
    deque := (List.range (imageNat m (a + 6) 2)).map fun i => Task.ofRecord m (a + 0x2000 + 128 * i) (old.deque[i]?)
    dqSpawn := imageNat m (a + 0x10108) 8, dqDone := imageNat m (a + 0x10110) 8, dqLost := imageNat m (a + 0x10118) 8
    dqGain := imageNat m (a + 0x10120) 8, dqFull := imageNat m (a + 0x10128) 8
    inbox := old.inbox.zipIdx.map fun q => memBytes m (a + 0x4000 + 64 * q.2) q.1.length }

/-- A tile from its slot at `a` (13 Tables 13.11, 13.12): every part that the tables lay out is read from the bytes, and the opaque parts are
those of the tile that was saved. With KEEP, rows 64-127 of the tile store hold a copy of rows 0-63 (11 R255). -/
def Tile.ofSlot (m : Memory) (a : Nat) (old : Tile) : Tile :=
  let t := { old with
    core := TileCore.ofSlot m a old.core
    eng := { old.eng with
      txc := imageNat m (a + 0x10) 8, mcc := imageNat m (a + 0x18) 8, vcc := imageNat m (a + 0x20) 8, mcfg := imageWord m (a + 0x28)
      tcc := imageNat m (a + 0x30) 8 }
    ts := if bitOf (word (imageNat m (a + 2) 2)) 0 then cellsOf m (a + 0x8000) else []
    tlm := memoryPart m (a + 0x10000) 0x80000
    outgoing := heldOf m (a + 0x5000) old.outgoing
    hwake := imageNat m (a + 0x10C20) 8, tflt := imageNat m (a + 0x10C28) 8, tdup := imageNat m (a + 0x10C30) 8 }
  t.copyKept

/-- The slots of an image: rank and address. -/
def imageSlots (base area : Nat) : List (Nat × Nat) := (List.range area).map fun r => (r, base + 0x1000 + r * slotSize)

/-- Whether a restore accepts the image at a base for a directory entry (13 R297, 11 R238): its version, its partition, its shape and the
superstep are the same throughout, no deque holds more than 64 records, segments still lie in the rectangle, and the area reads without an
uncorrectable error. -/
def State.imageAccepted (s : State) (base : Nat) (d : DirEntry) : Bool :=
  let m := s.hbm
  let area := d.pw * d.ph
  let column (a : Nat) : Nat := imageNat m (a + 0x10008) 2
  imageNat m base 2 == 1 && imageNat m (base + 2) 2 == d.partid && imageNat m (base + 8) 2 == d.pw && imageNat m (base + 0xA) 2 == d.ph &&
    !badRange s.hbmBad base (imageSize area) &&
    (imageSlots base area).all fun q =>
      imageNat m q.2 2 == 1 && decide (imageNat m (q.2 + 6) 2 ≤ 64) && imageNat m (q.2 + 8) 4 == imageNat m (base + 4) 4 &&
        (column q.2 % 32 == d.orgx % 32 || fieldOf (imageWord m (q.2 + 0x28)) 6 4 == 0)

/-- What stands beside an area where no image was saved: every opaque part at its reset value (log entry 43). -/
def Firkin.blank (d : DirEntry) : Firkin :=
  { partid := d.partid, imgver := 1, ssnum := 0, pw := d.pw, ph := d.ph, nd := d.nd, di := d.di, orgx := d.orgx, part := Part.reset, tiles := [] }

/-- The tile that was saved with a rank, or a tile as reset. -/
def Firkin.tileAt (f : Firkin) (rank : Nat) : Tile := (assoc f.tiles rank).getD Tile.reset

/-- An image as it may be brought from another device: its tiles' memories in their one form. -/
def Firkin.canonical (f : Firkin) : Firkin :=
  { f with tiles := (f.tiles.filter fun t => decide (t.1 < f.pw * f.ph)).map fun t => (t.1, { t.2 with tlm := putBytes [] 0 t.2.tlm }) }

/-- The host brings an image from another device into an area (01 R15): as its device saved it, but for bytes that stand otherwise from an
offset on. -/
def State.bringImage (s : State) (base : Nat) (f : Firkin) (off : Nat) (l : List Byte) : State :=
  let f := f.canonical
  let s := { s with firkins := assocPut s.firkins base f }.writeImage base f
  { s with hbm := memWrite s.hbm (base + off) (l.take (imageSize (f.pw * f.ph) - off)) }

end Sys2Proof.Machine
end

