-- ==== Sys2Proof/Machine/Links.lean ====
section
/-! DEFINITION. Links: errors, lost rails, commands, receive buffers and the delivery of link events (14 R319-R323, 24). -/

namespace Sys2Proof.Machine

/-! ### A link's registers (14 Tables 14.5-14.7) -/

/-- Change a link. -/
def State.modLink (s : State) (n : Nat) (f : Link → Link) : State := { s with links := assocPut s.links n (f (s.link! n)) }

/-- Whether a link number names a link of this device (14 R320, 18 R432). -/
def State.hasLink (s : State) (n : Nat) : Bool :=
  (decide (n < 4) && (s.linkDies n).all s.diePresent) || (decide (0x10 ≤ n) && decide (n < 0x2F)) ||
    (decide (0x30 ≤ n) && decide (n < 0x40) && bitOf s.caps 7)

/-- Set or clear a rail's bit of RAILUP. -/
def Link.setRail (l : Link) (r : Nat) (up : Bool) : Link :=
  { l with stat := setField l.stat (32 + r) (32 + r) (if up then 1 else 0) }

/-- Set STATE. -/
def Link.setState (l : Link) (v : Nat) : Link := { l with stat := setField l.stat 3 0 v }

/-- CSTAT. -/
def Link.cstat (l : Link) : Nat := fieldOf l.stat 7 4

/-- Set CSTAT. -/
def Link.setCstat (l : Link) (v : Nat) : Link := { l with stat := setField l.stat 7 4 v }

/-- ERRS and THR of a rail. -/
def Link.errs (l : Link) (r : Nat) : Nat := fieldOf (vget l.rails r 0) 31 0
/-- THR of a rail. -/
def Link.thr (l : Link) (r : Nat) : Nat := fieldOf (vget l.rails r 0) 63 48

/-- TVAL of a link event: the link and a rail (14 R323). -/
def linkTval (n rail : Nat) : Word := word (n * 2 ^ 8 + rail % 8)

/-- A link event on the die that takes it. -/
def State.linkCause (s : State) (n cause rail : Nat) : State := s.linkEvent (s.linkDie n) n cause (linkTval n rail)

/-- A link goes down with 0x105, and the packets that are on their way over it are cut off (14 R321, R323). -/
def State.goDown (s : State) (n rail : Nat) : State :=
  ((s.modLink n fun l => l.setState 0).cutLink n).linkCause n 0x105 rail

/-- BUF and MERGE follow the rails: a change of row raises 0x106, and below 20 flits the link goes down with 0x105. -/
def State.refit (s : State) (n rail : Nat) : State :=
  let l := s.link! n
  let b := l.buffer n
  let row := mergeRow b
  let changed := decide (fieldOf l.stat 39 37 ≠ row)
  let down := decide (b < 20) && l.state != 0
  let s := s.modLink n fun l => { l with stat := setField (setField l.stat 47 40 b) 39 37 row }
  let s := if changed then s.linkCause n 0x106 rail else s
  if down then s.goDown n rail else s

/-! ### Errors -/

/-- A rail, or a lane of a span port, is lost: an active link is degraded, and a second loss takes it down (14 R319, R321). -/
def State.loseRail (s : State) (n r : Nat) : State :=
  let l := s.link! n
  let s := s.modLink n fun l => l.setRail r false
  let s := if l.state = 2 then (s.modLink n fun l => l.setState 3).linkCause n 0x104 r
    else if l.state = 3 then s.goDown n r
    else s
  s.refit n r

/-- RAIL_SLICE_ERROR (14 R319): a slice of rail `b` of link `a` fails its CRC. It is rebuilt, or its flit is replayed; ERRS
counts it, and 0x103 is raised as ERRS reaches THR. The sixteenth in a row loses the rail; `ok` says that a slice of the rail came whole
since the last one that failed. -/
def execRailSliceError (s : State) : Out :=
  let n := s.cur.ev.a
  let r := if isSpan n then 0 else s.cur.ev.b
  let l := s.link! n
  if !s.hasLink n ∨ 5 ≤ r then .next s
  else
    let e := min (l.errs r + 1) 0xFFFFFFFF
    let row := if s.cur.ev.ok then 1 else vget l.fails r 0 + 1
    let s := s.modLink n fun l =>
      { l with rails := vset l.rails r (setField (vget l.rails r 0) 31 0 e), fails := vset l.fails r row }
    let s := if l.errs r < l.thr r ∧ l.thr r ≤ e ∧ (l.state = 2 ∨ l.state = 3) then s.linkCause n 0x103 r else s
    .next (if 16 ≤ row ∧ !isSpan n ∧ l.railUp r then s.loseRail n r else s)

/-- RAIL_LOST (14 R319, R321): module `slot` of rail `b` of link `a` loses lane lock; on a span port a lane fails. -/
def execRailLost (s : State) : Out :=
  let n := s.cur.ev.a
  let r := s.cur.ev.b
  if !s.hasLink n ∨ railCount n ≤ r ∨ !(s.link! n).railUp r then .next s
  else .next ((s.modLink n fun l => { l with lostMod := l.lostMod ++ [(r, s.cur.ev.slot % 2)] }).loseRail n r)

/-- RECEIVE_BUFFER_ENTRY_RETIRED (14 R322): link `a` retires an entry of its receive buffer. -/
def execReceiveBufferEntryRetired (s : State) : Out :=
  let n := s.cur.ev.a
  if !s.hasLink n then .next s
  else .next ((s.modLink n fun l => { l with retired := l.retired + 1 }).refit n 0)

/-! ### Commands (14 R321) -/

/-- The rail that a command word's ARG names. -/
def argRail (v : Word) : Nat := fieldOf v 34 32

/-- The module that ARG names. -/
def argModule (v : Word) : Nat := fieldOf v 35 35

/-- A write of LKCTL (14 R321, 24 R461): while a command runs it is refused; CMD 0 does nothing; a command starts. -/
def State.startCommand (s : State) (n : Nat) (v : Word) : State :=
  let l := s.link! n
  if l.cstat = 1 then s.linkCause n 0x107 (argRail v)
  else if fieldOf v 3 0 = 0 then s.modLink n fun l => { l with ctl := v }
  else
    s.modLink n fun l =>
      let l : Link := { l.setCstat 1 with ctl := v }
      if fieldOf v 3 0 = 4 ∧ (l.state = 4 ∨ l.state = 0) ∧ argRail v < railCount n then l.setState 5 else l

/-- A command as an operation: link `a`, ARG `b`. -/
def State.command (s : State) (cmd : Nat) : State :=
  if s.hasLink s.cur.ev.a then s.startCommand s.cur.ev.a (word (s.cur.ev.b % 2 ^ 12 * 2 ^ 32 + cmd)) else s

/-- PAUSE. -/
def execPause (s : State) : Out := .next (s.command 1)

/-- RESUME. -/
def execResume (s : State) : Out := .next (s.command 2)

/-- REPAIR. -/
def execRepair (s : State) : Out := .next (s.command 3)

/-- RETRAIN. -/
def execRetrain (s : State) : Out := .next (s.command 4)

/-- CLRERR. -/
def execClrerr (s : State) : Out := .next (s.command 5)

/-- Whether exactly one rail is down. -/
def Link.oneDown (n : Nat) (l : Link) : Bool := ((List.range (railCount n)).filter fun r => !l.railUp r).length == 1

/-- Whether every rail is up. -/
def Link.allUp (n : Nat) (l : Link) : Bool := (List.range (railCount n)).all l.railUp

/-- The module after a retraining that passed at a width, or that failed. -/
def Link.retrained (l : Link) (r m : Nat) (half passed : Bool) : Link :=
  let l := if passed then
      { l with
        stat := setField l.stat (12 + 2 * r + m) (12 + 2 * r + m) (if half then 1 else 0)
        lostMod := l.lostMod.filter fun q => q != (r, m), fails := vset l.fails r 0 }
    else { l with lostMod := l.lostMod ++ [(r, m)] }
  l.setRail r (l.lostMod.all fun q => q.1 != r)

/-- A spare of a module comes into use. -/
def Link.useSpare (l : Link) (r m : Nat) : Link :=
  let w := vget l.rails r 0
  let lo := 40 + 4 * m
  { l with rails := vset l.rails r (setField w (lo + 3) lo (fieldOf w (lo + 3) lo + 1)) }

/-- Spares of a module in use. -/
def Link.spares (l : Link) (r m : Nat) : Nat := fieldOf (vget l.rails r 0) (43 + 4 * m) (40 + 4 * m)

/-- Whether a spare is left: four to a module of a die link, two wavelengths to a league port, none on a span port (14 R319). -/
def Link.spareLeft (n : Nat) (l : Link) (r m : Nat) : Bool :=
  if n < 4 then decide (l.spares r m < 4)
  else !isSpan n && decide (((List.range 5).map fun r => l.spares r 0 + l.spares r 1).sum < 2)

/-- The effect of a command that its link's state allows, or none (14 Table 14.8). -/
def Link.complete (n : Nat) (l : Link) (passed : Bool) : Option Link :=
  let r := argRail l.ctl
  let m := argModule l.ctl
  match fieldOf l.ctl 3 0 with
  | 1 => if l.state = 2 ∨ l.state = 3 then some (l.setState 4) else none
  | 2 =>
    if l.state ≠ 4 then none
    else if l.allUp n then some (l.setState 2)
    else if l.oneDown n then some (l.setState 3)
    else none
  | 3 => if l.state = 4 ∧ r < railCount n ∧ l.spareLeft n r m then some (l.useSpare r m) else none
  | 4 => if l.state = 5 ∧ r < railCount n then some ((l.retrained r m (bitOf l.ctl 36) passed).setState 4) else none
  | 5 => if r < 5 then some { l with rails := vset l.rails r (setField (vget l.rails r 0) 31 0 0) } else none
  | _ => none

/-- Whether every packet in a link's buffers has been delivered (14 R321). -/
def State.drained (s : State) (n : Nat) : Bool :=
  s.reqs.all fun r =>
    (match r.place with
    | .link l _ => l != n
    | .port l => l != n || r.stage == .outside
    | _ => true)

/-- LINK_COMMAND_COMPLETE (14 R321): the running command of link `a` ends, or is refused in this state; `ok` says that a training
passed. A PAUSE ends once the link is drained. Both raise 0x107. -/
def execLinkCommandComplete (s : State) : Out :=
  let n := s.cur.ev.a
  let l := s.link! n
  let pausing := fieldOf l.ctl 3 0 == 1 && (l.state == 2 || l.state == 3)
  if !s.hasLink n ∨ l.cstat ≠ 1 ∨ (pausing ∧ !s.drained n) then .next s
  else
    let r := argRail l.ctl
    let s := match l.complete n s.cur.ev.ok with
      | some l' => s.modLink n fun _ => l'.setCstat 2
      | none => s.modLink n fun l => l.setCstat 3
    .next ((s.linkCause n 0x107 r).refit n r)

/-! ### Delivery (14 R323, 24 R460) -/

/-- The next event of a die: the lowest cause, then the earliest (17 R387). -/
def State.nextLinkEvent (s : State) (d : Nat) : Option (Nat × Nat × Nat) :=
  leastBy (fun e => e.2.1) (s.linkEvents.filter fun e => e.1 == d)

/-- A die's next link event goes to slot 0 of its service tile, or to slot 15, which becomes live with it; none while one is
handled. One that a strand has not taken yet goes back behind an event of a lower cause. -/
def State.deliverLink (s : State) (d : Nat) : State :=
  let k := serviceTile d
  match s.nextLinkEvent d with
  | none => s
  | some e =>
    let s' := { s with linkEvents := s.linkEvents.erase e }
    let give (n : Nat) : State :=
      let waiting := (s.strand k n).held.filter fun h => isLinkCause h.cause
      if (s.strand k n).linkBusy || waiting.any fun h => decide (h.cause ≤ e.2.1) then s
      else
        let back : List (Nat × Nat × Nat) := waiting.map fun h => (d, h.cause, h.tval.toNat)
        ({ s' with linkEvents := back ++ s'.linkEvents } : State).modStrand k n fun st =>
          { st with held := (st.held.filter fun h => !isLinkCause h.cause) ++ [⟨e.2.1, word e.2.2⟩] }
    if (s.strand k 0).st = .live then give 0
    else if (s.strand k 15).st = .live then give 15
    else s'.modStrand k 15 fun _ => overflowStrand (s.tile k) (s.ktabOf k) 2 e.2.1 (word e.2.2)

/-- LINK_EVENT_DELIVERY (14 R323): the next event of die `a` is delivered. -/
def execLinkEventDelivery (s : State) : Out := .next (s.deliverLink s.cur.ev.a)

end Sys2Proof.Machine
end

