-- ==== Sys2Proof/Machine/Csr.lean ====
section
/-! DEFINITION. Control registers: which number names which register, who may read and write it, and CSRR, CSRW, CSRS and CSRC
(17 R381-R384, 18 R428, R432). -/

namespace Sys2Proof.Machine

/-- The control registers (17 Table 17.2); an indexed one carries its link, its rail, its logical id or its physical index. -/
inductive Csr where
  | sstat | cause | epc | tval | tvec | tileid | partid | ssnum | caps | cycle | dmap
  | seed | scrbase | cpquant | sspol | sslog | expbase | explen | gscyc | gssent | gsrecv
  | pwrbal | pwravg | clkstep | penergy | lenergy | devstat | troot | mgbase | mglen | psel
  | lkstat (n : Nat) | lkctl (n : Nat) | lkrail (n r : Nat) | l2p (i : Nat) | pts (i : Nat)
  deriving DecidableEq, Repr

/-! ### Numbers (17 Table 17.2) -/

/-- The register of a link that a number names, from a service tile that reaches it (14 R320). -/
def State.linkCsr (s : State) (k num : Nat) : Option Csr :=
  let n := (num - 0x400) / 8
  if !isService k || !s.hasLink n || !(s.linkDies n).contains (k / 1024) then none
  else match num % 8 with
    | 0 => some (.lkstat n)
    | 1 => some (.lkctl n)
    | 7 => none
    | j => some (.lkrail n (j - 2))

/-- The registers that every tile has, or that its partition has (17 Table 17.2, 18 Table 18.6). -/
def plainCsr (num : Nat) : Option Csr :=
  match num with
  | 0x000 => some .sstat
  | 0x001 => some .cause
  | 0x002 => some .epc
  | 0x003 => some .tval
  | 0x004 => some .tvec
  | 0x010 => some .tileid
  | 0x011 => some .partid
  | 0x012 => some .ssnum
  | 0x013 => some .caps
  | 0x014 => some .cycle
  | 0x016 => some .dmap
  | 0x020 => some .seed
  | 0x021 => some .scrbase
  | 0x022 => some .cpquant
  | 0x023 => some .sspol
  | 0x024 => some .sslog
  | 0x025 => some .expbase
  | 0x026 => some .explen
  | 0x030 => some .gscyc
  | 0x031 => some .gssent
  | 0x032 => some .gsrecv
  | 0x040 => some .pwrbal
  | 0x041 => some .pwravg
  | 0x042 => some .clkstep
  | 0x043 => some .penergy
  | 0x044 => some .lenergy
  | 0x045 => some .devstat
  | _ => none

/-- The registers of a partition's translation: of the tile's own partition, or from a service tile at device privilege of the
one that PSEL names (17 R395). -/
def State.grantCsr (s : State) (k priv num : Nat) : Option Csr :=
  let own := (s.partOf k).isSome
  match num with
  | 0x060 => if isService k && 2 ≤ priv then some .troot else none
  | 0x061 => if own || (isService k && 2 ≤ priv) then some .mgbase else none
  | 0x062 => if own || (isService k && 2 ≤ priv) then some .mglen else none
  | 0x063 => if isService k then some .psel else none
  | _ => none

/-- The register that a number names on a tile at a privilege; every other number is undefined there. -/
def State.csrNamed (s : State) (k priv num : Nat) : Option Csr :=
  if 0x060 ≤ num ∧ num ≤ 0x063 then s.grantCsr k priv num
  else if num < 0x060 then plainCsr num
  else if 0x400 ≤ num ∧ num < 0x600 then s.linkCsr k num
  else if 0x800 ≤ num ∧ num ≤ 0xBDF then (if isService k then some (.l2p (1024 * (k / 1024) + (num - 0x800))) else none)
  else if 0xC00 ≤ num ∧ num ≤ 0xFFF then (if isService k then some (.pts (1024 * (k / 1024) + (num - 0xC00))) else none)
  else none

/-! ### Access (17 Tables 17.1-17.3, 17.9) -/

/-- The lowest privilege that may read a register. -/
def Csr.readPriv : Csr → Nat
  | .sstat | .tileid | .partid | .ssnum | .caps | .cycle | .dmap | .scrbase | .pwrbal | .pwravg | .clkstep | .penergy | .lenergy |
    .devstat => 0
  | .cause | .epc | .tval | .tvec | .seed | .cpquant | .sspol | .sslog | .expbase | .explen | .gscyc | .gssent | .gsrecv |
    .mgbase | .mglen => 1
  | .troot | .psel | .lkstat _ | .lkctl _ | .lkrail .. | .l2p _ | .pts _ => 2

/-- Every bit of a register. -/
def allBits : Word := 0xFFFFFFFFFFFFFFFF

/-- The bits of a register that a privilege may write. -/
def State.csrMask (s : State) (priv : Nat) : Csr → Word
  | .sstat => if priv = 0 then 0x7 else 0xF07
  | .cause => if priv = 0 then 0 else 0x1FF
  | .epc | .tval | .seed | .cpquant => if priv = 0 then 0 else allBits
  | .tvec => if priv = 0 then 0 else 0x0000FFFFFFFFFFF8
  | .scrbase => if priv = 0 then 0 else 0xFFFFF
  | .sspol => if priv = 0 then 0 else 0x7
  | .expbase => if priv = 0 then 0 else 0x0000FFFFFFFFFFFF
  | .explen => if priv = 0 then 0 else 0x000001FFFFFFFFFF
  | .pwrbal => if priv < 2 then 0 else 0xFFF
  | .troot | .mgbase | .mglen | .lkctl _ => if priv < 2 then 0 else allBits
  | .psel => if priv < 2 then 0 else 0xFFFF
  | .lkrail .. => if priv < 2 then 0 else 0xFFFF000000000000
  | .l2p _ => if priv < 2 ∨ s.booting = false then 0 else 0x83FF
  | .pts _ => if priv < 2 ∨ s.booting = false then 0 else 0xF
  | .tileid | .partid | .ssnum | .caps | .cycle | .dmap | .sslog | .gscyc | .gssent | .gsrecv | .pwravg | .clkstep | .penergy |
    .lenergy | .devstat | .lkstat _ => 0

/-- Whether a register's map refuses a value written at a privilege, on a device whose PWRMAX is `most`. -/
def Csr.refuses (most priv : Nat) (v : Word) : Csr → Bool
  | .sstat => fieldOf v 9 8 == 3 || decide (priv < fieldOf v 9 8)
  | .epc => fieldOf v 2 0 != 0 || fieldOf v 63 48 != 0
  | .scrbase => v.toNat % 64 != 0 || decide (v.toNat < 0x1000) || decide (0x80000 < v.toNat)
  | .expbase | .explen | .mgbase | .mglen => v.toNat % 0x10000 != 0
  | .troot => v.toNat % 0x1000 != 0
  | .pwrbal => decide (v.toNat < 600) || decide (most < v.toNat)
  | .lkctl _ => fieldOf v 63 44 != 0 || fieldOf v 31 4 != 0 || decide (5 < fieldOf v 3 0)
  | .pts _ => decide (6 ≤ fieldOf v 2 0)
  | _ => false

/-- The partition whose register an instruction of a tile reaches: its own, or the one that PSEL of a service tile names. -/
def State.csrPart (s : State) (k : Nat) (r : Csr) : Option Nat :=
  match r with
  | .troot | .mgbase | .mglen =>
    if isService k then (if (s.part (s.tile k).psel).valid then some (s.tile k).psel else none) else s.partOf k
  | _ => s.partOf k

/-- Whether a register is reached through PSEL and PSEL names no resident partition (17 R395). -/
def State.csrAbsent (s : State) (k : Nat) (r : Csr) : Bool :=
  match r with
  | .troot | .mgbase | .mglen => (s.csrPart k r).isNone
  | _ => false

/-! ### Reading (17 Table 17.3, 13 Table 13.9, 18 Table 18.6) -/

/-- TILEID: on a service tile, and where the die's L2P table is not installed, an id that names no tile. -/
def State.tileId (s : State) (k : Nat) : Word :=
  if isService k || !s.l2pOk.getLsbD (k / 1024) then word (k / 1024 * 1024 + 0x3E0) else word k

/-- SSLOG of a tile. -/
def Tile.sslog (t : Tile) (p : Part) : Word :=
  word (p.abcnt * 2 ^ 32 + p.lvote * 2 ^ 24 + t.lcause * 2 ^ 15 + (if p.cretry then 1 else 0))

/-- The next installed epoch of a partition: the one whose superstep comes first. -/
def Part.nextEpoch (p : Part) : Option (Nat × Nat) := leastBy (fun e => (e.1 + 2 ^ 32 - p.ssnum) % 2 ^ 32) p.epochs

/-- Epochs of a partition that are installed or staged: what its other devices have staged is not known here before the commit, and free. -/
def State.epochCount (s : State) (p : Part) : Nat :=
  p.epochs.length + p.epochNew.length + (if p.nd ≤ 1 then 0 else s.anyNat % (5 - (p.epochs.length + p.epochNew.length)))

/-- CLKSTEP as a tile of a partition reads it. -/
def State.clkstepWord (s : State) (p : Part) : Word :=
  let next := p.nextEpoch.getD (0, 0)
  word (s.duty % 16 * 2 ^ 52 + s.epochCount p * 2 ^ 48 + next.1 * 2 ^ 16 + next.2 * 2 ^ 8 + s.clkstep)

/-- The value of a register as a tile reads it, with the index of DMAP. A partition's register on a tile that belongs to none reads
its reset value; PARTID and SSNUM, which have none, are free there. -/
def State.csrRead (s : State) (k : Nat) (idx : Word) (r : Csr) : Word :=
  let t := s.tile k
  let p := match s.csrPart k r with
    | some id => s.part id
    | none => Part.reset
  match r with
  | .sstat => s.me.sstat
  | .cause => s.me.cause
  | .epc => s.me.epc
  | .tval => s.me.tval
  | .tvec => t.core.tvec
  | .tileid => s.tileId k
  | .partid => match s.partOf k with
    | some id => word id
    | none => word (fieldOf s.anyWord 15 0)
  | .ssnum => word (s.ssnumOf k)
  | .caps => s.caps
  | .cycle => word s.cyc
  | .dmap => match p.devs[idx.toNat]? with
    | some d => if idx.toNat < p.nd then word d else 0x3FFF
    | none => 0x3FFF
  | .seed => p.seed
  | .scrbase => if s.booting then 0x1000 else word t.eng.scrbase
  | .cpquant => t.eng.cpquant
  | .sspol => p.sspol
  | .sslog => t.sslog p
  | .expbase => p.expbase
  | .explen => p.explen
  | .gscyc => word t.core.gscyc
  | .gssent => word t.core.gssent
  | .gsrecv => word t.core.gsrecv
  | .pwrbal => word s.pwrbal
  | .pwravg => word s.pwravg
  | .clkstep => s.clkstepWord p
  | .penergy => word p.penergy
  | .lenergy => word p.lenergy
  | .devstat => s.devstat
  | .troot => p.troot
  | .mgbase => p.mgbase
  | .mglen => p.mglen
  | .psel => word t.psel
  | .lkstat n => (s.link! n).stat
  | .lkctl n => (s.link! n).ctl
  | .lkrail n r => vget (s.link! n).rails r 0
  | .l2p i => s.l2pWord i
  | .pts i => s.ptsWord i

/-! ### Writing (17 R382) -/

/-- A staged write of a partition's register by a tile. -/
def State.stageCsr (s : State) (k num : Nat) (v : Word) : State :=
  match s.partOf k with
  | some id => s.modPart id fun p => { p with staged := p.staged ++ [⟨num, v, s.rank k⟩] }
  | none => s

/-- Change the registers of the partition that an instruction of a tile reaches. -/
def State.modCsrPart (s : State) (k : Nat) (r : Csr) (f : Part → Part) : State :=
  match s.csrPart k r with
  | some id => s.modPart id f
  | none => s

/-- A write of a register by the issuing strand on tile `k`. -/
def State.csrWrite (s : State) (k : Nat) (v : Word) (r : Csr) : State :=
  match r with
  | .sstat => s.modMe fun st => { st with sstat := v }
  | .cause => s.modMe fun st => { st with cause := v }
  | .epc => s.modMe fun st => { st with epc := v }
  | .tval => s.modMe fun st => { st with tval := v }
  | .tvec => s.modCore k fun c => { c with tvec := v }
  | .seed => s.stageCsr k 0x020 v
  | .scrbase => s.modEng k fun g => { g with scrNext := some v.toNat }
  | .cpquant => s.modEng k fun g => { g with cpquant := v }
  | .sspol => s.stageCsr k 0x023 v
  | .expbase => s.stageCsr k 0x025 v
  | .explen => s.stageCsr k 0x026 v
  | .pwrbal => { s with pwrbal := v.toNat }
  | .troot => s.modCsrPart k .troot fun p => { p with troot := v }
  | .mgbase => s.modCsrPart k .mgbase fun p => { p with mgbase := v }
  | .mglen => s.modCsrPart k .mglen fun p => { p with mglen := v }
  | .psel => s.modTile k fun t => { t with psel := v.toNat }
  | .lkctl n => s.startCommand n v
  | .lkrail n r => s.modLink n fun l => { l with rails := vset l.rails r v }
  | .l2p i => { s with l2p := assocPut s.l2p i v }
  | .pts i => s.setPts i v
  | .tileid | .partid | .ssnum | .caps | .cycle | .dmap | .sslog | .gscyc | .gssent | .gsrecv | .pwravg | .clkstep | .penergy |
    .lenergy | .devstat | .lkstat _ => s

/-- The value that CSRW, CSRS or CSRC would leave: bits that are read-only at this privilege keep the old value. -/
def csrNew (mask old v : Word) : Word := (v &&& mask) ||| (old &&& ~~~mask)

/-- CSRR (no function) or CSRW, CSRS, CSRC with the function of the old value that gives the new one (17 R384). -/
def State.csr (s : State) (xd : Reg) (num : Nat) (idx : Word) (f : Option (Word → Word)) : State :=
  let k := s.cur.tile
  match s.csrNamed k s.priv num with
  | none => s.trapAtIssue 0x161 0
  | some r =>
    let old := s.csrRead k idx r
    if s.priv < r.readPriv then s.trapAtIssue 0x161 0
    else match f with
      | none => if s.csrAbsent k r then s.trapAtIssue 0x161 0 else (s.landX k s.cur.slot xd old).used 1
      | some f =>
        let mask := s.csrMask s.priv r
        let v := csrNew mask old (f old)
        if s.csrAbsent k r ∨ mask = 0 ∨ r.refuses s.pwrMax s.priv v = true then s.trapAtIssue 0x162 0
        else ((s.csrWrite k v r).landX k s.cur.slot xd old).used 1

/-! ### Meanings -/

/-- CSRR. -/
def execCsrr (xd xa : Reg) (num : BitVec 12) (s : State) : Out := .next (s.csr xd num.toNat (s.rx xa) none)

/-- CSRW. -/
def execCsrw (xd xa : Reg) (num : BitVec 12) (s : State) : Out := .next (s.csr xd num.toNat 0 (some fun _ => s.rx xa))

/-- CSRS. -/
def execCsrs (xd xa : Reg) (num : BitVec 12) (s : State) : Out := .next (s.csr xd num.toNat 0 (some fun old => old ||| s.rx xa))

/-- CSRC. -/
def execCsrc (xd xa : Reg) (num : BitVec 12) (s : State) : Out :=
  .next (s.csr xd num.toNat 0 (some fun old => old &&& ~~~(s.rx xa)))

end Sys2Proof.Machine
end

