-- ==== Sys2Proof/Machine/System.lean ====
section
/-! DEFINITION. The system instructions beside the control registers: TRAP, ERET, IDLE, translation tables, gang stop, stones and
clock epochs (17 R388-R411). -/

namespace Sys2Proof.Machine

/-! ### Traps and sleep (17 R388-R390) -/

/-- TRAP: the software trap, with EPC at the next bundle. -/
def execTrap (detail : BitVec 16) (s : State) : Out := .next (s.trapNext 0x164 (detail.setWidth 64))

/-- The bytes of a trap frame that ERET reads. -/
def frameReadLen : Nat := 0x30

/-- ERET: it waits for x12-x15 as they are when its bundle begins (02 R28); a frame that reads uncorrectable restores nothing. -/
def execEret (s : State) : Out :=
  let k := s.cur.tile
  let at' := frameAt s.cur.slot
  if s.priv = 0 then .next (s.trapAtIssue 0x160 0)
  else if s.cur.pend &&& 0xF000#16 != 0 then .next s.hold
  else if badRange (s.tile k).bad at' frameReadLen then
    .next ((if s.cur.probing then s else s.castAbort k 0x141).trapAtIssue 0x141 (word at'))
  else .next (s.returnTrap k s.cur.slot)

/-- Whether one of the things that IDLE waits for holds. -/
def State.idleDue (s : State) (k n : Nat) : Bool :=
  ((s.tile k).available false).isSome || !(s.tile k).core.results.isEmpty || !(s.strand k n).held.isEmpty ||
    (s.strand k n).early.isSome

/-- IDLE. -/
def execIdle (s : State) : Out :=
  if s.idleDue s.cur.tile s.cur.slot then .next s else .next (s.sleepOn .idle)

/-! ### Translation tables (17 R398-R400) -/

/-- The context that MAPT or XINV names: at device privilege bits 63:48 of xa, else the issuing partition's. -/
def State.contextOf (s : State) (w : Word) : Nat :=
  if 2 ≤ s.priv then fieldOf w 63 48 else (s.partOf s.cur.tile).getD 0xFFFF

/-- The request of a MAPT. -/
def State.maptReq (s : State) (xd : Reg) (w entry : Word) (slack : Nat) : Req :=
  { s.blankReq s.cur.tile s.cur.slot (.mapt (s.contextOf w) (fieldOf w 47 16 * 2 ^ 16) (fieldOf w 2 0) entry) with
    space := 0, loc := fieldOf w 47 16 * 2 ^ 16, size := 8, ptr := w, slack := slack, dests := [.x xd], epc := s.cur.pc,
    paired := s.cur.paired, acc := accessRecord 0xD7 xd.toNat 8 w [] }

/-- MAPT: a remote request whose destination is pending. -/
def execMapt (xd xa xb : Reg) (k : SlackReg) (s : State) : Out :=
  if s.priv = 0 then .next (s.trapAtIssue 0x160 0)
  else
    let r := s.maptReq xd (s.rx xa) (s.rx xb) (s.slackOf k)
    if !s.roomFor r then .next s.hold else .next ((s.post r).modMe fun st => st.mark (.x xd))

/-- A packet of an XINV goes to every station of the device. -/
def State.visitStations (s : State) (code job slack : Nat) : State :=
  s.stations.foldl (fun s n =>
    s.post { s.blankReq s.cur.tile s.cur.slot (.visit code job (.station n)) with
      space := 0, slack := slack, epc := s.cur.pc, paired := s.cur.paired }) s

/-- XINV: at most 16 of a strand are outstanding. -/
def execXinv (xa xb : Reg) (k : SlackReg) (s : State) : Out :=
  let mine := s.xinvs.filter fun x => decide (x.tile = s.cur.tile) && decide (x.slot = s.cur.slot)
  if s.priv = 0 then .next (s.trapAtIssue 0x160 0)
  else if 16 ≤ mine.length then .next s.hold
  else
    let w := s.rx xa
    let id := s.nextReq
    let x : Xinv := ⟨id, s.cur.tile, s.cur.slot, s.contextOf w, fieldOf w 47 16, (s.rx xb).toNat, s.slackOf k⟩
    .next (({ s with xinvs := s.xinvs ++ [x], nextReq := id + 1 } : State).visitStations 0xD8 id (s.slackOf k))

/-- Whether an XINV covers a replaced entry. -/
def Xinv.covers (x : Xinv) (e : Stale) : Bool :=
  let len := 2 ^ levelShift e.lvl
  x.ctx == e.ctx && (x.count == 0 || overlaps (x.first * 65536) (x.count * 65536) (e.va / len * len) len)

/-- XINV_COMPLETE: every station has acknowledged the XINV of the event's number. -/
def execXinvComplete (s : State) : Out :=
  match s.xinvs.find? fun x => x.id == s.cur.ev.id with
  | none => .next s
  | some x =>
    if s.reqs.any fun r => r.visits x.id then .next s
    else .next { s with xinvs := s.xinvs.filter fun y => y.id != x.id, stale := s.stale.filter fun e => !x.covers e }

/-! ### Gang stop (17 R404, R405) -/

/-- STATE of a partition's context entry. -/
def State.entryState (s : State) (id : Nat) : Nat :=
  match (assoc s.regions (s.part id).region).bind fun g => assoc g.entries (s.part id).entry with
  | some e => e.state
  | none => 0

/-- A stop of a resident partition: its entry becomes stopped, and the halt tree carries the stop to every tile. -/
def State.gangStop (s : State) (id : Nat) : State :=
  if !(s.part id).valid || (s.part id).stopped then s else (s.stopPart id).modEntry id fun e => { e with state := 3 }

/-- A resume of a stopped partition. -/
def State.gangResume (s : State) (id : Nat) : State :=
  if (s.part id).stopped && s.entryState id == 3 then
    (s.modPart id fun p => { p.turnTimers s.gclk with stopped := false }).modEntry id fun e => { e with state := 2 }
  else s

/-- GSTOP: a stop needs supervisor privilege and a resume device privilege, at which xa names the partition. -/
def execGstop (xa : Reg) (s : State) : Out :=
  let w := s.rx xa
  let id := if 2 ≤ s.priv then some (fieldOf w 31 16) else s.partOf s.cur.tile
  if s.priv = 0 ∨ (bitOf w 0 ∧ s.priv < 2) then .next (s.trapAtIssue 0x160 0)
  else match id with
    | none => .next s
    | some id =>
      if bitOf w 0 then .next (if (s.part id).stopped && s.entryState id == 3 then (s.gangResume id).emit (.resume id) else s)
      else if (s.part id).valid ∧ (s.part id).stopped = false then .next ((s.gangStop id).emit (.stop id 0))
      else .next s

/-- A tile records a pre-emption deadline in its vote, or keeps it for the superstep that opens next (13 R282, R291). -/
def State.noteDeadline (s : State) (k : Nat) : State :=
  if s.isLate k then s.castAbort k 0x0EA else s.stickyVote k 0x0EA

/-- A pre-emption deadline reaches this device (13 R291): its root acts as if it had received an immediate abort, and every tile
records 0x0EA. Between the decision and OPEN that is an abort of the superstep that opens. -/
def State.deadlineHere (s : State) (id : Nat) : State :=
  let p := s.part id
  if !p.valid then s
  else
    let late := p.bar.commit.isSome && !p.bar.sent.contains (.device, .open)
    let s := s.modPart id fun p => if late then { p with forcedLate := true } else { p with forced := true }
    (s.liveTiles p).foldl State.noteDeadline s

/-- GANG_STOP_ARRIVAL: a stop reaches the event's tile; with `ok` the management plane brings a stop of partition `part` from another
of its devices, as GSTOP or for the fatal cause `a` (17 R394), its pre-emption deadline, 0x0EA (13 R291), or a cause for the partition's
lowest-ranked tile with its trap value `w` (17 R392). -/
def execGangStopArrival (s : State) : Out :=
  let e := s.cur.ev
  if e.ok then
    if (s.part e.part).nd ≤ 1 || !(s.part e.part).valid then .next s
    else if e.a = 0 then .next (s.gangStop e.part)
    else if e.a = 0x0EA then .next (s.deadlineHere e.part)
    else if e.a = 0x144 ∨ e.a = 0x146 then .next (s.modPart e.part fun p => { p with due := p.due ++ [⟨e.a, e.w⟩] })
    else .next (((s.stopPart e.part).modEntry e.part fun c => { c with state := 4, fault := e.a }).failLaunch e.part e.a)
  else match s.partOf e.tile with
    | some id => if (s.part id).stopped then .next (s.stopTile e.tile) else .next s
    | none => .next s

/-- GANG_RESUME: a resume reaches the tiles of partition `part`, which issue again; with `ok` it comes from another device. -/
def execGangResume (s : State) : Out :=
  let id := s.cur.ev.part
  let s := if s.cur.ev.ok && decide (1 < (s.part id).nd) then s.gangResume id else s
  if !(s.part id).valid || (s.part id).stopped then .next s
  else .next ((s.part id).tiles.foldl (fun s k => s.modTile k fun t => { t with gstopped := false }) s)

/-! ### Power (17 R410, R411) -/

/-- PWGIVE's result, and whether the transfer is staged. -/
def State.pwgiveResult (s : State) (k : Nat) (dev : Nat) (n : Word) : Word × Bool :=
  match s.partOf k with
  | none => (0x80000000000000FF, false)
  | some id =>
    let p := s.part id
    let staged := p.give.foldl (fun a g => a + g.2) 0
    if n = 0 then (0, false)
    else if !p.devs.contains dev then (0x8000000000000001, false)
    else if s.pwrbal < 600 + staged + n.toNat then (0x8000000000000002, false)
    else (n, true)

/-- PWGIVE. -/
def execPwgive (xd xa xb : Reg) (_k : SlackReg) (s : State) : Out :=
  let k := s.cur.tile
  let dev := fieldOf (s.rx xa) 13 0
  let n := s.rx xb
  if s.priv = 0 then .next (s.trapAtIssue 0x160 0)
  else match s.pwgiveResult k dev n, s.partOf k with
    | (v, true), some id => .next ((s.modPart id fun p => { p with give := p.give ++ [(dev, n.toNat)] }).landX k s.cur.slot xd v)
    | (v, _), _ => .next (s.landX k s.cur.slot xd v)

/-- CLKEPOCH's result, and whether the request is staged. -/
def State.clkepochResult (s : State) (k m step : Nat) : Word × Bool :=
  match s.partOf k with
  | none => (0x80000000000000FF, false)
  | some id =>
    let p := s.part id
    if step < 20 ∨ 100 < step then (0x8000000000000001, false)
    else if 2 ^ 31 ≤ (m + 2 ^ 32 - p.ssnum) % 2 ^ 32 then (0x8000000000000002, false)
    else if 4 ≤ s.epochCount p then (0x8000000000000003, false)
    else (word step, true)

/-- CLKEPOCH. -/
def execClkepoch (xd xa xb : Reg) (s : State) : Out :=
  let k := s.cur.tile
  let m := fieldOf (s.rx xa) 31 0
  let step := fieldOf (s.rx xb) 6 0
  if s.priv = 0 then .next (s.trapAtIssue 0x160 0)
  else match s.clkepochResult k m step, s.partOf k with
    | (v, true), some id =>
      let s := s.used 1
      .next ((s.modPart id fun p => { p with epochNew := p.epochNew ++ [(m, step)] }).landX k s.cur.slot xd v)
    | (v, _), _ => .next ((s.used 1).landX k s.cur.slot xd v)

/-- Stones that a device may not keep go back to the device that they came from. -/
def State.returnStones (s : State) (id dev n : Nat) : State :=
  s.mail (.router 0) 0 (packHeader 0 dev 0 s.devId 0 (s.part id).ten 4095 false 5 0 0 false 0xFA 5 id) (toBytes 8 n ++ List.replicate 56 0)

/-- STONES_ARRIVAL (17 R410, 01 R24): the stones of the event's number have come to the Perroed controller, from this device or in a packet
of another; the device keeps what its balance may hold and returns the rest. DESIGN CHOICE: of stones that it sent to itself the rest is
gone, as they can neither be kept nor returned (log entry 41). -/
def execStonesArrival (s : State) : Out :=
  let e := s.cur.ev
  let keep (n : Nat) : Nat := min n (s.pwrMax - s.pwrbal)
  match s.stones.find? (fun q => q.1 == e.id), s.letter e.id 0xFA with
  | some (_, _, n), _ =>
    if s.landed e.id then .next { s.unload e.id with stones := s.stones.filter fun q => q.1 != e.id, pwrbal := s.pwrbal + keep n } else .next s
  | none, some (hdr, l) =>
    let n := ofBytes (l.take 8)
    let s' := { s.dropReq e.id with pwrbal := s.pwrbal + keep n }
    .next (if keep n = n then s' else s'.returnStones (headerField hdr 15 0) (headerField hdr 85 72) (n - keep n))
  | none, none => .next s

end Sys2Proof.Machine
end

