-- ==== Sys2Proof/Machine/Switch.lean ====
section
/-! DEFINITION. Taking turns on a region: slices and deadlines, saving and restoring a firkin, residency (13 R295-R297, 17 R401-R403,
18 R434, R435). -/

namespace Sys2Proof.Machine

/-! ### Slices (17 R402) -/

/-- Grains in a microsecond (14 R305). -/
def grainsPerUs : Nat := 250

/-- The entries of a region's list that count, in order of index: those below NENT. -/
def Region.used (g : Region) : List (Nat × ContextEntry) := g.entries.filter fun e => decide (e.1 < g.nent)

/-- A region. -/
def State.region (s : State) (n : Nat) : Option Region := assoc s.regions n

/-- The context entry of a partition. -/
def State.entryOf (s : State) (id : Nat) : Option ContextEntry :=
  (s.region (s.part id).region).bind fun g => assoc g.entries (s.part id).entry

/-- Whether another entry of a partition's region is ready. -/
def State.otherReady (s : State) (id : Nat) : Bool :=
  match s.region (s.part id).region with
  | some g => g.used.any fun e => e.1 != (s.part id).entry && e.2.state == 1
  | none => false

/-- A slice ends: the partition is switched out at its next commit when another entry is ready, else the timer restarts; the deadline
runs in both cases. -/
def State.endSlice (s : State) (id : Nat) : State :=
  let other := s.otherReady id
  let timed := match s.entryOf id with
    | some e => e.slice != 0
    | none => false
  s.modPart id fun p =>
    { p with
      deadline := p.deadline <|> some (s.timerStart p)
      slice := if other || !timed then none else some (s.timerStart p)
      bar := { p.bar with saving := p.bar.saving || other } }

/-- Whether a timer that started at a grain has reached a number of microseconds. -/
def State.elapsed (s : State) (t us : Nat) : Bool := decide (grainsPerUs * us ≤ s.gclk - t)

/-- SLICE_TIMER_EXPIRY: the slice timer of partition `part` reaches SLICE. -/
def execSliceTimerExpiry (s : State) : Out :=
  let id := s.cur.ev.part
  let p := s.part id
  match s.entryOf id, p.slice with
  | some e, some t =>
    if p.valid && !p.stopped && e.state == 2 && e.slice != 0 && s.elapsed t e.slice then .next (s.endSlice id) else .next s
  | _, _ => .next s

/-- CONTEXT_KICK: the host ends the slice of entry `b` of region `a`, whatever its SLICE. -/
def execContextKick (s : State) : Out :=
  let e := s.cur.ev
  match s.parts.find? fun p => p.2.valid && p.2.region == e.a && p.2.entry == e.b with
  | some p => if s.entryState p.1 == 2 || s.entryState p.1 == 3 then .next (s.endSlice p.1) else .next s
  | none => .next s

/-- PREEMPT_DEADLINE_EXPIRY (13 R291, 17 R402): no commit came within LIMIT of the slice's end; partition `part` is aborted, and
the management plane carries the deadline to its other devices. -/
def execPreemptDeadlineExpiry (s : State) : Out :=
  let id := s.cur.ev.part
  let p := s.part id
  match s.entryOf id, p.deadline with
  | some e, some t =>
    if p.valid && !p.stopped && p.bar.commit != some true && !p.forced && !p.forcedLate && s.elapsed t e.limit then
      let s := s.deadlineHere id
      .next (if p.nd ≤ 1 then s else s.emit (.stop id 0x0EA))
    else .next s
  | _, _ => .next s

/-! ### Leaving a region -/

/-- Whether a packet goes on when its partition leaves its tiles: stones, and what is on its way to another device for the partition's
barrier and its commands. -/
def Req.leftTile (r : Req) : Bool :=
  match r.op with
  | .cargo .stones .. | .transit .. => true
  | _ => false

/-- A partition leaves its tiles: what it had not committed is gone, and nothing of it stays in them. -/
def State.evict (s : State) (id : Nat) : State :=
  let p := s.part id
  let gone (k : Nat) : Bool := p.holds k
  let s := p.journal.foldl State.undoEntry s
  let s := { s with
    reqs := s.reqs.filter fun r => !(r.sdev == s.devId && gone r.tile) || r.leftTile
    holders := s.holders.filter fun h => !gone h.tile
    steals := s.steals.filter fun q => !gone q.thief && !gone q.victim
    moving := s.moving.filter fun m => m.part != id
    xinvs := s.xinvs.filter fun x => !gone x.tile
    tiles := s.tiles.map fun (t : Nat × Tile) => if gone t.1 then (t.1, { Tile.reset with seq := t.2.seq }) else t }
  s.modPart id fun p => { p with valid := false, versions := [], journal := [], reds := [], bar := .clear, slice := none, deadline := none }

/-! ### Saving (13 R296, 15 R335) -/

/-- A tile as its slot of a firkin holds it. -/
def Tile.saved (t : Tile) : Tile :=
  { t.carried with core := t.core.snapshot, port := [], inAfter := [], nextIssue := 0, nextPop := 0, nextFire := 0 }

/-- The firkin of a partition. -/
def State.firkinOf (s : State) (id : Nat) : Firkin :=
  let p := s.part id
  { partid := id, imgver := 1, ssnum := p.ssnum, pw := p.pw, ph := p.ph, nd := p.nd, di := p.di, orgx := p.orgx, part := p,
    tiles := p.tiles.map fun k => (p.localRank k, (s.tile k).saved) }

/-- Whether every live tile and every station has received SAVE, no request of the partition is out and no stolen record is on its way
(13 R295, R296). -/
def State.saveReady (s : State) (p : Part) : Bool :=
  p.bar.sent.contains (.device, .save) && (s.liveTiles p).all (fun k => p.bar.sent.contains (.tile k, .save)) &&
    s.stations.all (fun n => p.bar.sent.contains (.station n, .save)) && p.tiles.all (fun k => s.outstanding k == 0) && !s.stolenTo p

/-- SAVE_FIRKIN (13 R296, 17 R402, R403): after SAVE, and once every message sent is accepted, partition `part` is written to its
firkin area and leaves its tiles; its entry becomes ready. With `ok` a write faults. -/
def execSaveFirkin (s : State) : Out :=
  let id := s.cur.ev.part
  let p := s.part id
  match s.entryOf id with
  | none => .next s
  | some e =>
    if !p.valid || p.stopped || !s.saveReady p then .next s
    else if s.cur.ev.ok then .next (s.failPart id 0x165)
    else
      let f := s.firkinOf id
      let s := { s with firkins := assocPut s.firkins e.firkin f }
      .next ((((s.modEntry id fun e => { e with state := 1 }).raiseBit p.ten 3).evict id).writeImage e.firkin f)

/-! ### Restoring (13 R297, 11 R238) -/

/-- A partition's place as its directory entry gives it. -/
def Part.placed (p : Part) (d : DirEntry) : Part :=
  { p with
    valid := true, ten := d.ten, orgx := d.orgx, orgy := d.orgy, pw := d.pw, ph := d.ph, nd := d.nd, di := d.di, devs := d.list,
    region := d.region, entry := d.entry }

/-- A tile as a restore leaves it until OPEN: its shape record names the new origin, and it issues nothing yet. -/
def Tile.restored (t : Tile) (d : DirEntry) : Tile :=
  { t with
    tlm := memWrite t.tlm 8 (toBytes 2 d.orgx ++ toBytes 2 d.orgy)
    decided := true, gstopped := false, halted := false, arrived := false, causes := [], vote := false, cast := false }

/-- The partition after a restore: the superstep of the image; its registers as saved; its launch, its energy and its translation as they
are now; the launch tree (13 R286). -/
def Part.restored (now : Part) (f : Firkin) (ssnum : Nat) (d : DirEntry) : Part :=
  let p := { f.part with
    ssnum := ssnum, running := now.running, launchId := now.launchId, penergy := now.penergy, lenergy := now.lenergy, troot := now.troot,
    mgbase := now.mgbase, mglen := now.mglen, stopped := false, forced := false, forcedLate := false, deadline := none, treeNext := none
    bar := { Barrier.clear with commit := f.part.bar.commit, vote := f.part.bar.vote, sent := [(.device, .done)] } }
  let p := p.placed d
  { p with tree := p.launchTree }

/-- The slice timer of a partition that becomes resident starts. -/
def State.startSlice (s : State) (id : Nat) (e : ContextEntry) : State :=
  s.modPart id fun p => { p with slice := if e.slice = 0 then none else some s.gclk }

/-- A restore is refused: the entry becomes failed, and so does the launch that ran. -/
def State.refuseRestore (s : State) (id : Nat) (d : DirEntry) : State :=
  ((s.modPart id fun p => { p with region := d.region, entry := d.entry }).modEntry id
    fun e => { e with state := 4, fault := 0x166 }).failLaunch id 0x166

/-- Restore a partition from the image in its firkin area, and open its superstep. -/
def State.restoreFirkin (s : State) (d : DirEntry) (e : ContextEntry) : State :=
  let id := d.partid
  let f := (assoc s.firkins e.firkin).getD (Firkin.blank d)
  if !s.imageAccepted e.firkin d then s.refuseRestore id d
  else
    let m := s.hbm
    let s := s.modPart id fun p => p.restored f (imageNat m (e.firkin + 4) 4) d
    let s := (imageSlots e.firkin (d.pw * d.ph)).foldl
      (fun s q => s.renewTile (d.tileOf q.1) ((Tile.ofSlot m q.2 (f.tileAt q.1)).restored d)) s
    let s := (s.startSlice id e).modEntry id fun e => { e with state := 2, fresh := false }
    let s := s.raiseBit d.ten 3
    if (s.part id).isRoot then s.openPart id else s

/-- A tile as a launch leaves it, without its task (18 R421, R435). -/
def Tile.fresh : Tile := Tile.reset

/-- Make a partition resident without a restore (18 R435): its tiles are zero and wait for a launch. -/
def State.freshResident (s : State) (d : DirEntry) (e : ContextEntry) : State :=
  let id := d.partid
  let p := Part.reset.placed d
  let s := { s with parts := assocPut s.parts id { p with tree := p.launchTree } }
  let s := (s.part id).tiles.foldl (fun s k => s.renewTile k Tile.fresh) s
  (s.startSlice id e).modEntry id fun e => { e with state := 2, fresh := false }

/-! ### Residency (18 R435) -/

/-- The next ready entry of a region in circular order after the one that was resident last. -/
def Region.next (g : Region) : Option (Nat × ContextEntry) :=
  let ready := g.used.filter fun e => e.2.state == 1
  (ready.find? fun e => decide (g.last < e.1)) <|> ready.head?

/-- Whether a region is free: valid, with no entry resident or stopped. -/
def Region.free (g : Region) : Bool := g.valid && g.used.all fun e => e.2.state != 2 && e.2.state != 3

/-- The partitions that still stand on a region leave it. -/
def State.clearRegion (s : State) (n : Nat) : State :=
  (s.parts.filter fun p => p.2.valid && p.2.region == n).foldl (fun s p => s.evict p.1) s

/-- The next entry of a free region becomes resident; with `restoreOnly` only by a restore, for which the host may have brought the image
from another device. -/
def State.nextResident (s : State) (n : Nat) (restoreOnly : Bool) : State :=
  match s.region n with
  | none => s
  | some g =>
    match g.next with
    | none => s
    | some (i, e) =>
      match s.dirOf e.partid with
      | none => s
      | some d =>
        let brought := s.cur.ev.image.isSome
        if !g.free || d.region != n || d.entry != i || (restoreOnly && e.fresh && !brought) || (!restoreOnly && brought) then s
        else
          let s := s.clearRegion n
          let s := { s with regions := assocPut s.regions n { g with last := i } }
          match s.cur.ev.image with
          | some f => (s.bringImage e.firkin f s.cur.ev.b s.cur.ev.bytes).restoreFirkin d e
          | none => if e.fresh then s.freshResident d e else s.restoreFirkin d e

/-- The Perroed controller writes the translation registers of a partition (17 R395): TROOT `w`, MGBASE `b`, MGLEN `op`. -/
def State.grantMemory (s : State) (id : Nat) (e : Ev) : State :=
  s.modPart id fun p =>
    { p with
      troot := word (e.w.toNat / 0x1000 * 0x1000), mgbase := word (e.b / 0x10000 * 0x10000), mglen := word (e.op / 0x10000 * 0x10000) }

/-- ENTRY_MAKE_RESIDENT (18 R435): the next ready entry of region `a` becomes resident, afresh or by a restore; with `ok` the
Perroed controller writes the translation registers of partition `part` with it. -/
def execEntryMakeResident (s : State) : Out :=
  let e := s.cur.ev
  let s := s.nextResident e.a false
  .next (if e.ok && (s.part e.part).valid && (s.part e.part).region == e.a then s.grantMemory e.part e else s)

/-- FIRKIN_RESTORE (13 R297, 01 R15): the next ready entry of region `a` becomes resident from its firkin, which this device saved, or
which the host brought from another device: the image of the event, with its bytes from offset `b` of the area on. -/
def execFirkinRestore (s : State) : Out := .next (s.nextResident s.cur.ev.a true)

end Sys2Proof.Machine
end

