-- ==== Sys2Proof/Machine/Attach.lean ====
section
/-! DEFINITION. The host at the PCIe port: launches, interrupts, the directory and the regions, the translated window, registers of
the windows, and attestation (18 R413-R423, R427, R433-R435). -/

namespace Sys2Proof.Machine

/-! ### Launch records (18 R416-R420) -/

/-- Whether a tenant holds a partition in the directory. -/
def State.tenantHolds (s : State) (t : Nat) : Bool := s.directory.any fun d => d.2.valid && d.2.ten == t

/-- Whether a launch record is malformed (18 Table 18.3, reason 0x01). -/
def recordBad (l : List Byte) : Bool :=
  fieldAt l 2 1 / 4 != 0 || decide (2 < fieldAt l 3 1) || fieldAt l 4 4 == 0 || fieldAt l 0x2C 4 != 0 || fieldAt l 8 8 % 8 != 0 ||
    fieldAt l 8 8 / 2 ^ 48 != 0 || fieldAt l 0x10 8 % 256 != 0 || fieldAt l 0x31 1 / 2 != 0 || fieldAt l 0x32 78 != 0

/-- The used dependencies of a record: the first NDEP launch ids. -/
def recordDeps (l : List Byte) : List Nat := (List.range (fieldAt l 3 1)).map fun i => fieldAt l (0x18 + 4 * i) 4

/-- The slot that a launch id binds to: of those that carry it, the one taken most recently (18 R420). -/
def Function.bind (f : Function) (launch : Nat) : Option (Nat × LaunchSlot) :=
  (f.slots.filter fun q => q.2.state != 0 && q.2.launch == launch).foldl
    (fun (b : Option (Nat × LaunchSlot)) q => match b with
      | some c => if c.2.taken < q.2.taken then some q else some c
      | none => some q) none

/-- The reason for which a record is refused on taking it: the lowest that applies, 0 for none (18 R418). -/
def State.takeReason (s : State) (fn n : Nat) (l : List Byte) : Nat :=
  let f := s.function fn
  let bad (q : Option (Nat × LaunchSlot)) : Bool := match q with
    | none => true
    | some q => q.2.state == 4 || q.2.state == 5
  if recordBad l then 1
  else if (match s.dirOf (fieldAt l 0 2) with | some d => d.ten != fn | none => true) then 2
  else if (recordDeps l).any fun d => bad (f.bind d) then 3
  else if 63 < fieldAt l 0x30 1 then 4
  else if f.slots.any fun q => q.1 != n && (q.2.state == 1 || q.2.state == 2) && q.2.launch == fieldAt l 4 4 then 7
  else 0

/-- The slots that a record's dependencies still wait for: those that are queued or running. -/
def Function.openDeps (f : Function) (l : List Byte) : List Nat :=
  (recordDeps l).filterMap fun d => match f.bind d with
    | some q => if q.2.state = 1 ∨ q.2.state = 2 then some q.1 else none
    | none => none

/-- A slot takes a record, which it queues or refuses. -/
def State.takeRecord (s : State) (fn n : Nat) (l : List Byte) : State :=
  let reason := s.takeReason fn n l
  let q : LaunchSlot :=
    { record := l, state := if reason = 0 then 1 else 4, reason := reason, fault := 0, energy := 0, launch := fieldAt l 4 4,
      taken := s.takes, deps := if reason = 0 then (s.function fn).openDeps l else [] }
  let s := { s.modFunction fn fun f => { f with slots := assocPut f.slots n q } with takes := s.takes + 1 }
  if reason = 0 then s else s.raiseBit fn 1

/-- Bytes of a register block with those of a host's write at an offset in their place. -/
def hostPut (old : List Byte) (off : Nat) (l : List Byte) : List Byte := patchBytes old 0 off l

/-- Whether a write at an offset carries a byte. -/
def carriesByte (off : Nat) (l : List Byte) (i : Nat) : Bool := decide (off ≤ i) && decide (i < off + l.length)

/-- A slot that holds nothing. -/
def LaunchSlot.free : LaunchSlot := ⟨List.replicate 128 0, 0, 0, 0, 0, 0, 0, []⟩

/-- LAUNCH_SLOT_WRITE (18 R417): function `dev` writes bytes of slot `slot` from offset `op` on; the slot takes its record with the write
that carries byte 0x7F. A write is discarded before READY, without a partition of the tenant, and while the slot is queued or running. -/
def execLaunchSlotWrite (s : State) : Out :=
  let e := s.cur.ev
  let q := (assoc (s.function e.dev).slots e.slot).getD LaunchSlot.free
  let l := hostPut q.record e.op e.bytes
  if 16 ≤ e.dev ∨ 32 ≤ e.slot ∨ e.bytes = [] ∨ 128 < e.op + e.bytes.length then .next s
  else if s.booting || !s.tenantHolds e.dev || q.state == 1 || q.state == 2 then .next (s.raiseBit e.dev 4)
  else if carriesByte e.op e.bytes 0x7F then .next (s.takeRecord e.dev e.slot l)
  else .next (s.modFunction e.dev fun f => { f with slots := assocPut f.slots e.slot { q with record := l } })

/-! ### The start of a launch (18 R418, R419, R421, 06 R121) -/

/-- PRIO of a record. -/
def LaunchSlot.prio (q : LaunchSlot) : Nat := fieldAt q.record 2 1 % 4

/-- The launch of a partition that starts next: eligible, of the highest PRIO, taken first. -/
def State.nextLaunch (s : State) (id : Nat) : Option (Nat × LaunchSlot) :=
  let p := s.part id
  if !p.valid || s.entryState id != 2 || p.running.isSome || p.stopped then none
  else leastBy (fun q => (3 - q.2.prio) * 2 ^ 64 + q.2.taken)
    ((s.function p.ten).slots.filter fun q => q.2.state == 1 && fieldAt q.2.record 0 2 == id && q.2.deps.isEmpty)

/-- The shape record that a launch names, or none where it cannot be read, because the walk fails or leads where the device has no memory
(log entry 63), or fails R121. -/
def State.shapeOf (s : State) (id va : Nat) : Option (List Byte) :=
  if 2 ^ 48 ≤ va then none
  else match s.walk (s.staleFor s.cur.ev.ok) id va .read with
    | .missing _ | .fault _ => none
    | .at pa =>
      let l := (List.range 256).map fun i => s.hbmCommitted (pa + i)
      let top := fieldAt l 0x18 4
      let size := fieldAt l 0x1C 2
      if badRange s.hbmBad pa 256 then none
      else if (top = 0 ∧ size = 0) ∨ (top % 16 = 0 ∧ size % 16 = 0 ∧ 14 * size + 0x1000 ≤ top) then some l
      else none

/-- Bytes 0x00 to 0x17 of the shape record, which the launch unit writes (06 Table 6.7). -/
def Part.shapeHead (p : Part) (launch : Nat) (stealOff : Bool) : List Byte :=
  [p.pw, p.ph, p.nd, p.di, p.orgx, p.orgy].flatMap (toBytes 2) ++ toBytes 4 (p.pw * p.ph * p.nd) ++ toBytes 4 launch ++
    toBytes 2 (if stealOff then 1 else 0) ++ toBytes 2 0

/-- The default slack table of a record (06 Table 6.1). -/
def recordKtab (l : List Byte) : Vector (BitVec 12) 8 :=
  (Vector.range 8).map fun n => BitVec.ofNat 12 (fieldAt l 0x20 16 >>> (12 * n))

/-- A tile as a launch leaves it (18 R421): only memory, the inbox and the heap control words are kept. -/
def Tile.launched (t : Tile) (shape : List Byte) (task : Task) : Tile :=
  let core := { TileCore.reset with deque := [task], inbox := t.core.inbox, tvec := task.pc }
  { t with
    core := core, eng := .reset, openCore := core, openEng := .reset
    tlm := memWrite t.tlm 0 shape, bad := t.bad.filter fun w => !coversWord w 0 256
    undo := [], undoBad := [], own := [], deltas := [], ts := [], tsBad := [], keepOpen := false, keepCopy := false, xpIn := []
    xev := Vector.replicate 16 0, xevt := 0, causes := [], vote := false, cast := false, recast := [], capCause := none
    lcause := 0x1FF, arrived := false, decided := false, halted := false }

/-- The partition as a launch leaves it (18 R421, 13 R277, R286). -/
def Part.launched (p : Part) (l : List Byte) (fn n : Nat) : Part :=
  { p with
    ssnum := 0, seed := 0, sspol := 6, expbase := 0, explen := 0, staged := [], ktab := recordKtab l, running := some (fn, n)
    launchId := fieldAt l 4 4, stealOff := fieldAt l 0x31 1 % 2 == 1, abcnt := 0, lvote := 0, cretry := false
    bar := { Barrier.clear with saving := p.bar.saving }, entryPc := word (fieldAt l 8 8), tree := p.launchTree, treeNext := none, rounds := [], colls := []
    give := [], epochNew := [], epochs := [], lenergy := 0, others := [], clash := 0, forced := false, forcedLate := false, due := [] }

/-- Whether a packet is a steal request or its reply. -/
def Req.isSteal (r : Req) : Bool :=
  match r.op with
  | .cargo .steal .. | .cargo .stolen .. => true
  | _ => false

/-- The launch unit starts a launch (18 R421); nothing of an earlier one's steals reaches it. -/
def State.startLaunch (s : State) (id fn n : Nat) (q : LaunchSlot) (shape : List Byte) : State :=
  let l := q.record
  let p := s.part id
  let s := ({ s with
    counters := [], steals := s.steals.filter fun q => !p.holds q.thief && !p.holds q.victim
    reqs := s.reqs.filter fun r => !(r.isSteal && r.sdev == s.devId && p.holds r.tile) } : State)
  let s := (s.modPart id fun p => p.launched l fn n).modSlot fn n fun q => { q with state := 2, deps := [] }
  let p := s.part id
  let task : Task := { pc := word (fieldAt l 8 8), flags := 0, args := [word q.launch, 0, 0, 0, 0, 0], ins := List.replicate 4 (0, 0), fetch := [] }
  let bytes := p.shapeHead q.launch p.stealOff ++ shape.drop 0x18
  p.tiles.foldl (fun s k => s.modTile k fun t => t.launched bytes task) s

/-- A launch is refused when it would start; what depends on it is refused as well (18 R420). -/
def State.refuseLaunch (s : State) (fn n reason : Nat) : State :=
  let s := (s.modSlot fn n fun q => { q with state := 4, reason := reason, deps := [] }).raiseBit fn 1
  State.refuseBound fn 32 s n

/-- LAUNCH_START (18 R419, R421): the next eligible launch of partition `part` starts, or is refused; none starts while a barrier is
being applied. -/
def execLaunchStart (s : State) : Out :=
  let id := s.cur.ev.part
  match s.nextLaunch id with
  | none => .next s
  | some (n, q) =>
    let p := s.part id
    if p.bar.commit.isSome then .next s
    else match s.shapeOf id (fieldAt q.record 0x10 8) with
      | none => .next (s.refuseLaunch p.ten n 5)
      | some l =>
        if p.tiles.any fun k => ((s.tile k).core.strand 15).st != .free then .next (s.refuseLaunch p.ten n 6)
        else .next (s.startLaunch id p.ten n q l)

/-! ### Interrupts (18 R423) -/

/-- INTERRUPT_CAUSE_CLEAR: function `dev` clears the cause bits that `w` names. -/
def execInterruptCauseClear (s : State) : Out :=
  let e := s.cur.ev
  if 16 ≤ e.dev then .next s
  else .next (s.modFunction e.dev fun f => { f with cause := f.cause &&& ~~~(e.w.setWidth 16) })

/-! ### The directory (18 R433) -/

/-- Columns and rows of the device grid: on a part of two dies it has 31 rows (00 Table 0.1). -/
def State.gridRows (s : State) : Nat := if s.diePresent 2 then 62 else 31

/-- Whether a rectangle that starts at a place lies within another. -/
def rectIn (x y w h x' y' w' h' : Nat) : Bool :=
  decide (x' ≤ x) && decide (y' ≤ y) && decide (x + w ≤ x' + w') && decide (y + h ≤ y' + h')

/-- Whether a device id lies in the system that the management plane installed (14 R308, 01 R16). -/
def State.deviceKnown (s : State) (d : Nat) : Bool :=
  decide (d / 32 < s.ngroups) && (bitOf s.caps 7 || d / 32 == s.devId / 32)

/-- Whether a directory entry passes the device's checks. -/
def State.entryAccepted (s : State) (n : Nat) (d : DirEntry) : Bool :=
  let l := (List.range d.nd).map fun i => d.list.getD i 0
  let inside := match s.region d.region with
    | some g => g.valid && rectIn d.orgx d.orgy d.pw d.ph g.orgx g.orgy g.pw g.ph
    | none => false
  fieldAt d.bytes 2 1 / 16 == 0 && fieldAt d.bytes 3 1 / 2 == 0 && fieldAt d.bytes 0x14 44 == 0 && d.nd != 0 && decide (d.nd ≤ 16384) &&
    decide (d.di < d.nd) && l.all (fun w => decide (w < 2 ^ 14)) && d.list.getD d.di 0 == s.devId &&
    rectIn d.orgx d.orgy d.pw d.ph 0 0 64 s.gridRows && inside && d.pw != 0 && d.ph != 0 && l.all s.deviceKnown &&
    d.partid != 0xFFFF && s.directory.all fun q => q.1 == n || !q.2.valid || q.2.partid != d.partid

/-- The context entry that a directory entry names, where it is this partition's. -/
def State.contextOfDir (s : State) (d : DirEntry) : Option ContextEntry :=
  ((s.region d.region).bind fun g => assoc g.entries d.entry).bind fun e => if e.partid = d.partid then some e else none

/-- Whether a partition holds a firkin: its entry is in use, was resident, and its area holds its image. -/
def State.holdsFirkin (s : State) (d : DirEntry) : Bool :=
  match s.contextOfDir d with
  | some e => e.state != 0 && !e.fresh && imageNat s.hbm (e.firkin + 2) 2 == d.partid
  | none => false

/-- DIRECTORY_ENTRY_WRITE: the host writes bytes of entry `a` from offset `op` on. A write to a valid entry of a resident or stopped
partition, or one that changes PW or PH while it holds a firkin, is discarded; where VALID is written 1 the device checks the entry and
writes DRES. -/
def execDirectoryEntryWrite (s : State) : Out :=
  let e := s.cur.ev
  let old := (assoc s.directory e.a).getD ⟨List.replicate 64 0, false, 0, []⟩
  let d : DirEntry := { old with bytes := hostPut old.bytes e.op e.bytes }
  let inUse := match s.contextOfDir old with
    | some c => c.state == 2 || c.state == 3
    | none => false
  if 256 ≤ e.a ∨ e.bytes = [] ∨ 64 < e.op + e.bytes.length then .next s
  else if (old.valid && inUse) || (s.holdsFirkin old && (d.pw != old.pw || d.ph != old.ph)) then .next s
  else
    let ok := s.entryAccepted e.a d
    let d := if !carriesByte e.op e.bytes 3 then d
      else if fieldAt d.bytes 3 1 % 2 = 0 then { d with valid := false }
      else { d with valid := ok, dres := if ok then 0 else 1 }
    .next { s with directory := assocPut s.directory e.a d }

/-! ### Regions and their lists (18 R434, R435) -/

/-- A region that was never written. -/
def Region.blank : Region := ⟨0, 0, 0, 0, 0, false, false, 62, []⟩

/-- The 64 bytes of a region header as the host reads them (18 Table 18.8). -/
def Region.read (g : Region) : List Byte :=
  let cur := match g.entries.find? fun e => e.2.state == 2 || e.2.state == 3 with
    | some e => e.1
    | none => 0xFF
  [g.orgx, g.orgy, g.pw, g.ph].flatMap (toBytes 2) ++ toBytes 1 g.nent ++ toBytes 1 cur ++
    toBytes 1 ((if g.valid then 1 else 0) + (if g.refused then 2 else 0)) ++ List.replicate 53 0

/-- The 64 bytes of a context-list entry as the host reads them (18 Table 18.9). -/
def ContextEntry.read (e : ContextEntry) : List Byte :=
  toBytes 2 e.partid ++ toBytes 1 e.state ++ [0] ++ toBytes 2 e.slice ++ toBytes 2 e.limit ++ toBytes 8 e.firkin ++ toBytes 2 e.fault ++
    List.replicate 46 0

/-- REGION_HEADER_WRITE: the host writes bytes of the header of region `a` from offset `op` on; it is discarded while an entry is resident or
stopped. The device checks a header whose VALID is written 1. -/
def execRegionHeaderWrite (s : State) : Out :=
  let e := s.cur.ev
  let g := (s.region e.a).getD Region.blank
  let l := hostPut g.read e.op e.bytes
  let g' : Region :=
    { g with orgx := fieldAt l 0 2, orgy := fieldAt l 2 2, pw := fieldAt l 4 2, ph := fieldAt l 6 2, nent := fieldAt l 8 1 }
  let meets (r : Region) : Bool := overlaps g'.orgx g'.pw r.orgx r.pw && overlaps g'.orgy g'.ph r.orgy r.ph
  let ok := rectIn g'.orgx g'.orgy g'.pw g'.ph 0 0 64 s.gridRows && decide (g'.nent ≤ 63) &&
    s.regions.all fun r => r.1 == e.a || !r.2.valid || !meets r.2
  if 16 ≤ e.a ∨ e.bytes = [] ∨ 64 < e.op + e.bytes.length ∨ g.entries.any (fun c => c.2.state == 2 || c.2.state == 3) then .next s
  else
    let g' := if !carriesByte e.op e.bytes 0xA then g'
      else if fieldAt l 0xA 1 % 2 = 0 then { g' with valid := false }
      else { g' with valid := ok, refused := !ok }
    .next { s with regions := assocPut s.regions e.a g' }

/-- CONTEXT_ENTRY_WRITE: the host writes bytes of entry `b` of region `a` from offset `op` on, under the rules of R435; to a resident or
stopped entry only KICK counts, and a write that does not carry STATE leaves it. -/
def execContextEntryWrite (s : State) : Out :=
  let e := s.cur.ev
  let g := (s.region e.a).getD Region.blank
  let old := (assoc g.entries e.b).getD ⟨0, 0, 0, 0, 0, 0, true⟩
  let l := hostPut old.read e.op e.bytes
  let states := carriesByte e.op e.bytes 2
  let st := fieldAt l 2 1 % 8
  let c : ContextEntry :=
    { partid := fieldAt l 0 2, state := st, slice := fieldAt l 4 2, limit := fieldAt l 6 2
      firkin := if old.state = 0 then fieldAt l 8 8 % 2 ^ 39 / 2 ^ 16 * 2 ^ 16 else old.firkin
      fault := old.fault, fresh := if old.state = 0 then true else old.fresh }
  let named := match s.dirOf c.partid with
    | some d => d.region == e.a && d.entry == e.b
    | none => false
  if 16 ≤ e.a ∨ 63 ≤ e.b ∨ e.bytes = [] ∨ 64 < e.op + e.bytes.length then .next s
  else if old.state = 2 ∨ old.state = 3 then
    if carriesByte e.op e.bytes 3 ∧ fieldAt l 3 1 % 2 = 1 then execContextKick s else .next s
  else if states ∧ (1 < st ∨ (st = 1 ∧ named = false)) then .next s
  else .next { s with regions := assocPut s.regions e.a { g with entries := assocPut g.entries e.b c } }

/-! ### Registers of the windows (18 Table 18.1) -/

/-- The 64 bytes of a directory entry as the host reads them (18 Table 18.7). -/
def DirEntry.read (d : DirEntry) : List Byte :=
  ((List.range 64).zip d.bytes).map fun p => if p.1 = 3 then (if d.valid then 1 else 0) else if p.1 = 0x11 then BitVec.ofNat 8 d.dres else p.2

/-- A slot as the host sees it: a running launch's energy is its partition's (18 R417, R431). -/
def State.shownSlot (s : State) (q : LaunchSlot) : LaunchSlot :=
  if q.state = 2 then { q with energy := (s.part (fieldAt q.record 0 2)).lenergy } else q

/-- The 16 bytes of a slot's status (18 R417). -/
def LaunchSlot.status (q : LaunchSlot) : List Byte :=
  toBytes 8 (q.launch * 2 ^ 32 + q.state * 2 ^ 24 + q.reason * 2 ^ 16 + q.fault) ++ toBytes 8 q.energy

/-- A byte of BAR 0 as the host reads it; an undefined offset reads zero (18 R414). -/
def State.bar0 (s : State) (a : Nat) : Byte :=
  let pick (l : List Byte) (i : Nat) : Byte := (l[i]?).getD 0
  if a < 0x10 then pick (toBytes 8 s.devstat.toNat ++ toBytes 8 s.caps.toNat) a
  else if a < 0x18 then pick (toBytes 8 s.reqBal) (a - 0x10)
  else if 0x10000 ≤ a ∧ a < 0x14000 then
    match assoc s.directory ((a - 0x10000) / 64) with
    | some d => pick d.read (a % 64)
    | none => 0
  else if 0x20000 ≤ a ∧ a < 0x30000 then
    let g := (s.region ((a - 0x20000) / 0x1000)).getD Region.blank
    match a % 0x1000 / 64 with
    | 0 => pick g.read (a % 64)
    | e + 1 => match assoc g.entries e with
      | some c => pick c.read (a % 64)
      | none => 0
  else if 0x1000000 ≤ a ∧ a < 0x1800000 then
    match assoc s.directory ((a - 0x1000000) / 0x8000) with
    | some d => BitVec.ofNat 8 (d.list.getD (a % 0x8000 / 2) 0 >>> (8 * (a % 2)))
    | none => 0
  else 0

/-- A byte of a function's BAR 2 as the host reads it: zero where its tenant holds no partition (18 R413) and at an undefined offset. -/
def State.bar2 (s : State) (fn a : Nat) : Byte :=
  let f := s.function fn
  let pick (l : List Byte) (i : Nat) : Byte := (l[i]?).getD 0
  if !s.tenantHolds fn then 0
  else if a < 0x1000 then
    match assoc f.slots (a / 128) with
    | some q => pick q.record (a % 128)
    | none => 0
  else if a < 0x1200 then
    match assoc f.slots ((a - 0x1000) / 16) with
    | some q => pick (s.shownSlot q).status (a % 16)
    | none => 0
  else if a < 0x1210 then pick (toBytes 8 f.cause.toNat ++ toBytes 8 f.mask.toNat) (a - 0x1200)
  else if 0x1400 ≤ a ∧ a < 0x1600 then pick (toBytes 8 ((assoc f.energy ((a - 0x1400) / 8)).getD 0)) (a % 8)
  else if 0x1600 ≤ a ∧ a < 0x1610 then pick (toBytes 8 f.hwbase.toNat ++ toBytes 8 f.hwpart) (a - 0x1600)
  else 0

/-! ### The translated window (18 R415) -/

/-- The physical address of a BAR 4 access of a function, or a fault; a walk that leads where the device has no memory faults too (log
entry 63). -/
def State.windowAt (s : State) (fn o : Nat) (need : Need) : Xlate :=
  let f := s.function fn
  let p := s.part f.hwpart
  let va := f.hwbase.toNat + o
  if !p.valid || p.ten != fn || decide (2 ^ 48 ≤ va) then .fault 0x060 else s.walk (s.staleFor s.cur.ev.ok) f.hwpart va need

/-- A host access that faults. -/
def State.windowFault (s : State) (fn : Nat) : State := s.raiseBit fn 4

/-- A host's access is performed at its home station: a read returns memory as it stands there (07 R143, 20 Table 20.6), or all ones where
it reaches an uncorrectable word; a write is for good, or is discarded where it covers such a word in part. -/
def State.performHost (s : State) (h : HostAccess) : State :=
  match h.data with
  | none =>
    if badRange s.hbmBad h.pa h.size then (s.windowFault h.fn).emit (.hostRead (List.replicate h.size (0xFF : Byte)))
    else s.emit (.hostRead (memBytes s.hbm h.pa h.size))
  | some l => if partlyBad s.hbmBad h.pa l.length then s.windowFault h.fn else s.hbmPatch h.pa l

/-- Whether a host's access is held: its lines are (13 R290), or an earlier access of its function is held, so that posted writes stay in
order (18 R417). -/
def State.hostWaits (s : State) (h : HostAccess) : Bool := s.heldBack none h.pa h.size || s.hostHeld.any fun g => g.fn == h.fn

/-- A host's access comes to its home station, where it is performed or held. -/
def State.admitHost (s : State) (h : HostAccess) : State :=
  if s.hostWaits h then { s with hostHeld := s.hostHeld ++ [h] } else s.performHost h

/-- Held accesses of the host are performed after OPEN (18 R415). -/
def State.releaseHost (s : State) : State :=
  s.hostHeld.foldl State.admitHost { s with hostHeld := [] }

/-- BAR4_READ: function `dev` reads `b` bytes, within one line, at offset `a`; the answer leaves the device. R290 may hold it. With `op` 1
or 2 the host reads bytes of BAR 0, or of the function's BAR 2 (18 R413, R414). -/
def execBar4Read (s : State) : Out :=
  let e := s.cur.ev
  let ones := List.replicate e.b (0xFF : Byte)
  if e.op = 1 then .next (s.emit (.hostRead ((List.range e.b).map fun i => s.bar0 (e.a + i))))
  else if e.op = 2 then .next (s.emit (.hostRead ((List.range e.b).map fun i => s.bar2 e.dev (e.a + i))))
  else if 16 ≤ e.dev ∨ 2 ^ 36 < e.a + e.b ∨ e.b = 0 ∨ 64 < e.a % 64 + e.b then .next s
  else match s.windowAt e.dev e.a .read with
    | .missing _ | .fault _ => .next ((s.windowFault e.dev).emit (.hostRead ones))
    | .at pa => .next (s.admitHost ⟨e.dev, pa, e.b, none⟩)

/-- BAR4_WRITE: function `dev` writes bytes, within one line, at offset `a` of its window: performed on committed memory, held under
R290, or discarded. -/
def execBar4Write (s : State) : Out :=
  let e := s.cur.ev
  let n := e.bytes.length
  if 16 ≤ e.dev ∨ 2 ^ 36 < e.a + n ∨ n = 0 ∨ 64 < e.a % 64 + n then .next s
  else match s.windowAt e.dev e.a .write with
    | .missing _ | .fault _ => .next (s.windowFault e.dev)
    | .at pa => .next (s.admitHost ⟨e.dev, pa, n, some e.bytes⟩)

/-! ### Writes to the windows' registers -/

/-- A device list with the words of a write at a byte offset replaced. -/
def listPut (l : List Nat) (off : Nat) (bytes : List Byte) : List Nat :=
  let old := (List.range (max (2 * l.length) (off + bytes.length))).map fun i => BitVec.ofNat 8 (l.getD (i / 2) 0 >>> (8 * (i % 2)))
  let new := old.take off ++ bytes ++ old.drop (off + bytes.length)
  (List.range ((new.length + 1) / 2)).map fun i => fieldAt new (2 * i) 2

/-- HOST_REGISTER_WRITE: a write of 8 bytes `w` to a register of window `op` at offset `a`, by function `dev` for BAR 2, or of bytes to
a device list. Every other offset discards the write. -/
def execHostRegisterWrite (s : State) : Out :=
  let e := s.cur.ev
  if e.op = 0 then
    if e.a = 0x10 then .next { s with reqBal := e.w.toNat, balDue := true }
    else if 0x1000000 ≤ e.a ∧ e.a + e.bytes.length ≤ 0x1800000 ∧ e.a % 0x8000 + e.bytes.length ≤ 0x8000 then
      let n := (e.a - 0x1000000) / 0x8000
      let d := (assoc s.directory n).getD ⟨List.replicate 64 0, false, 0, []⟩
      .next { s with directory := assocPut s.directory n { d with list := listPut d.list (e.a % 0x8000) e.bytes } }
    else .next s
  else if e.op = 2 ∧ e.dev < 16 then
    match e.a with
    | 0x1208 => .next (s.modFunction e.dev fun f => { f with mask := e.w.setWidth 16 })
    | 0x1600 => .next (s.modFunction e.dev fun f => { f with hwbase := e.w })
    | 0x1608 => .next (s.modFunction e.dev fun f => { f with hwpart := fieldOf e.w 15 0 })
    | _ => .next s
  else .next s

/-! ### Attestation (18 R427) -/

/-- An SPDM answer leaves the device. -/
def State.attest (s : State) (a : SpdmAnswer) : State := s.emit (.spdm a)

/-- What a measurement block measures (18 R427): the firmware images, where the device has them, the calibration data, and the fuses with
CAPS. How the calibration data, the fuses and an image that the model does not hold stand in bytes the spec does not say (log entry 46). -/
def State.measured (s : State) (i : Nat) : List Byte :=
  match i, s.firmware[i - 1]? with
  | 1, some f | 2, some f => f.body
  | 4, _ => Config.fuseBytes s.fused s.keyFuse s.minFuse s.caps
  | i, _ => Config.measuredBytes i

/-- A measurement block: its index and a SHA-512 digest. -/
def State.measurement (s : State) (i : Nat) : Nat × List Byte := (i, sha512 (s.measured i))

/-- The certificate chain in slot 0 (18 R427). -/
def certificateChain : List Byte := (List.range Config.certificateLength).map Config.certificateByte

/-- GET_VERSION: SPDM 1.3; the message's other bytes the spec does not state. -/
def execGetVersion (s : State) : Out := .next ((s.attest (.version 1 3 (s.anyBytes s.cur.ev.b))).used s.cur.ev.b)

/-- GET_CAPABILITIES: secured sessions are not offered. -/
def execGetCapabilities (s : State) : Out := .next ((s.attest (.capabilities false (s.anyBytes s.cur.ev.b))).used s.cur.ev.b)

/-- NEGOTIATE_ALGORITHMS: only RSAPSS_4096 and SHA_512 are offered. -/
def execNegotiateAlgorithms (s : State) : Out := .next (s.attest (.algorithms true true))

/-- GET_DIGESTS: the digest of the chain in slot 0. -/
def execGetDigests (s : State) : Out := .next (s.attest (.digests (sha512 certificateChain)))

/-- GET_CERTIFICATE: `b` bytes at offset `a` of the chain in slot `slot`; only slot 0 holds one. -/
def execGetCertificate (s : State) : Out :=
  let e := s.cur.ev
  if e.slot ≠ 0 ∨ Config.certificateLength < e.a then .next (s.attest .error)
  else .next (s.attest (.certificate ((certificateChain.drop e.a).take e.b)))

/-- CHALLENGE: the signature of the device identity key, 512 bytes that the spec does not state. -/
def execChallenge (s : State) : Out :=
  if s.cur.ev.slot ≠ 0 then .next (s.attest .error) else .next ((s.attest (.challengeAuth (s.anyBytes 512))).used 512)

/-- GET_MEASUREMENTS: block `a` of the four, or every one for 0xFF. -/
def execGetMeasurements (s : State) : Out :=
  let a := s.cur.ev.a
  if a = 0xFF then .next (s.attest (.measurements ((List.range 4).map fun i => s.measurement (i + 1))))
  else if 1 ≤ a ∧ a ≤ 4 then .next (s.attest (.measurements [s.measurement a]))
  else .next (s.attest .error)

end Sys2Proof.Machine
end

