-- ==== Sys2Proof/Machine/Matrix.lean ====
section
/-! DEFINITION. The matrix engine, the operand latch and the ring (11). -/

namespace Sys2Proof.Machine

/-! ### Descriptors and operands (11 R239, R240) -/

/-- M of a descriptor (11 Table 11.4). -/
def descM (c : Word) : Nat := fieldOf c 6 0 + 1
/-- N of a descriptor. -/
def descN (c : Word) : Nat := 32 * (fieldOf c 8 7 + 1)
/-- K of a descriptor. -/
def descK (c : Word) : Nat := 32 * (fieldOf c 16 9 + 1)
/-- TROW. -/
def descRow (c : Word) : Nat := fieldOf c 23 17
/-- TCOL. -/
def descCol (c : Word) : Nat := fieldOf c 30 24
/-- ASTR in bytes. -/
def descA (c : Word) : Nat := 8 * fieldOf c 46 31
/-- BSTR in bytes. -/
def descB (c : Word) : Nat := 8 * fieldOf c 62 47

/-- CB: the bytes of 32 elements (11 R240). -/
def Format.chunkBytes (f : Format) : Nat := 4 * f.bits

/-- The formats of matrix operands (11 Table 11.5). -/
def Format.isMatrix : Format → Bool
  | .e4m3 | .e5m2 | .e3m2 | .e2m3 | .e2m1 | .bf16 | .fp16 | .s8 => true
  | _ => false

/-- Whether BLK = 3 is accepted with a format by matrix instructions (11 R241). -/
def Format.takesScales (f : Format) : Bool := f.scalable && f != .s8

/-- The class-2 checks of an operand pair (11 R241), with the format that the instruction asks for, if any. -/
def State.operandCause (s : State) (f : Option Format) (p q : Word) : Option (Nat × Word) :=
  match s.pointerCause p with
  | some c => some (c, p)
  | none =>
    match (if ptrBlk p = 0 then none else s.scaleCause q) with
    | some c => some (c, q)
    | none =>
      let fmtOk := match f with
        | some f => ptrFmt p == f
        | none => (ptrFmt p).isMatrix
      if fmtOk && (ptrBlk p == 0 || (ptrBlk p == 3 && (ptrFmt p).takesScales)) then none else some (0x045, p)

/-- The class-6 check of an operand pair (11 R241): this tile's own TLM. -/
def operandHome (k : Nat) (p q : Word) : Option (Nat × Word) :=
  if !ownTlm k p then some (0x0C3, p) else if ptrBlk p ≠ 0 && !ownTlm k q then some (0x0C3, q) else none

/-! ### Issue (11 R228, R229, R243) -/

/-- A command as its instruction captures it. -/
def State.captured (s : State) (op : Instr) (rd : Reg) (a b : Word × Word) (c : Word) (slack : Nat) : Cmd :=
  { id := 0, op := op, slot := s.cur.slot, rd := rd, a := a.1, aq := a.2, b := b.1, bq := b.2, c := c, cq := 0, ctl := 0,
    priv := s.priv, slack := slack, issued := s.gclk, mark := s.nextReq, fmark := s.me.fenced, started := false,
    status := none }

/-- A command enters the matrix queue: it waits for an entry, traps on a failed check, or takes MCC as its id. -/
def State.enterMatrix (s : State) (bad : Option (Nat × Word)) (c : Cmd) : Out :=
  if 16 ≤ (s.tile s.cur.tile).eng.mq.length then .next s.hold
  else match bad with
    | some (x, v) => .next (s.trapAtIssue x v)
    | none =>
      .next ((s.modEng s.cur.tile fun g =>
        { g with mcc := (g.mcc + 1) % 2 ^ 64, mq := g.mq ++ [{ c with id := g.mcc }] }).markX c.rd)

/-- Issue of an MMA. -/
def State.issueMma (s : State) (op : Instr) (f : Format) (xd : Reg) (xa xb : RegPair) (xc : Reg) : Out :=
  let k := s.cur.tile
  let a := s.scaledPair xa
  let b := s.scaledPair xb
  let mixed := if ptrBlk a.1 = ptrBlk b.1 then none else some (0x045, b.1)
  s.enterMatrix (s.operandCause (some f) a.1 a.2 <|> s.operandCause (some f) b.1 b.2 <|> mixed <|>
      operandHome k a.1 a.2 <|> operandHome k b.1 b.2)
    (s.captured op xd a b (s.rx xc) 0)

/-- Issue of an MMAL. -/
def State.issueMmal (s : State) (op : Instr) (f : Format) (xd : Reg) (xa : RegPair) (xc : Reg) : Out :=
  let a := s.scaledPair xa
  s.enterMatrix (s.operandCause (some f) a.1 a.2 <|> operandHome s.cur.tile a.1 a.2) (s.captured op xd a (0, 0) (s.rx xc) 0)

/-- The ring width of a configuration (11 Table 11.3). -/
def ringWidth (w : Word) : Nat := 2 ^ fieldOf w 6 4

/-- The tiles of a tile's ring segment, in ascending x (11 R237). -/
def ringSegment (k w : Nat) : List Nat := (List.range w).map fun i => k - k % 32 + k % 32 / w * w + i

/-- The successor in the ring (11 R237). -/
def ringNext (k w : Nat) : Nat := k - k % 32 + k % 32 / w * w + (k % 32 % w + 1) % w

/-- The check of a configuration word (11 R237). DESIGN CHOICE: a tile of no partition has no rectangle to hold a segment, and accepts only
RING = 0 (log entry 72). -/
def State.mcfgCause (s : State) (w : Word) : Option (Nat × Word) :=
  let inside := match s.partOf s.cur.tile with
    | some id => (ringSegment s.cur.tile (ringWidth w)).all (s.part id).holds
    | none => fieldOf w 6 4 == 0
  if fieldOf w 63 7 ≠ 0 ∨ fieldOf w 3 2 ≠ 0 ∨ 5 < fieldOf w 6 4 ∨ inside = false then some (0x0C4, w) else none

/-- MCFG. -/
def execMcfg (xd xa : Reg) (s : State) : Out :=
  s.enterMatrix (s.mcfgCause (s.rx xa)) (s.captured (.mcfg xd xa) xd (s.rx xa, 0) (0, 0) 0 0)

/-- MZERO. -/
def execMzero (xd xc : Reg) (s : State) : Out :=
  s.enterMatrix none (s.captured (.mzero xd xc) xd (0, 0) (0, 0) (s.rx xc) 0)

/-- LATB. -/
def execLatb (xd : Reg) (xa : RegPair) (xc : Reg) (s : State) : Out :=
  let b := s.scaledPair xa
  s.enterMatrix (s.operandCause none b.1 b.2 <|> operandHome s.cur.tile b.1 b.2)
    (s.captured (.latb xd xa xc) xd (0, 0) b (s.rx xc) 0)

/-- ROTB. -/
def execRotb (xd : Reg) (k : SlackReg) (s : State) : Out :=
  s.enterMatrix none (s.captured (.rotb xd k) xd (0, 0) (0, 0) 0 (s.slackOf k))

/-- The check of the pointer of MST and MLDC (11 R250). -/
def State.cellsCause (s : State) (w : Word) : Option (Nat × Word) :=
  match s.pointerCause w with
  | some c => some (c, w)
  | none =>
    let fmtOk := match ptrFmt w with
      | .fp32 | .bf16 | .fp16 | .e4m3 | .e5m2 | .s32 => true
      | _ => false
    if ptrBlk w == 0 && fmtOk then none else some (0x045, w)

/-- MST. -/
def execMst (xd xa xc : Reg) (k : SlackReg) (sat : Bool) (s : State) : Out :=
  s.enterMatrix (s.cellsCause (s.rx xa)) (s.captured (.mst xd xa xc k sat) xd (s.rx xa, 0) (0, 0) (s.rx xc) (s.slackOf k))

/-- MLDC. -/
def execMldc (xd xa xc : Reg) (k : SlackReg) (s : State) : Out :=
  s.enterMatrix (s.cellsCause (s.rx xa)) (s.captured (.mldc xd xa xc k) xd (s.rx xa, 0) (0, 0) (s.rx xc) (s.slackOf k))

/-- MSCL. -/
def execMscl (xd xa xc : Reg) (s32 : Bool) (s : State) : Out :=
  s.enterMatrix none (s.captured (.mscl xd xa xc s32) xd (s.rx xa, 0) (0, 0) (s.rx xc) 0)

/-- MMA.e4m3. -/
def execMmaE4m3 (xd : Reg) (xa xb : RegPair) (xc : Reg) (ovw : Bool) (s : State) : Out :=
  s.issueMma (.mmaE4m3 xd xa xb xc ovw) .e4m3 xd xa xb xc

/-- MMA.e5m2. -/
def execMmaE5m2 (xd : Reg) (xa xb : RegPair) (xc : Reg) (ovw : Bool) (s : State) : Out :=
  s.issueMma (.mmaE5m2 xd xa xb xc ovw) .e5m2 xd xa xb xc

/-- MMA.e3m2. -/
def execMmaE3m2 (xd : Reg) (xa xb : RegPair) (xc : Reg) (ovw : Bool) (s : State) : Out :=
  s.issueMma (.mmaE3m2 xd xa xb xc ovw) .e3m2 xd xa xb xc

/-- MMA.e2m3. -/
def execMmaE2m3 (xd : Reg) (xa xb : RegPair) (xc : Reg) (ovw : Bool) (s : State) : Out :=
  s.issueMma (.mmaE2m3 xd xa xb xc ovw) .e2m3 xd xa xb xc

/-- MMA.e2m1. -/
def execMmaE2m1 (xd : Reg) (xa xb : RegPair) (xc : Reg) (ovw : Bool) (s : State) : Out :=
  s.issueMma (.mmaE2m1 xd xa xb xc ovw) .e2m1 xd xa xb xc

/-- MMA.bf16. -/
def execMmaBf16 (xd : Reg) (xa xb : RegPair) (xc : Reg) (ovw : Bool) (s : State) : Out :=
  s.issueMma (.mmaBf16 xd xa xb xc ovw) .bf16 xd xa xb xc

/-- MMA.f16. -/
def execMmaF16 (xd : Reg) (xa xb : RegPair) (xc : Reg) (ovw : Bool) (s : State) : Out :=
  s.issueMma (.mmaF16 xd xa xb xc ovw) .fp16 xd xa xb xc

/-- MMA.s8. -/
def execMmaS8 (xd : Reg) (xa xb : RegPair) (xc : Reg) (ovw : Bool) (s : State) : Out :=
  s.issueMma (.mmaS8 xd xa xb xc ovw) .s8 xd xa xb xc

/-- MMAL.e4m3. -/
def execMmalE4m3 (xd : Reg) (xa : RegPair) (xc : Reg) (ovw : Bool) (s : State) : Out :=
  s.issueMmal (.mmalE4m3 xd xa xc ovw) .e4m3 xd xa xc

/-- MMAL.e5m2. -/
def execMmalE5m2 (xd : Reg) (xa : RegPair) (xc : Reg) (ovw : Bool) (s : State) : Out :=
  s.issueMmal (.mmalE5m2 xd xa xc ovw) .e5m2 xd xa xc

/-- MMAL.e3m2. -/
def execMmalE3m2 (xd : Reg) (xa : RegPair) (xc : Reg) (ovw : Bool) (s : State) : Out :=
  s.issueMmal (.mmalE3m2 xd xa xc ovw) .e3m2 xd xa xc

/-- MMAL.e2m3. -/
def execMmalE2m3 (xd : Reg) (xa : RegPair) (xc : Reg) (ovw : Bool) (s : State) : Out :=
  s.issueMmal (.mmalE2m3 xd xa xc ovw) .e2m3 xd xa xc

/-- MMAL.e2m1. -/
def execMmalE2m1 (xd : Reg) (xa : RegPair) (xc : Reg) (ovw : Bool) (s : State) : Out :=
  s.issueMmal (.mmalE2m1 xd xa xc ovw) .e2m1 xd xa xc

/-- MMAL.bf16. -/
def execMmalBf16 (xd : Reg) (xa : RegPair) (xc : Reg) (ovw : Bool) (s : State) : Out :=
  s.issueMmal (.mmalBf16 xd xa xc ovw) .bf16 xd xa xc

/-- MMAL.f16. -/
def execMmalF16 (xd : Reg) (xa : RegPair) (xc : Reg) (ovw : Bool) (s : State) : Out :=
  s.issueMmal (.mmalF16 xd xa xc ovw) .fp16 xd xa xc

/-- MMAL.s8. -/
def execMmalS8 (xd : Reg) (xa : RegPair) (xc : Reg) (ovw : Bool) (s : State) : Out :=
  s.issueMmal (.mmalS8 xd xa xc ovw) .s8 xd xa xc

/-! ### What a command is -/

/-- The kinds of matrix command. -/
inductive MatrixKind where
  | config | clear | latch | rotate | store (sat : Bool) | fill | scale (s32 : Bool) | mma (f : Format) (ovw : Bool)
  | mmal (f : Format) (ovw : Bool) | other
  deriving DecidableEq, Repr

/-- The kind of a queued command. -/
def Cmd.matrixKind (c : Cmd) : MatrixKind :=
  match c.op with
  | .mcfg .. => .config
  | .mzero .. => .clear
  | .latb .. => .latch
  | .rotb .. => .rotate
  | .mst _ _ _ _ sat => .store sat
  | .mldc .. => .fill
  | .mscl _ _ _ s32 => .scale s32
  | .mmaE4m3 _ _ _ _ ovw => .mma .e4m3 ovw
  | .mmaE5m2 _ _ _ _ ovw => .mma .e5m2 ovw
  | .mmaE3m2 _ _ _ _ ovw => .mma .e3m2 ovw
  | .mmaE2m3 _ _ _ _ ovw => .mma .e2m3 ovw
  | .mmaE2m1 _ _ _ _ ovw => .mma .e2m1 ovw
  | .mmaBf16 _ _ _ _ ovw => .mma .bf16 ovw
  | .mmaF16 _ _ _ _ ovw => .mma .fp16 ovw
  | .mmaS8 _ _ _ _ ovw => .mma .s8 ovw
  | .mmalE4m3 _ _ _ ovw => .mmal .e4m3 ovw
  | .mmalE5m2 _ _ _ ovw => .mmal .e5m2 ovw
  | .mmalE3m2 _ _ _ ovw => .mmal .e3m2 ovw
  | .mmalE2m3 _ _ _ ovw => .mmal .e2m3 ovw
  | .mmalE2m1 _ _ _ ovw => .mmal .e2m1 ovw
  | .mmalBf16 _ _ _ ovw => .mmal .bf16 ovw
  | .mmalF16 _ _ _ ovw => .mmal .fp16 ovw
  | .mmalS8 _ _ _ ovw => .mmal .s8 ovw
  | _ => .other

/-! ### The start of a command (11 R228, R230, R242) -/

/-- ESIZE and EFAULT (01 Table 1.3). -/
def codeSize : Nat := 1
/-- EFAULT. -/
def codeFault : Nat := 2

/-- Whether the cells of a descriptor pass the row limit and the columns. -/
def Tile.cellsOut (t : Tile) (c : Word) : Bool :=
  decide (t.rowLimit < descRow c + descM c) || decide (128 < descCol c + descN c)

/-- The highest offset of an operand of `rows` rows. -/
def operandEnd (f : Format) (rows stride k : Nat) : Int := (rows : Int) * stride - stride + k * f.chunkBytes / 32 - 1

/-- Whether an operand with its scales lies outside TLM or where the strand may not read (11 R242). -/
def operandBad (priv : Nat) (p q : Word) (rows stride k : Nat) : Bool :=
  let hi := operandEnd (ptrFmt p) rows stride k
  extentBad priv p 0 hi false || (ptrBlk p != 0 && extentBad priv q 0 (hi / (ptrFmt p).chunkBytes) false)

/-- The start check of a matrix command: the code of the status it ends with, if it fails. -/
def Tile.matrixCheck (t : Tile) (c : Cmd) : Option Nat :=
  let d := c.c
  let fa := ptrFmt c.a
  let fb := ptrFmt c.b
  match c.matrixKind with
  | .config | .rotate | .other => none
  | .clear | .scale _ => if t.cellsOut d then some codeSize else none
  | .latch =>
    if descB d % fb.chunkBytes ≠ 0 ∨ 32768 < descN d * descK d * fb.chunkBytes / 32 then some codeSize
    else if operandBad c.priv c.b c.bq (descN d) (descB d) (descK d) then some codeFault
    else none
  | .store _ | .fill =>
    let write := match c.matrixKind with
      | .store _ => true
      | _ => false
    let size := fa.bits / 8
    if t.cellsOut d ∨ descA d % size ≠ 0 then some codeSize
    else if extentBad c.priv c.a 0 (((descM d : Int) - 1) * descA d + descN d * size - 1) write then some codeFault
    else none
  | .mma f _ =>
    if t.cellsOut d ∨ descA d % f.chunkBytes ≠ 0 ∨ descB d % f.chunkBytes ≠ 0 then some codeSize
    else if operandBad c.priv c.a c.aq (descM d) (descA d) (descK d) ||
      operandBad c.priv c.b c.bq (descN d) (descB d) (descK d) then some codeFault
    else none
  | .mmal f _ =>
    let frontOk := match t.eng.front with
      | some p => p.fmt == f.code && p.blk == ptrBlk c.a && p.n == descN d && p.k == descK d
      | none => false
    if t.cellsOut d ∨ descA d % f.chunkBytes ≠ 0 ∨ !frontOk then some codeSize
    else if operandBad c.priv c.a c.aq (descM d) (descA d) (descK d) then some codeFault
    else none

/-- The spaces that a matrix command reads and writes. -/
def Cmd.matrixSpaces (c : Cmd) : List Nat :=
  match c.matrixKind with
  | .store _ | .fill => [ptrSpace c.a]
  | .latch | .mma .. | .mmal .. => [1]
  | _ => []

/-- The rows of an operand with their scales, as ranges of TLM. -/
def operandRows (p q : Word) (rows stride k : Nat) : List (Nat × Nat) :=
  let cb := (ptrFmt p).chunkBytes
  (List.range rows).flatMap fun r =>
    (ptrLoc p + r * stride, k * cb / 32) :: (if ptrBlk p = 0 then [] else [(ptrLoc q + r * stride / cb, k / 32)])

/-- The ranges of its own tile's TLM that a matrix command reads or writes. -/
def Cmd.matrixRanges (k : Nat) (c : Cmd) : List (Nat × Nat) :=
  let a := operandRows c.a c.aq (descM c.c) (descA c.c) (descK c.c)
  let b := operandRows c.b c.bq (descN c.c) (descB c.c) (descK c.c)
  match c.matrixKind with
  | .latch => b
  | .mma .. => a ++ b
  | .mmal .. => a
  | .store _ | .fill =>
    if ownTlm k c.a then (List.range (descM c.c)).map fun m => (ptrLoc c.a + m * descA c.c, descN c.c * ((ptrFmt c.a).bits / 8)) else []
  | _ => []

/-- Whether a panel on its way to a tile exists. -/
def State.panelOnWay (s : State) (k : Nat) : Bool :=
  s.reqs.any fun r => decide (r.ttile = k) && (match r.op with | .panel .. => true | _ => false)

/-- ROTB sends a copy of the front with its header and this tile's W (11 R248), in packets of at most five flits. -/
def State.sendPanel (s : State) (k : Nat) (c : Cmd) : State :=
  let g := (s.tile k).eng
  let w := ringWidth g.mcfg
  let op : ReqOp := match g.front with
    | some p => .panel true p.fmt p.blk p.n p.k w p.data p.scales p.bad
    | none => .panel false 0 0 0 0 w [] [] []
  let slack := c.slack - (s.gclk - c.issued)
  let flits := (g.front.map fun p => ceilDiv (p.data.length + p.scales.length) 64).getD 1
  let s' := s.post { s.blankReq k c.slot op with sv := false, ttile := ringNext k w, slack := slack, came := .strand 2 }
  if flits ≤ 5 then s' else s'.ship k .panelPart 0xF9 s.nextReq (flits - 5) (.tile (ringNext k w)) slack none

/-- Change the head of the matrix queue. -/
def State.modMatrixHead (s : State) (k : Nat) (f : Cmd → Cmd) : State :=
  s.modEng k fun g => { g with mq := match g.mq with
    | c :: l => f c :: l
    | [] => [] }

/-- MATRIX_COMMAND_START (11 R228, R230): the head of the queue starts, once no KEEP copy runs and what precedes it is
performed; a failed check decides its status. A ROTB starts once its successor's back is empty, and sends its panel. -/
def execMatrixCommandStart (s : State) : Out :=
  let k := s.cur.ev.tile
  let t := s.tile k
  match t.eng.mq with
  | [] => .next s
  | c :: _ =>
    if c.started || s.withheld || !t.engRuns || t.keepCopy || !s.earlierDone k c.slot c.mark c.fmark c.matrixSpaces then .next s
    else match t.matrixCheck c with
      | some code =>
        .next (s.modMatrixHead k fun c => { c with started := true, status := some (statusWord c.id code 2 0) })
      | none =>
        match c.matrixKind with
        | .rotate =>
          let next := ringNext k (ringWidth t.eng.mcfg)
          if (s.tile next).eng.back.isSome || s.panelOnWay next then .next s
          else .next ((s.sendPanel k c).modMatrixHead k fun c => { c with started := true })
        | _ =>
          .next ((s.touchRanges k c.slot (c.matrixRanges k)).modMatrixHead k fun c =>
            { c with started := true, slack := c.slack - (s.gclk - c.issued) })

/-- ROTB_PANEL_ARRIVAL (11 R248): the panel of the event's number has reached its target whole and fills the empty back there. A tile that has
applied the abort of its partition, and not yet received OPEN, discards it (R254, 13 R289). -/
def execRotbPanelArrival (s : State) : Out :=
  match s.req s.cur.ev.id with
  | none => .next s
  | some r =>
    match r.op with
    | .panel full fmt blk n k w data scales bad =>
      if r.stage ≠ .target ∨ s.landed r.id = false then .next s
      else if s.discards r.part (.tile r.ttile) then .next ((s.dropReq r.id).unload r.id)
      else if (s.tile r.ttile).eng.back.isSome then .next s
      else
        let spent := r.xh || (s.cargoSlack r.id).2
        let s := ((s.dropReq r.id).unload r.id).modEng r.ttile fun g =>
          { g with back := some ⟨if full then some ⟨fmt, blk, n, k, data, scales, bad⟩ else none, w⟩ }
        .next (s.countExhausted { r with sv := true, xh := spent })
    | _ => .next s

/-! ### What a command does (11 R244-R252, 04 R86) -/

/-- Element `i` of an operand in this tile's TLM. -/
def Tile.elemAt (t : Tile) (p : Word) (i : Nat) : Num :=
  let f := ptrFmt p
  let b := elemBitOffset f i
  f.decode (ofBytes (t.bytes (ptrLoc p + b / 8) 3) >>> (b % 8))

/-- Elements in a stride of bytes (11 R240). -/
def strideElems (f : Format) (bytes : Nat) : Nat := bytes * f.granElems / f.granBytes

/-- The chunk step on one cell (04 R86). -/
def chunkStep (f : Format) (sat : Bool) (cell : BitVec 32) (l : List (Num × Num)) (scales : Option (Byte × Byte)) : BitVec 32 :=
  if f = .s8 then
    let sum : Int := match dotNum l with
      | .fin neg m e => Num.scaledInt neg m e 0
      | _ => 0
    BitVec.ofNat 32 (encodeInt (if sat then saturate (cell.toInt + sum) .s32 else wrap (cell.toInt + sum) .s32) .s32)
  else BitVec.ofNat 32 (roundFp32 ((Format.fp32.decode cell.toNat).add (chunkSum l scales)))

/-- A B operand as a matrix command reads it: an element by column and index, a scale byte by column and chunk, and whether a
chunk meets an uncorrectable word. -/
structure BOperand where
  elem  : Nat → Nat → Num
  scale : Nat → Nat → Byte
  bad   : Nat → Bool

/-- Whether chunk `c` of an operand in this tile's TLM meets an uncorrectable word. -/
def Tile.chunkBad (t : Tile) (p q : Word) (rows stride c : Nat) : Bool :=
  let cb := (ptrFmt p).chunkBytes
  (List.range rows).any fun r =>
    badRange t.bad (ptrLoc p + r * stride + c * cb) cb ||
      (ptrBlk p != 0 && badRange t.bad (ptrLoc q + (r * stride + c * cb) / cb) 1)

/-- The scale byte of a row's chunk. -/
def Tile.scaleAt (t : Tile) (p q : Word) (row stride c : Nat) : Byte :=
  let cb := (ptrFmt p).chunkBytes
  t.byte (ptrLoc q + (row * stride + c * cb) / cb)

/-- B from this tile's TLM. -/
def Tile.bFromTlm (t : Tile) (p q : Word) (cols stride : Nat) : BOperand :=
  { elem := fun n k => t.elemAt p (n * strideElems (ptrFmt p) stride + k)
    scale := fun n c => t.scaleAt p q n stride c
    bad := fun c => t.chunkBad p q cols stride c }

/-- B from the latch front. -/
def Panel.asB (p : Panel) : BOperand :=
  let f := Format.ofCode p.fmt
  { elem := fun n k => f.decode (elemBits f p.data (n * p.k + k))
    scale := fun n c => p.scales.getD (n * (p.k / 32) + c) 0
    bad := fun c => (List.range p.n).any fun n =>
      badRange p.bad (n * (p.k * f.chunkBytes / 32) + c * f.chunkBytes) f.chunkBytes ||
        (p.blk != 0 && badRange p.bad (8 * 4096 + n * (p.k / 32) + c) 1) }

/-- Rewrite the cells of a descriptor row by row. -/
def Tile.mapCells (t : Tile) (d : Word) (f : Nat → Nat → BitVec 32 → BitVec 32) : Tile :=
  (List.range (descM d)).foldl (fun t m =>
    t.putRow (descRow d + m) (descCol d)
      ((List.range (descN d)).map fun n => f m n (t.cell (descRow d + m) (descCol d + n)))) t

/-- Whether a cell of a descriptor's region is uncorrectable, and whether writing the region would cover such a word only in
part (17 R407). -/
def Tile.regionBad (t : Tile) (d : Word) (part : Bool) : Bool :=
  (List.range (descM d)).any fun m =>
    let a := tsAddr (descRow d + m) (descCol d)
    if part then partlyBad t.tsBad a (4 * descN d) else badRange t.tsBad a (4 * descN d)

/-- The chunks of an MMA or MMAL in order; answers the chunk that met uncorrectable data, if any (11 R245). -/
def mmaChunks (c : Cmd) (f : Format) (b : BOperand) : List Nat → Tile → Tile × Option Nat
  | [], t => (t, none)
  | i :: l, t =>
    if t.chunkBad c.a c.aq (descM c.c) (descA c.c) i || b.bad i || t.regionBad c.c false then (t, some i)
    else
      let sa := strideElems f (descA c.c)
      mmaChunks c f b l (t.mapCells c.c fun m n v =>
        chunkStep f (bitOf t.eng.mcfg 0) v
          ((List.range 32).map fun j => (t.elemAt c.a (m * sa + 32 * i + j), b.elem n (32 * i + j)))
          (if ptrBlk c.a = 0 then none else some (t.scaleAt c.a c.aq m (descA c.c) i, b.scale n i)))

/-- A matrix command ends: its status is recorded, for the register that it writes. -/
structure Ended where
  code  : Nat
  count : Nat
  bad   : Bool              -- uncorrectable data was met

/-- An MMA or MMAL with its B operand. -/
def Tile.multiply (t : Tile) (c : Cmd) (f : Format) (ovw : Bool) (b : BOperand) : Tile × Ended :=
  let first : BitVec 32 := if f = .s8 then 0 else 0x80000000
  let size := descM c.c * descN c.c
  let t := if ovw then t.mapCells c.c fun _ _ _ => first else t
  match mmaChunks c f b (List.range (descK c.c / 32)) t with
  | (t, none) => (t, ⟨0, size * (descK c.c / 32), false⟩)
  | (t, some i) => (t, ⟨codeFault, size * i, true⟩)

/-- LATB (11 R247): the columns with their scales, one after another. -/
def Tile.latchFrom (t : Tile) (c : Cmd) : Panel :=
  let f := ptrFmt c.b
  let cb := f.chunkBytes
  let k := descK c.c
  let cols := List.range (descN c.c)
  { fmt := f.code, blk := ptrBlk c.b, n := descN c.c, k := k
    data := cols.flatMap fun n => t.bytes (ptrLoc c.b + n * descB c.c) (k * cb / 32)
    scales := if ptrBlk c.b = 0 then []
      else cols.flatMap fun n => (List.range (k / 32)).map fun i => t.scaleAt c.b c.bq n (descB c.c) i
    bad := [] }

/-- Whether LATB meets uncorrectable data. -/
def Tile.latchBad (t : Tile) (c : Cmd) : Bool :=
  (List.range (descK c.c / 32)).any fun i => t.chunkBad c.b c.bq (descN c.c) (descB c.c) i

/-- An element of memory as a cell (11 R250). -/
def cellOf (f : Format) (l : List Byte) : BitVec 32 :=
  match f with
  | .fp32 | .s32 => BitVec.ofNat 32 (ofBytes l)
  | _ => BitVec.ofNat 32 (roundFp32 (f.decode (ofBytes l)))

/-- A cell as an element of memory (11 R250). -/
def elemOf (f : Format) (sat : Bool) (v : BitVec 32) : List Byte :=
  match f with
  | .fp32 | .s32 => toBytes 4 v.toNat
  | _ => toBytes (f.bits / 8) (roundToFormat (Format.fp32.decode v.toNat) f .rn sat 0)

/-- The byte offset of a cell's element in memory (11 R250). -/
def cellOffset (c : Cmd) (m n : Nat) : Nat := m * descA c.c + n * ((ptrFmt c.a).bits / 8)

/-- The cells of a row from column `n` on, in runs that stay within a 64-byte line of memory: row, first column, cells. -/
def rowRuns (c : Cmd) (m : Nat) : Nat → Nat → List (Nat × Nat × Nat)
  | 0, _ => []
  | fuel + 1, n =>
    if descN c.c ≤ n then []
    else
      let size := (ptrFmt c.a).bits / 8
      let cnt := min (descN c.c - n) (max 1 ((64 - (ptrLoc c.a + cellOffset c m n) % 64) / size))
      (m, n, cnt) :: rowRuns c m fuel (n + cnt)

/-- The cells of a descriptor in ascending row, then column, in runs. -/
def cellRuns (c : Cmd) : List (Nat × Nat × Nat) := (List.range (descM c.c)).flatMap fun m => rowRuns c m (descN c.c) 0

/-- MST run by run, each run a write of up to 64 bytes (11 R250, R251, 10 R218): answers the first cell that was not done, in order. Cells
beyond it may or may not be done. -/
def State.storeCells (a : Actor) (c : Cmd) (sat : Bool) : List (Nat × Nat × Nat) → State → Option Nat → State × Option Nat
  | [], s, bad => (s, bad)
  | (m, n, cnt) :: l, s, bad =>
    if bad.isSome && s.skips a.tile 2 c.id (m * descN c.c + n) then State.storeCells a c sat l s bad
    else
      let t := s.tile a.tile
      let f := ptrFmt c.a
      let size := f.bits / 8
      let row := descRow c.c + m
      let first := m * descN c.c + n
      let good := ((List.range cnt).takeWhile fun i => !badRange t.tsBad (tsAddr row (descCol c.c + n + i)) 4).length
      let data := (List.range good).flatMap fun i => elemOf f sat (t.cell row (descCol c.c + n + i))
      let part := s.writtenPart a.tile (ptrMove c.a (cellOffset c m n)) data.length
      let put := s.engPut a c.a (cellOffset c m n) data
      let s := put.1
      match put.2.1 with
      | .fault x => State.storeCells a c sat l (s.copyFault a.tile x) (bad <|> some (first + max put.2.2 part / size))
      | _ =>
        if good < cnt then State.storeCells a c sat l (s.castAbort a.tile 0x141) (bad <|> some (first + good))
        else State.storeCells a c sat l s bad

/-- MLDC cell by cell (11 R250, R251): answers the first cell that was not done. Cells beyond it may or may not be done. -/
def State.fillCells (a : Actor) (c : Cmd) : List (Nat × Nat) → State → Option Nat → State × Option Nat
  | [], s, bad => (s, bad)
  | (m, n) :: l, s, bad =>
    if bad.isSome && s.skips a.tile 2 c.id (m * descN c.c + n) then State.fillCells a c l s bad
    else
      let f := ptrFmt c.a
      let row := descRow c.c + m
      let col := descCol c.c + n
      let i := m * descN c.c + n
      match s.engGet a c.a (cellOffset c m n) (f.bits / 8) with
      | (s, .data b) =>
        let covered := decide (2 ∣ col) && decide (n + 1 < descN c.c) || decide (col % 2 = 1) && decide (0 < n)
        if (s.tile a.tile).tsBad.contains (cellAt row col / 2) && !covered then
          State.fillCells a c l (s.castAbort a.tile 0x141) (bad <|> some i)
        else
          let s := s.modTile a.tile fun t =>
            { t with tsBad := t.tsBad.filter fun w => w != cellAt row col / 2 }.putRow row col [cellOf f b]
          State.fillCells a c l s bad
      | (s, .fault x) => State.fillCells a c l (s.copyFault a.tile x) (bad <|> some i)
      | (s, _) => State.fillCells a c l s bad

/-- The cells of a descriptor in ascending row, then column. -/
def cellList (d : Word) : List (Nat × Nat) :=
  (List.range (descM d)).flatMap fun m => (List.range (descN d)).map fun n => (m, n)

/-- MSCL on one cell (11 R252). -/
def scaleCell (s32 : Bool) (v : Word) (cell : BitVec 32) : BitVec 32 :=
  let x := if s32 then Num.ofInt cell.toInt else Format.fp32.decode cell.toNat
  BitVec.ofNat 32 (roundFp32 (x.mul (fp32 v)))

/-- A whole region rewritten, unless a cell that it reads, or part of a word that it writes, is uncorrectable. -/
def State.rewrite (s : State) (k id : Nat) (d : Word) (reads : Bool) (f : BitVec 32 → BitVec 32) : State × Ended :=
  let t := s.tile k
  let s' := s.setTile k (t.mapCells d fun _ _ v => f v)
  if (reads && t.regionBad d false) || t.regionBad d true then (s', ⟨codeFault, s.openCount k 2 id % (descM d * descN d), true⟩)
  else (s', ⟨0, descM d * descN d, false⟩)

/-- The head of the queue leaves it, and its status is written. -/
def State.endMatrix (s : State) (k : Nat) (c : Cmd) (w : Word) : State :=
  (s.modEng k fun g => { g with mq := g.mq.tail }).landX k c.slot c.rd w

/-- What the running command does, and how it ends; none while a ROTB waits for its back. -/
def State.runMatrix (s : State) (k : Nat) (old : List Stale) (c : Cmd) : Option (State × Ended) :=
  let t := s.tile k
  let d := c.c
  match c.matrixKind with
  | .config => some (s.modEng k fun g => { g with mcfg := c.a }, ⟨0, fieldOf t.eng.mcfg 31 0, false⟩)
  | .clear => some (s.rewrite k c.id d false fun _ => 0)
  | .scale s32 => some (s.rewrite k c.id d true (scaleCell s32 c.a))
  | .latch =>
    let size := descN d * descK d * (ptrFmt c.b).chunkBytes / 32
    if t.latchBad c then
      some (s.modEng k fun g => { g with front := none }, ⟨codeFault, s.openCount k 2 c.id % (size + 1), true⟩)
    else some (s.modEng k fun g => { g with front := some (t.latchFrom c) }, ⟨0, size, false⟩)
  | .rotate =>
    match t.eng.back with
    | none => none
    | some b =>
      if b.w ≠ ringWidth t.eng.mcfg then some (s.modEng k fun g => { g with back := none }, ⟨5, 0, false⟩)
      else
        some (s.modEng k fun g => { g with front := b.operand, back := none },
          ⟨0, (b.operand.map fun p => p.data.length).getD 0, false⟩)
  | .store sat =>
    let (s, bad) := State.storeCells (c.actor 2 k old) c sat (cellRuns c) s none
    some (s, ⟨if bad.isSome then codeFault else 0, bad.getD (descM d * descN d), false⟩)
  | .fill =>
    let (s, bad) := State.fillCells (c.actor 2 k old) c (cellList d) s none
    some (s, ⟨if bad.isSome then codeFault else 0, bad.getD (descM d * descN d), false⟩)
  | .mma f ovw =>
    let (t, e) := t.multiply c f ovw (t.bFromTlm c.b c.bq (descN d) (descB d))
    some (s.setTile k t, e)
  | .mmal f ovw =>
    match t.eng.front with
    | some p =>
      let (t, e) := t.multiply c f ovw p.asB
      some (s.setTile k t, e)
    | none => some (s, ⟨codeSize, 0, false⟩)
  | .other => some (s, ⟨0, 0, false⟩)

/-- MATRIX_COMMAND_COMPLETE (11 R228, R244-R253): the running command of the event's tile, which goes on after ABORT too (13 R301), takes
effect, writes its status and releases its entry, once the banks that it addresses have woken (06 R125) and its packets have been
answered. -/
def execMatrixCommandComplete (s : State) : Out :=
  let k := s.cur.ev.tile
  let t := s.tile k
  match t.eng.mq with
  | [] => .next s
  | c :: _ =>
    if !c.started || !t.engGoesOn then .next s
    else match c.status with
      | some w => .next (s.endMatrix k c w)
      | none =>
        if t.asleepAny (c.matrixRanges k) then .next s
        else match s.begin.runMatrix k (s.staleFor s.cur.ev.ok) c with
        | none => .next s
        | some (s1, e) =>
          let s1 := if e.bad then s1.castAbort k 0x141 else s1
          s.engineEnd (c.actor 2 k []) (s1.endMatrix k c (statusWord c.id e.code 2 e.count))

/-- KEEP_COPY_COMPLETE (11 R234): rows 0-63 stand in rows 64-127 once the copy of the event's tile ends. -/
def execKeepCopyComplete (s : State) : Out :=
  let k := s.cur.ev.tile
  if (s.tile k).keepCopy then .next (s.modTile k fun t => { t.copyKept with keepCopy := false }) else .next s

end Sys2Proof.Machine
end

