-- ==== Sys2Proof/Machine/Tree.lean ====
section
/-! DEFINITION. The combining tree: groups, contributions, rounds and results (15 R340-R344). -/

namespace Sys2Proof.Machine

/-! ### Groups (15 Table 15.4) -/

/-- GRP of a register. -/
def groupOf (w : Word) : Nat := fieldOf w 5 0

/-- OP of a descriptor. -/
def groupOp (w : Word) : Nat := fieldOf w 11 8

/-- VEC of a descriptor. -/
def groupVec (w : Word) : Bool := bitOf w 12

/-- The descriptors in force at a tile: from the time at which OPEN left the device root those of the new superstep, also where the tile
has not received it yet (15 R340). -/
def State.groupsOf (s : State) (p : Part) (k : Nat) : List (Nat × Word) :=
  let c := (s.tile k).core
  if p.bar.commit == some true && p.bar.sent.contains (.device, .open) && !p.bar.opened.contains (.tile k) then c.openGroups.groups
  else c.groups

/-- The members of a group on this device: tiles whose descriptor for it is in force. -/
def State.members (s : State) (p : Part) (g : Nat) : List Nat :=
  (s.liveTiles p).filter fun k => (assoc (s.groupsOf p k) g).isSome

/-- The descriptor in force of a group for a member tile, when the group is active (15 R340). -/
def State.activeGroup (s : State) (k g : Nat) : Option Word :=
  match s.partOf k, assoc (s.tile k).core.groups g with
  | some id, some w =>
    let p := s.part id
    let same := (s.members p g).all fun j => match assoc (s.groupsOf p j) g with
      | some v => groupOp v == groupOp w && groupVec v == groupVec w
      | none => true
    if same && !bitOf p.clash g then some w else none
  | _, _ => none

/-- TGRP (15 R340): stages the tile's descriptor for a group. -/
def execTgrp (xd xa : Reg) (s : State) : Out :=
  let k := s.cur.tile
  let w := s.rx xa
  let g := groupOf w
  if fieldOf w 63 14 ≠ 0 ∨ fieldOf w 7 6 ≠ 0 ∨ 9 < groupOp w ∨ (groupOp w = 9 ∧ !groupVec w) then
    .next (s.landX k s.cur.slot xd 0x8000000000000000)
  else
    let c := (s.tile k).core
    let old := ((assoc c.gstaged g) <|> (assoc c.groups g)).getD 0
    .next ((s.modCore k fun c => { c with gstaged := assocPut c.gstaged g w }).landX k s.cur.slot xd old)

/-! ### Combining (15 R341) -/

/-- One lane of all contributions combined. -/
def combineLane (op : Nat) (lanes : List (List Byte)) : List Byte :=
  let ws := lanes.map fun l => word (ofBytes l)
  let fold (f : Word → Word → Word) : List Byte :=
    toBytes 8 (match ws with
      | [] => 0
      | w :: l => (l.foldl f w).toNat)
  let canon (n : Nat) : Nat := if (Format.fp32.decode n).isNaN then nan32 else n
  let low (l : List Byte) : Nat := ofBytes (l.take 4)
  let pick (f : Nat → Nat → Nat) : Nat :=
    match lanes with
    | [] => 0
    | a :: l => canon (l.foldl (fun v b => f v (low b)) (low a))
  let size := (lanes.head?.getD []).length
  match op with
  | 0 => fold fun a b => a + b
  | 1 => fold minS
  | 2 => fold maxS
  | 3 => fold fun a b => a &&& b
  | 4 => fold fun a b => a ||| b
  | 5 => fold fun a b => a ^^^ b
  | 6 => toBytes size (pick fminBits)
  | 7 => toBytes size (pick fmaxBits)
  | 8 => toBytes size ((lanes.foldl (fun a l => a.add (Format.fp32.decode (low l))) Acc.clear).round .fp32 .rn false 0)
  | _ =>
    let pair (l : List Byte) : Int × Int :=
      ((BitVec.ofNat 64 (ofBytes (l.take 8))).toInt, (BitVec.ofNat 16 (ofBytes ((l.drop 8).take 2))).toInt)
    toBytes 16 ((lanes.foldl (fun a l => a.addPair (pair l).1 (pair l).2) Acc.clear).round .fp32 .rn false 0)

/-- Bytes of a lane. -/
def laneBytes (op : Nat) (vec : Bool) : Nat := if !vec then 8 else if op = 9 then 16 else if 6 ≤ op then 4 else 8

/-- The result of a round: 8 bytes, or 64 for a vector group. -/
def combineRound (op : Nat) (vec : Bool) (parts : List (List Byte)) : List Byte :=
  let n := laneBytes op vec
  (List.range ((if vec then 64 else 8) / n)).flatMap fun i => combineLane op (parts.map fun l => (l.drop (n * i)).take n)

/-! ### Contributions (15 R342) -/

/-- The checks of TCON and TCON.v in their order (17 R465): the cause, TVAL, and whether it is raised at issue. -/
def State.tconCause (s : State) (k priv : Nat) (xa xb : Word) (vec : Bool) : Option (Nat × Word × Bool) :=
  let ptr := if vec then s.ownCause k priv xb 64 64 false else none
  if vec && (s.pointerCause xb).isSome then ptr.map fun c => (c, xb, false)
  else if ptr = some 0x04A then some (0x04A, xb, true)
  else match s.activeGroup k (groupOf xa) with
    | none => some (0x121, xa, true)
    | some w => if groupVec w != vec then some (0x123, xa, true) else ptr.map fun c => (c, xb, false)

/-- The number of a tile's next contribution to a group in the superstep. -/
def TileCore.roundOf (c : TileCore) (g : Nat) : Nat := (assoc c.rounds g).getD 0

/-- The request of a contribution, and the state in which its round is counted. -/
def State.contribute (s : State) (r : Req) (g : Nat) (l : List Byte) : State :=
  let k := r.tile
  let n := (s.tile k).core.roundOf g
  (s.modCore k fun c => { c with rounds := assocPut c.rounds g (n + 1) }).post { r with op := .contribute g n l, ttile := k, size := l.length }

/-- TCON and TCON.v. -/
def State.tcon (s : State) (xa xb : Word) (slack : Nat) (vec : Bool) : State :=
  let k := s.cur.tile
  match s.tconCause k s.priv xa xb vec with
  | some (c, v, true) => s.trapAtIssue c v
  | some (c, v, false) => s.trapAfter c v
  | none =>
    let r := { s.blankReq k s.cur.slot (.contribute 0 0 []) with
      slack := slack, posted := true, ptr := xa, epc := s.cur.pc, paired := s.cur.paired
      acc := accessRecord (if vec then 0x86 else 0x85) 0 (if vec then 64 else 8) xa [] }
    if !s.roomFor r then s.hold
    else if !vec then s.contribute r (groupOf xa) (toBytes 8 xb.toNat)
    else if badRange (s.tile k).bad (ptrLoc xb) 64 then (s.castAbort k 0x141).trapAfter 0x141 xb
    else ((s.touch k s.cur.slot (ptrLoc xb) 64).awaitBanks k s.cur.slot (ptrLoc xb) 64).contribute r (groupOf xa) ((s.tile k).bytes (ptrLoc xb) 64)

/-- TCON. -/
def execTcon (xa xb : Reg) (k : SlackReg) (s : State) : Out := .next (s.tcon (s.rx xa) (s.rx xb) (s.slackOf k) false)

/-- TCON.v. -/
def execTconV (xa xb : Reg) (k : SlackReg) (s : State) : Out := .next (s.tcon (s.rx xa) (s.rx xb) (s.slackOf k) true)

/-! ### Rounds -/

/-- Whether a round is the open one of a group and number. -/
def Round.isOpen (r : Round) (g n : Nat) : Bool := r.group == g && r.round == n && r.result.isNone && r.carried.isNone

/-- A contribution joins its round; a new round takes the number `job`. -/
def joinRound (l : List Round) (job g n rank : Nat) (b : List Byte) : List Round :=
  if l.any fun r => r.isOpen g n then updateWhere l (fun r => r.isOpen g n) fun r => { r with parts := r.parts ++ [(rank, b)] }
  else l ++ [⟨job, g, n, [(rank, b)], 4095, false, [], none, [], none⟩]

/-- The code of the packets of a group (14 Table 14.2). -/
def treeCode (vec : Bool) : Nat := if vec then 0x86 else 0x85

/-- The open round of a group and number. -/
def Part.openRound (p : Part) (g n : Nat) : Option Round := p.rounds.find? fun r => r.isOpen g n

/-- A contribution that a tile's node accepted goes on to the device root, with the slack that it has left. -/
def State.sendContribution (s : State) (id k g n : Nat) (b : List Byte) (slack : Nat) : State :=
  let s := { s.modPart id fun p => { p with rounds := joinRound p.rounds s.nextReq g n (s.rank k) b } with nextReq := s.nextReq + 1 }
  match (s.part id).openRound g n with
  | none => s
  | some r => s.ship k .result (treeCode (b.length == 64)) (groupJob 1 (s.rank k) r.job) (ceilDiv (b.length + 8) 64) (.router (s.part id).corner) slack none

/-- A packet of the combining tree for another device leaves the device root (log entry 52): GRP, the round's number, and the data. -/
def State.mailTree (s : State) (id dev rank g n : Nat) (b : List Byte) (slack : Nat) (xh : Bool) : State :=
  let p := s.part id
  let l := toBytes 4 g ++ toBytes 4 n ++ b
  s.mail (.router p.corner) p.corner
    (packHeader 0 dev 0 (rank / 4096) (rank % 4096) p.ten slack xh 3 (ceilDiv l.length 64 - 1) 0 false (treeCode (b.length == 64)) 3 id)
    (l ++ List.replicate (64 * ceilDiv l.length 64 - l.length) 0)

/-- A round has its result (15 R342): it goes down to every member of this device and to the child devices, with the least slack of the
contributions. -/
def State.formRound (s : State) (id : Nat) (r : Round) (l : List Byte) (slack : Nat) (spent : Bool) : State :=
  let here := (r.parts.map (·.1)).filter fun q => q / 4096 == s.devId
  let s := here.foldl (fun s q => s.unload (groupJob 1 q r.job)) s
  let s := s.modPart id fun p => { p with rounds := updateWhere p.rounds (fun q => q.job == r.job) fun q => { q with result := some l, slack := slack, spent := spent } }
  let s := here.foldl (fun s q =>
    s.shipDown id .result (treeCode (l.length == 64)) (groupJob 2 q r.job) (ceilDiv (l.length + 8) 64) (.tile (q % 4096)) slack spent) s
  (s.childDevs (s.part id)).foldl (fun s d => s.mailTree id d (s.rank (s.part id).corner) r.group r.round l slack spent) s

/-- Whether every member of a group on this device has contributed to a round, and every such contribution stands at the device root. -/
def State.roundHere (s : State) (p : Part) (r : Round) : Bool :=
  ((s.members p r.group).all fun k => r.parts.any fun q => q.1 == s.rank k) && r.parts.all fun q => s.landed (groupJob 1 q.1 r.job)

/-- The least slack of a round's contributions, and whether one of them is exhausted. -/
def State.roundSlack (s : State) (r : Round) : Nat × Bool :=
  r.parts.foldl (fun a q => let c := s.cargoSlack (groupJob 1 q.1 r.job); (min a.1 c.1, a.2 || c.2)) (r.slack, r.spent)

/-- A packet of the combining tree from another device stands at the device root: from the parent it is the result of a round that every
member of this device contributed to; from any other it is a contribution, which goes on to the parent of a device root that is not the
partition root. -/
def State.treeIn (s : State) (q : Req) (hdr : BitVec 128) (l : List Byte) : State :=
  let id := headerField hdr 15 0
  let p := s.part id
  let g := ofBytes (l.take 4) % 64
  let n := ofBytes ((l.drop 4).take 4)
  let b := (l.drop 8).take (if headerField hdr 31 24 = 0x86 then 64 else 8)
  let rank := headerField hdr 85 72 * 4096 + headerField hdr 71 60
  if !p.valid || p.bar.commit == some false then s.dropReq q.id
  else if !p.isRoot && headerField hdr 85 72 == p.tree.parent then
    match p.openRound g n with
    | some r => if s.roundHere p r then (s.dropReq q.id).formRound id r b (s.current q) q.xh else s
    | none => s
  else
    let s := (s.dropReq q.id).modPart id fun p =>
      { p with
        rounds := updateWhere (joinRound p.rounds s.nextReq g n rank b) (fun r => r.isOpen g n) fun r =>
          { r with slack := min r.slack (s.current q), spent := r.spent || q.xh, relayed := r.relayed ++ [rank] } }
    let s := { s with nextReq := s.nextReq + 1 }
    if p.isRoot then s else s.mailTree id p.tree.parent rank g n b (s.current q) q.xh

/-- TREE_CONTRIBUTION_COMBINE (15 R342): the contribution of the event's number is accepted into its round at its tile's node, or a packet
of another device at the device root. -/
def execTreeContributionCombine (s : State) : Out :=
  match s.req s.cur.ev.id with
  | none => .next s
  | some r =>
    match r.op with
    | .contribute g n b =>
      if r.stage ≠ .target then .next s
      else
      let (s, r) := s.depart r
      if s.discards r.part (.tile r.ttile) then .next (s.answer r .discard s.cur.ev.a)
      else .next ((s.sendContribution r.part r.tile g n b r.slack).reply r .none s.cur.ev.a)
    | .transit hdr l =>
      if (s.letter r.id 0x85).isSome || (s.letter r.id 0x86).isSome then .next (s.treeIn r hdr l) else .next s
    | _ => .next s

/-- Whether a round holds the contribution of every member: of those on this device, and of as many on other devices as the group has
there. -/
def State.roundFull (s : State) (p : Part) (r : Round) : Bool :=
  s.roundHere p r && (r.parts.filter fun q => q.1 / 4096 != s.devId).length == fieldAt p.others (4 * r.group) 4

/-- The contributions of this device's members to a round that stand at a device root that is not the partition root go on to its parent. -/
def State.relayRound (s : State) (id : Nat) (r : Round) : State :=
  let ready := r.parts.filter fun q => q.1 / 4096 == s.devId && !r.relayed.contains q.1 && s.landed (groupJob 1 q.1 r.job)
  let s := ready.foldl (fun s q =>
    let c := s.cargoSlack (groupJob 1 q.1 r.job)
    (s.unload (groupJob 1 q.1 r.job)).mailTree id (s.part id).tree.parent q.1 r.group r.round q.2 c.1 c.2) s
  s.modPart id fun p =>
    { p with rounds := updateWhere p.rounds (fun q => q.job == r.job) fun q => { q with relayed := q.relayed ++ ready.map (·.1) } }

/-- TREE_ROUND_COMPLETE (15 R342): the root of group `a` of the event's partition holds every contribution of round `b` and forms the
result; a device root below it passes the contributions on. -/
def execTreeRoundComplete (s : State) : Out :=
  let e := s.cur.ev
  let p := s.part e.part
  match p.openRound e.a e.b with
  | none => .next s
  | some r =>
    if p.bar.commit == some false then .next s
    else if !p.isRoot then .next (s.relayRound e.part r)
    else if !s.roundFull p r then .next s
    else
      let w := ((s.members p e.a).head?.bind fun k => assoc (s.groupsOf p k) e.a).getD 0
      let c := s.roundSlack r
      .next (s.formRound e.part r (combineRound (groupOp w) (groupVec w) (r.parts.map (·.2))) c.1 c.2)

/-- Whether a round is the next one of a group that a member is owed. -/
def Part.owed (p : Part) (g rank : Nat) : Option Round :=
  let due := p.rounds.filter fun r => r.group == g && r.result.isSome && r.parts.any (fun q => q.1 == rank) && !r.served.contains rank
  leastBy (fun r => if r.carried.isSome then r.round else 2 ^ 32 + r.round) due

/-- TREE_RESULT_DELIVERY (15 R343): the next result of group `a` that has come to the event's tile enters its queue when it has room. -/
def execTreeResultDelivery (s : State) : Out :=
  let k := s.cur.ev.tile
  match s.partOf k with
  | none => .next s
  | some id =>
    let t := s.tile k
    match (s.part id).owed s.cur.ev.a (s.rank k) with
    | none => .next s
    | some r =>
      if 16 ≤ t.core.results.length || t.decided || t.lost || !s.landed (groupJob 2 (s.rank k) r.job) then .next s
      else
        let s := (s.unload (groupJob 2 (s.rank k) r.job)).modCore k fun c => { c with results := c.results ++ [⟨r.group, r.round % 2 ^ 32, r.result.getD []⟩] }
        .next (s.modPart id fun p =>
          { p with rounds := updateWhere p.rounds (fun q => q == r) fun q => { q with served := q.served ++ [s.rank k] } })

/-! ### TGET (15 R343) -/

/-- The oldest result of a group. -/
def TileCore.resultOf (c : TileCore) (g : Nat) : Option TreeResult := c.results.find? fun r => r.group == g

/-- A strand takes a result: a scalar into the register, a vector into TLM. -/
def State.takeResult (s : State) (k n : Nat) (xd : Reg) (ptr : Word) (r : TreeResult) : State :=
  let s := s.modCore k fun c => { c with results := c.results.erase r }
  if r.bytes.length ≤ 8 then s.landX k n xd (word (ofBytes r.bytes))
  else (((s.touch k n (ptrLoc ptr) 64).awaitBanks k n (ptrLoc ptr) 64).tlmWrite k (ptrLoc ptr) r.bytes).landX k n xd (word (r.round * 2 ^ 32 + r.group))

/-- Whether the pointer of TGET is one that raises 0x04A before any other check (17 R465): that of a group whose descriptor here has VEC;
of no other group is the pointer read (15 R343). -/
def State.tgetStray (s : State) (k g : Nat) (w : Word) : Bool :=
  groupVec ((assoc (s.tile k).core.groups g).getD 0) && s.ownCause k s.priv w 64 64 true == some 0x04A

/-- TGET. -/
def execTget (xd xa xb : Reg) (s : State) : Out :=
  let k := s.cur.tile
  let g := groupOf (s.rx xa)
  let w := s.rx xb
  if s.tgetStray k g w then .next (s.trapAtIssue 0x04A w) else
  match s.activeGroup k g with
  | none => .next (s.trapAtIssue 0x121 (s.rx xa))
  | some d =>
    match (if groupVec d then s.ownCause k s.priv w 64 64 true else none) with
    | some c => .next (s.trapAfter c w)
    | none =>
      match (s.tile k).core.resultOf g with
      | some r => .next (s.takeResult k s.cur.slot xd w r)
      | none => .next ((s.markX xd).sleepOn (.tget xd (word g) w))

/-- The oldest strand of a tile that sleeps in TGET and whose result is present. -/
def Tile.nextGetter (t : Tile) : Option (Nat × Reg × Word × TreeResult) :=
  let l := (List.range 16).filterMap fun n =>
    let st := t.core.strand n
    match st.st, st.sleep with
    | .live, .tget xd g ptr => (t.core.resultOf g.toNat).map fun r => (st.last.getD 0, n, xd, ptr, r)
    | _, _ => none
  (leastBy (·.1) l).map (·.2)

/-- Sleeping TGETs of a tile are served in their issue order. -/
def State.serveTget (s : State) (k : Nat) : Nat → State
  | 0 => s
  | fuel + 1 =>
    match (s.tile k).nextGetter with
    | none => s
    | some (n, xd, ptr, r) =>
      if !(s.tile k).runs then s
      else State.serveTget ((s.takeResult k n xd ptr r).modStrand k n Strand.wake).serveMonitors k fuel

end Sys2Proof.Machine
end

