-- ==== Sys2Proof/Machine/Triggers.lean ====
section
/-! DEFINITION. Trigger cells, tokens and counters (15 R345-R350). -/

namespace Sys2Proof.Machine

/-! ### Tokens and counters (15 R346) -/

/-- The check of a counter address: a token address whose index is 0. -/
def State.counterCause (s : State) (k : Nat) (w : Word) : Option Nat :=
  if fieldOf w 31 30 ≠ 0 then some 0x124 else s.tokenCause k w

/-- A request of the issuing strand that carries no data of memory. -/
def State.sendPosted (s : State) (r : Req) : State := if !s.roomFor r then s.hold else s.post r

/-- TOKEN. -/
def execToken (xa : Reg) (k : SlackReg) (s : State) : Out :=
  let w := s.rx xa
  match s.tokenCause s.cur.tile w with
  | some c => .next (s.trapAtIssue c 0)
  | none =>
    .next (s.sendPosted { tokenReq s s.cur.tile w (s.slackOf k) with
      sv := true, slot := s.cur.slot, posted := true, epc := s.cur.pc, paired := s.cur.paired, acc := accessRecord 0x8A 0 0 w [] })

/-- TCNT. -/
def execTcnt (xa xb : Reg) (k : SlackReg) (s : State) : Out :=
  let w := s.rx xa
  match s.counterCause s.cur.tile w with
  | some c => .next (s.trapAtIssue c 0)
  | none =>
    .next (s.sendPosted { tokenReq s s.cur.tile w (s.slackOf k) with
      op := .count (fieldOf w 29 26) (fieldOf (s.rx xb) 31 0), sv := true, slot := s.cur.slot, posted := true, epc := s.cur.pc,
      paired := s.cur.paired, acc := accessRecord 0x8B 0 4 w [] })

/-- A token at its target tile: its bit of GOT is set, or TDUP counts it. -/
def Tile.token (t : Tile) (n i : Nat) : Tile :=
  let c := vget t.core.cells n Cell.reset
  if bitOf (word c.got) i then { t with tdup := (t.tdup + 1) % 2 ^ 64 }
  else { t with core := { t.core with cells := vset t.core.cells n { c with got := c.got ||| 2 ^ i } } }

/-- A count at its target tile. -/
def TileCore.count (c : TileCore) (n v : Nat) : TileCore :=
  { c with cnts := vset c.cnts n (min (vget c.cnts n 0 + v) 0xFFFFFFFF) }

/-- TOKEN_ARRIVAL (15 R346): the token of the event's number reaches its cell. -/
def execTokenArrival (s : State) : Out :=
  match s.req s.cur.ev.id with
  | none => .next s
  | some r =>
    match r.op with
    | .token n i =>
      if r.stage ≠ .target then .next s
      else
      let (s, r) := s.depart r
      match (s.windowEntry r).map (·.reply) <|> s.tileRefusal r with
        | some a => .next (s.reply r a s.cur.ev.a)
        | none => .next ((s.modTile r.ttile fun t => t.token n i).reply r .none s.cur.ev.a)
    | _ => .next s

/-- COUNTER_ARRIVAL (15 R346): the increment of the event's number reaches its counter. -/
def execCounterArrival (s : State) : Out :=
  match s.req s.cur.ev.id with
  | none => .next s
  | some r =>
    match r.op with
    | .count n v =>
      if r.stage ≠ .target then .next s
      else
      let (s, r) := s.depart r
      match (s.windowEntry r).map (·.reply) <|> s.tileRefusal r with
        | some a => .next (s.reply r a s.cur.ev.a)
        | none => .next ((s.modCore r.ttile fun c => c.count n v).reply r .none s.cur.ev.a)
    | _ => .next s

/-! ### Arming (15 R349) -/

/-- TARM. -/
def execTarm (xa xb : Reg) (s : State) : Out :=
  let n := fieldOf (s.rx xa) 3 0
  let w := s.rx xb
  let exp := fieldOf w 35 32
  let cen := bitOf w 36
  if fieldOf w 39 37 ≠ 0 ∨ fieldOf w 63 45 ≠ 0 ∨ (exp = 0 ∧ !cen) then .next (s.trapAtIssue 0x124 w)
  else
    .next (s.modCore s.cur.tile fun c =>
      let cell : Cell :=
        ⟨true, exp, (vget c.cells n Cell.reset).got, cen, fieldOf w 43 40, fieldOf w 31 0, fieldOf w 31 0, bitOf w 44⟩
      { c with cells := vset c.cells n cell })

/-- TCLR. -/
def execTclr (xa : Reg) (s : State) : Out :=
  let w := s.rx xa
  let n := fieldOf w 3 0
  if fieldOf w 63 9 ≠ 0 ∨ fieldOf w 7 4 ≠ 0 then .next (s.trapAtIssue 0x124 w)
  else
    .next (s.modCore s.cur.tile fun c =>
      { c with
        cells := vset c.cells n { vget c.cells n Cell.reset with armed := false, got := 0 }
        cnts := if bitOf w 8 then vset c.cnts n 0 else c.cnts })

/-! ### Firing (15 R347) -/

/-- The key of a due cell: 0 for tokens, the threshold for a counter. -/
def TileCore.dueKey (c : TileCore) (n : Nat) : Option Nat :=
  let q := vget c.cells n Cell.reset
  if !q.armed then none
  else if q.exp ≠ 0 ∧ q.exp &&& q.got = q.exp then some 0
  else if q.cen ∧ q.thr ≤ vget c.cnts q.csel 0 then some q.thr
  else none

/-- The cell that fires: the least key, ties to the lower index. -/
def TileCore.dueCell (c : TileCore) : Option Nat :=
  (leastBy (·.1) ((List.range 16).filterMap fun n => (c.dueKey n).map fun q => (q, n))).map (·.2)

/-- A cell after firing. -/
def Cell.fire (c : Cell) : Cell :=
  if c.rearm then { c with got := 0, thr := min (c.thr + c.step) 0xFFFFFFFF } else { c with got := 0, armed := false }

/-- A field of a command slot. -/
def commandWord (l : List Byte) (off : Nat) : Word := word (fieldAt l off 8)

/-- Whether a command slot breaks the layout of its KIND (15 Table 15.7). -/
def commandBad (l : List Byte) : Bool :=
  let b1 := fieldAt l 1 1
  let w4 := fieldAt l 4 4
  let common := decide (2 ^ 12 ≤ fieldAt l 2 2)
  let zero (off n : Nat) : Bool := fieldAt l off n == 0
  match fieldAt l 0 1 with
  | 0 => false
  | 1 => common || decide (4 ≤ b1)
  | 2 => common || b1 != 0 || !zero 24 8
  | 3 => common || decide (2 ≤ b1) || decide (64 ≤ w4) || !zero 16 16
  | 4 =>
    common || b1 != 0 || decide (4 ≤ w4) || w4 == 0 || (decide (w4 < 2) && !zero 16 8) || (decide (w4 < 3) && !zero 24 8)
  | _ => true

/-- A fired COPY (15 R348): a one-row transfer at user privilege. -/
def State.fireCopy (s : State) (k n : Nat) (l : List Byte) : State :=
  let src := commandWord l 8
  let dst := commandWord l 16
  let words := vset (vset (rawWords src 0 (fieldAt l 4 4) (fieldAt l 1 1)) 0 src) 2 dst
  if ptrBlk src ≠ 0 ∨ ptrBlk dst ≠ 0 ∨ (s.copyCause words words).isSome then s.refuseCommand k
  else
    let (id, s) := s.takeTxc k
    let x := { s.blankXfer (.trigger (commandWord l 24)) words id 0 (fieldAt l 2 2) with slot := n, mark := 0, fmark := 0 }
    match s.placeXfer k x true with
    | (s, none) => s.modEng k fun g => { g with fired := g.fired ++ [n] }
    | (s, some st) =>
      if statusCode st ≠ 0 then s.refuseCommand k
      else
        let token := commandWord l 24
        if token = 0 then s
        else if (s.tokenCause k token).isSome then s.refuseCommand k
        else s.post { tokenReq s k token (fieldAt l 2 2) with cell := some n }

/-- A fired SEND. -/
def State.fireSend (s : State) (k n : Nat) (l : List Byte) : State :=
  let ctl := word (fieldAt l 4 4)
  let dest := commandWord l 8
  let ptr := commandWord l 16
  let len := fieldOf ctl 21 16
  if (s.sendCause k 0 dest ptr ctl).isSome then s.refuseCommand k
  else if 0 < len ∧ badRange (s.tile k).bad (ptrLoc ptr) len then (s.castAbort k 0x141).refuseCommand k
  else
    let entry := s.sendEntry k 0 dest ptr ctl
    s.sendChecked { s.messageReq k 0 dest entry (fieldAt l 2 2) with sv := false, cell := some n } dest entry

/-- A fired TCON. -/
def State.fireTcon (s : State) (k n : Nat) (l : List Byte) : State :=
  let vec := fieldAt l 1 1 == 1
  let xa := word (fieldAt l 4 4)
  let v := commandWord l 8
  if (s.tconCause k 0 xa v vec).isSome then s.refuseCommand k
  else if vec && badRange (s.tile k).bad (ptrLoc v) 64 then (s.castAbort k 0x141).refuseCommand k
  else
    s.contribute { s.tileReq k (.contribute 0 0 []) (fieldAt l 2 2) with cell := some n } (groupOf xa)
      (if vec then (s.tile k).bytes (ptrLoc v) 64 else toBytes 8 v.toNat)

/-- A fired TOKENS. -/
def State.fireTokens (s : State) (k n : Nat) (l : List Byte) : State :=
  let ws := (List.range (fieldAt l 4 4)).map fun i => commandWord l (8 + 8 * i)
  if ws.any fun w => (s.tokenCause k w).isSome then s.refuseCommand k
  else ws.foldl (fun (s : State) w => s.post { tokenReq s k w (fieldAt l 2 2) with cell := some n }) s

/-- The command of a cell that fired. -/
def State.fireCommand (s : State) (k n : Nat) : State :=
  let t := s.tile k
  let l := t.bytes (0x200 + 32 * n) 32
  if badRange t.bad (0x200 + 32 * n) 32 then (s.castAbort k 0x141).refuseCommand k
  else if commandBad l then s.refuseCommand k
  else match fieldAt l 0 1 with
    | 1 => s.fireCopy k n l
    | 2 => s.fireSend k n l
    | 3 => s.fireTcon k n l
    | 4 => s.fireTokens k n l
    | _ => s

/-- Whether a tile has room for what its command slot asks for: an entry of the copy queue, or requests. -/
def State.commandFits (s : State) (k n : Nat) : Bool :=
  let l := (s.tile k).bytes (0x200 + 32 * n) 32
  let requests := match fieldAt l 0 1 with
    | 2 | 3 => 1
    | 4 => fieldAt l 4 4 % 4
    | _ => 0
  (fieldAt l 0 1 != 1 || (s.tile k).eng.commandRoom) && decide (s.outstanding k + requests ≤ Config.tileReqCap)

/-- TRIGGER_FIRE (15 R347): the event's tile fires the due cell with the least key, at most one in a cycle, once there is room for its
command. -/
def execTriggerFire (s : State) : Out :=
  let k := s.cur.ev.tile
  let t := s.tile k
  match t.core.dueCell with
  | none => .next s
  | some n =>
    if !t.runs || decide (s.cyc < t.nextFire) || !s.commandFits k n then .next s
    else
      let s := s.modTile k fun t =>
        { t with nextFire := s.cyc + 1, core := { t.core with cells := vset t.core.cells n (vget t.core.cells n Cell.reset).fire } }
      .next (s.fireCommand k n)

end Sys2Proof.Machine
end

