-- ==== Sys2Proof/Machine/Collectives.lean ====
section
/-! DEFINITION. Collectives over a tree group, and what they share with repartition: members, sequence numbers, descriptors
(15 R351-R354, 16 R363, R369). -/

namespace Sys2Proof.Machine

/-! ### Members and sequence numbers -/

/-- The rank of a tile in its partition (06 R121). -/
def Part.fullRank (p : Part) (k : Nat) : Nat := p.di * (p.pw * p.ph) + p.localRank k

/-- The members of a group on this device by partition rank. -/
def State.ranked (s : State) (p : Part) (g : Nat) : List (Nat × Nat) := (s.members p g).map fun k => (p.fullRank k, k)

/-- P: the number of members of a group (15 R351). -/
def State.memberCount (s : State) (p : Part) (g : Nat) : Nat := (s.members p g).length + fieldAt p.others (4 * g) 4

/-- The command that a member has issued for a sequence number of a group, in either queue. -/
def TileEng.groupCmd (e : TileEng) (g seq : Nat) : Option GroupCmd :=
  (e.collq ++ e.repq).find? fun c => groupOf c.word == g && c.seq == seq

/-- The commands of all members on this device for a sequence number; none while one is missing. -/
def State.joined' (s : State) (p : Part) (g seq : Nat) : Option (List (Nat × GroupCmd)) :=
  (s.ranked p g).foldl
    (fun (l : Option (List (Nat × GroupCmd))) m =>
      match l, (s.tile m.2).eng.groupCmd g seq with
      | some l, some c => some (l ++ [(m.1, c)])
      | _, _ => none) (some [])

/-- The outcome of a sequence number, once formed. -/
def Part.collRound (p : Part) (g seq : Nat) : Option CollRound := p.colls.find? fun r => r.group == g && r.seq == seq

/-- The members of other devices that an event brings: rank, capacity and data of each. -/
def foreignMembers : Nat → List Byte → List (Nat × Nat × List Byte)
  | 0, _ => []
  | fuel + 1, l =>
    if l.length < 12 then []
    else
      let n := fieldAt l 4 4
      (fieldAt l 0 4, fieldAt l 8 4, (l.drop 12).take n) :: foreignMembers fuel (l.drop (12 + n))

/-- The members of other devices of the event in progress. -/
def Ev.foreign (e : Ev) : List (Nat × Nat × List Byte) := foreignMembers (e.bytes.length / 12 + 1) e.bytes

/-- Members by ascending rank. -/
def insertRank {α : Type} (r : Nat) (a : α) : List (Nat × α) → List (Nat × α)
  | [] => [(r, a)]
  | q :: l => if r < q.1 then (r, a) :: q :: l else q :: insertRank r a l

/-- What R353 compares: the form, and the fields of the words; for a repartition the form, SORT and the configuration
(16 R369). -/
def GroupCmd.descriptor (c : GroupCmd) : Nat × Nat × Nat × Nat × List Byte :=
  match c.op with
  | .collAllred .. => (0, fieldOf c.word 31 8, fieldOf c.buf 63 60, 0, [])
  | .collBcast .. => (1, fieldOf c.word 31 8, fieldOf c.buf 63 60, fieldOf c.word 55 32, [])
  | .collAllgat .. => (2, fieldOf c.word 31 8, fieldOf c.buf 63 60, 0, [])
  | .collRedsc .. => (3, fieldOf c.word 31 8, fieldOf c.buf 63 60, 0, [])
  | .rpgo .. => (4, fieldOf c.word 6 6, 0, 0, c.cfg.take 32)
  | _ => (5, fieldOf c.word 6 6, 0, 0, c.cfg.take 32)

/-- Whether some descriptors differ. -/
def clashing (l : List (Nat × GroupCmd)) : Bool :=
  match l with
  | [] => false
  | q :: l => l.any fun r => r.2.descriptor != q.2.descriptor

/-- A command of a group joins its queue's end with the group's next sequence number (15 R353). -/
def State.nextSeq (s : State) (k g : Nat) : Nat × State :=
  let n := (assoc (s.tile k).core.cseqs g).getD 0
  (n, s.modCore k fun c => { c with cseqs := assocPut c.cseqs g (n + 1) })

/-- A mismatch at a member (15 R353, 16 R369): its strand takes the cause, and with COLLVOTE the tile votes abort. -/
def State.mismatch (s : State) (k n cause : Nat) (status : Word) : State :=
  let s := if (s.strand k n).st = .live then
      s.modStrand k n fun st => { st with held := st.held ++ [⟨cause, status⟩] }
    else s
  match s.partOf k with
  | some id => if bitOf (s.part id).sspol 2 then s.stickyVote k cause else s
  | none => s

/-! ### Elements (15 Tables 15.8, 15.9) -/

/-- Bytes of `n` elements of a format. -/
def spanBytes (f : Format) (n : Nat) : Nat := ceilDiv (n * f.bits) 8

/-- Whether a group's operation accepts a format (15 Table 15.9). -/
def collAccepts (op : Nat) (f : Format) : Bool :=
  match f with
  | .s32 | .s64 => decide (op ≤ 5)
  | .s8 | .s16 | .z8 | .z32 | .raw => decide (3 ≤ op) && decide (op ≤ 5)
  | .fp32 | .bf16 => decide (6 ≤ op) && decide (op ≤ 8)
  | _ => false

/-- The smaller or the larger of two encodings of a format (05 R105). -/
def pickElem (f : Format) (smaller : Bool) (a b : Nat) : Nat :=
  let x := f.decode a
  let y := f.decode b
  if x.isNaN then b
  else if y.isNaN then a
  else if smaller then (if Num.below y x then b else a) else (if Num.below x y then b else a)

/-- One element combined over the members (15 Table 15.9). -/
def combineElem (op : Nat) (f : Format) (l : List Nat) : Nat :=
  let m := 2 ^ f.bits
  let sg (v : Nat) : Int := (BitVec.ofNat f.bits v).toInt
  let fold (g : Nat → Nat → Nat) : Nat :=
    match l with
    | [] => 0
    | a :: l => l.foldl g a
  let canon (v : Nat) : Nat := if (f.decode v).isNaN then Acc.round ⟨0, 1, true, false, false, false⟩ f .rn false 0 else v
  match op with
  | 0 => fold fun a b => (a + b) % m
  | 1 => fold fun a b => if sg b < sg a then b else a
  | 2 => fold fun a b => if sg a < sg b then b else a
  | 3 => fold fun a b => a &&& b
  | 4 => fold fun a b => a ||| b
  | 5 => fold fun a b => a ^^^ b
  | 6 => canon (fold (pickElem f true))
  | 7 => canon (fold (pickElem f false))
  | _ => (l.foldl (fun a v => a.add (f.decode v)) Acc.clear).round f .rn false 0

/-- Buffers combined element by element. -/
def combineBuffers (op : Nat) (f : Format) (bufs : List (List Byte)) : List Byte :=
  let n := f.bits / 8
  (List.range ((bufs.head?.getD []).length / n)).flatMap fun j =>
    toBytes n (combineElem op f (bufs.map fun b => ofBytes ((b.drop (n * j)).take n)))

/-- What a member's buffer receives on DONE, with the offset at which it stands (15 Table 15.8): `bufs` holds the members'
buffers in rank order, `seg` the bytes of N elements. -/
def collResult (op : Instr) (gop : Nat) (f : Format) (root seg i : Nat) (bufs : List (List Byte)) : Nat × List Byte :=
  match op with
  | .collAllred .. => (0, combineBuffers gop f bufs)
  | .collBcast .. => (0, bufs.getD root [])
  | .collAllgat .. =>
    (0, ((List.range bufs.length).zip bufs).flatMap fun b => (b.2.drop (seg * b.1)).take seg)
  | _ => (seg * i, combineBuffers gop f (bufs.map fun b => (b.drop (seg * i)).take seg))

/-- Whether a form's buffer holds P × N elements. -/
def wideForm (op : Instr) : Bool :=
  match op with
  | .collAllgat .. | .collRedsc .. => true
  | _ => false

/-- Bytes of a member's buffer. -/
def collBytes (op : Instr) (f : Format) (n p : Nat) : Nat := spanBytes f (if wideForm op then p * n else n)

/-! ### Issue (15 R352) -/

/-- A collective at issue. The buffer pointer is checked under R74 before its format is held to Table 15.9, so that format 15 is a fault of
class 2 (04 R67, R74). -/
def State.coll (s : State) (op : Instr) (xd : Reg) (w buf : Word) (kc : SlackReg) : State :=
  let k := s.cur.tile
  let g := groupOf w
  let f := ptrFmt buf
  if 8 ≤ (s.tile k).eng.collq.length then s.hold
  else match s.activeGroup k g, s.partOf k with
    | some d, some id =>
      let moves := match op with
        | .collBcast .. | .collAllgat .. => true
        | _ => false
      let len := collBytes op f (fieldOf w 31 8) (s.memberCount (s.part id) g)
      if fieldOf w 63 56 ≠ 0 ∨ fieldOf w 7 6 ≠ 0 then s.trapAtIssue 0x126 w
      else if (s.pointerCause buf).isNone ∧ !moves ∧ !collAccepts (groupOp d) f then s.trapAtIssue 0x126 w
      else match s.ownCause k s.priv buf len f.granBytes true with
        | some c => s.trapAtIssue c buf
        | none =>
          if ptrBlk buf ≠ 0 then s.trapAtIssue 0x045 buf
          else
            let (seq, s) := s.nextSeq k g
            let c : GroupCmd :=
              { id := (s.tile k).eng.tcc, op := op, slot := s.cur.slot, rd := xd, word := w, buf := buf, out := 0, cfg := [], seq := seq,
                priv := s.priv, slack := s.slackOf kc, issued := s.gclk, mark := s.nextReq, fmark := s.me.fenced, phase := 0 }
            let s := s.modEng k fun e => { e with tcc := (e.tcc + 1) % 2 ^ 64, collq := e.collq ++ [c] }
            (if len = 0 then s else s.touch k s.cur.slot (ptrLoc buf) len).markX xd
    | _, _ => s.trapAtIssue 0x121 w

/-- COLL.allred. -/
def execCollAllred (xd xa xb : Reg) (k : SlackReg) (s : State) : Out :=
  .next (s.coll (.collAllred xd xa xb k) xd (s.rx xa) (s.rx xb) k)

/-- COLL.bcast. -/
def execCollBcast (xd xa xb : Reg) (k : SlackReg) (s : State) : Out :=
  .next (s.coll (.collBcast xd xa xb k) xd (s.rx xa) (s.rx xb) k)

/-- COLL.allgat. -/
def execCollAllgat (xd xa xb : Reg) (k : SlackReg) (s : State) : Out :=
  .next (s.coll (.collAllgat xd xa xb k) xd (s.rx xa) (s.rx xb) k)

/-- COLL.redsc. -/
def execCollRedsc (xd xa xb : Reg) (k : SlackReg) (s : State) : Out :=
  .next (s.coll (.collRedsc xd xa xb k) xd (s.rx xa) (s.rx xb) k)

/-! ### Completion (15 R353, R354) -/

/-- A tile by its rank in its partition. -/
def Part.tileAt (p : Part) (rank : Nat) : Nat := (p.tiles.getD (rank - p.di * (p.pw * p.ph)) 0)

/-- Whether a command of a group is a repartition. -/
def GroupCmd.isRep (c : GroupCmd) : Bool :=
  match c.op with
  | .rpgo .. | .rpgoFine .. => true
  | _ => false

/-- The code of a group command's packets (14 Table 14.2). -/
def GroupCmd.code (c : GroupCmd) : Nat :=
  match c.op with
  | .collAllred .. => 0x8D
  | .collBcast .. => 0x8E
  | .collAllgat .. => 0x8F
  | .collRedsc .. => 0x90
  | .rpgo .. => 0xA1
  | _ => 0xA2

/-- The number of the packets of a tile's group command that go up to the device root. -/
def State.upJob (s : State) (k : Nat) (c : GroupCmd) : Nat := groupJob (if c.isRep then 5 else 3) (s.rank k) c.id

/-- The number of those that come down from it. -/
def State.downJob (s : State) (k : Nat) (c : GroupCmd) : Nat := groupJob (if c.isRep then 6 else 4) (s.rank k) c.id

/-- A group command's phase changes. -/
def State.setGroupPhase (s : State) (k : Nat) (c : GroupCmd) (n : Nat) : State :=
  let set (l : List GroupCmd) : List GroupCmd := updateWhere l (fun q => q.id == c.id) fun q => { q with phase := n }
  s.modEng k fun e => if c.isRep then { e with repq := set e.repq } else { e with collq := set e.collq }

/-- A group command's contribution leaves for the device root with the slack of its class (14 Table 14.4, 16 R372). -/
def State.shipUp (s : State) (id k : Nat) (c : GroupCmd) (flits : Nat) : State :=
  (s.ship k (if c.isRep then .histogram else .collective) c.code (s.upJob k c) flits (.router (s.part id).corner) c.slack (some c.slot)).setGroupPhase
    k c 1

/-- A contribution that stands at a device root below the partition root goes on to the device above. -/
def State.relayUp (s : State) (id k : Nat) (c : GroupCmd) (l : List Byte) : State :=
  let x := s.cargoSlack (s.upJob k c)
  ((s.unload (s.upJob k c)).mailGroup id (s.part id).tree.parent (s.rank k) c.code l x.1 x.2).setGroupPhase k c 2

/-- Whether a member's contribution has reached the root, or the device above this one. -/
def State.atRoot (s : State) (p : Part) (q : Nat × GroupCmd) : Bool :=
  if p.isRoot then q.2.phase == 1 && s.landed (s.upJob (p.tileAt q.1) q.2) else q.2.phase == 2

/-- What the root made goes down to every member of this device, with the least slack of the contributions (14 Table 14.4); where it was made
on another device the event gives its slack and whether it is exhausted. -/
def State.shipAnswers (s : State) (id : Nat) (cmds : List (Nat × GroupCmd)) (flits : Nat × GroupCmd → Nat) : State :=
  let p := s.part id
  let x := if p.isRoot then cmds.foldl (fun a q => let c := s.cargoSlack (s.upJob (p.tileAt q.1) q.2); (min a.1 c.1, a.2 || c.2)) (4095, false)
    else (min s.cur.ev.slot 4095, s.cur.ev.b == 1)
  let s := cmds.foldl (fun s q => s.unload (s.upJob (p.tileAt q.1) q.2)) s
  cmds.foldl (fun s q =>
    s.shipDown id (if q.2.isRep then .splitters else .collective) q.2.code (s.downJob (p.tileAt q.1) q.2) (flits q) (.tile (p.tileAt q.1)) x.1 x.2) s

/-- A member takes what came down: an exhausted answer is counted against its strand. -/
def State.takeAnswer (s : State) (k : Nat) (c : GroupCmd) : State :=
  let x := s.cargoSlack (s.downJob k c)
  (s.unload (s.downJob k c)).countSpent k c.slot x.2

/-- The outcome of a collective whose members' contributions stand at the root (15 R352, R353): mismatch, a size that does not fit, a buffer
that reads uncorrectable, or the results; from the root those of members on other devices leave for them. -/
def State.formColl (s : State) (id g seq : Nat) (cmds : List (Nat × GroupCmd)) : State :=
  let p := s.part id
  let e := s.cur.ev
  let c := (cmds.head?.map (·.2)).getD ⟨0, .nop, 0, 0, 0, 0, 0, [], 0, 0, 0, 0, 0, 0, 0⟩
  let f := ptrFmt c.buf
  let n := fieldOf c.word 31 8
  let foreign := e.foreign
  let total := cmds.length + foreign.length
  let len := collBytes c.op f n total
  let root := fieldOf c.word 55 32
  let bad := cmds.filter fun q => badRange (s.tile (p.tileAt q.1)).bad (ptrLoc q.2.buf) len
  let unfit := match c.op with
    | .collBcast .. => n % f.granElems != 0 || decide (total ≤ root)
    | .collAllgat .. => n % f.granElems != 0
    | _ => false
  let status : Nat := if clashing cmds || e.a != 0 then 5 else if unfit then 1 else if n != 0 && !bad.isEmpty then 2 else 0
  let bufs := foreign.foldl (fun l q => insertRank q.1 q.2.2 l)
    (cmds.map fun q => (q.1, (s.tile (p.tileAt q.1)).bytes (ptrLoc q.2.buf) len))
  let gop := groupOp ((assoc (s.tile (p.tileAt ((cmds.head?.map (·.1)).getD 0))).core.groups g).getD 0)
  let one (rank : Nat) : Nat × List Byte :=
    let i := (bufs.filter fun b => decide (b.1 < rank)).length
    (rank, (collResult c.op gop f root (spanBytes f n) i (bufs.map (·.2))).2)
  let result := if status = 0 ∧ n ≠ 0 then cmds.map fun q => one q.1 else []
  let away := if status = 0 ∧ n ≠ 0 ∧ p.isRoot then foreign.map fun q => one q.1 else []
  let s := if status = 2 then bad.foldl (fun (s : State) q => s.castAbort (p.tileAt q.1) 0x141) s else s
  let s := s.modPart id fun p => { p with colls := p.colls ++ [⟨g, seq, cmds, foreign, status, result, [], [], false⟩] }
  let s := s.shipAnswers id cmds fun q => ceilDiv ((assoc result q.1).getD []).length 64
  away.foldl (fun s q => s.mailGroup id (p.devs.getD (q.1 / (p.pw * p.ph)) 0) (s.rank p.corner) c.code q.2 c.slack false) s

/-- On whose behalf a command of a group accesses its own tile. -/
def GroupCmd.actor (c : GroupCmd) (k : Nat) : Actor :=
  { tile := k, slot := some c.slot, slack := c.slack, old := [], job := jobOf (if c.isRep then 5 else 4) c.id 0 }

/-- The banks of ranges of some tiles are addressed, as a command reads or writes them. -/
def State.touchAll (s : State) (l : List (Nat × Nat × Nat)) : State := l.foldl (fun s q => s.touchBanks q.1 q.2.1 q.2.2) s

/-- Whether one of some ranges of some tiles lies in a bank that is in retention. -/
def State.anyAsleep (s : State) (l : List (Nat × Nat × Nat)) : Bool := l.any fun q => (s.tile q.1).asleep q.2.1 q.2.2

/-- The bytes of the buffer that a collective names. -/
def State.collLen (s : State) (id : Nat) (c : GroupCmd) : Nat :=
  collBytes c.op (ptrFmt c.buf) (fieldOf c.word 31 8) (s.memberCount (s.part id) (groupOf c.word))

/-- The buffers that the members of a collective name: tile, location and length. -/
def State.collBuffers (s : State) (id : Nat) (cmds : List (Nat × GroupCmd)) : List (Nat × Nat × Nat) :=
  cmds.map fun q => ((s.part id).tileAt q.1, ptrLoc q.2.buf, s.collLen id q.2)

/-- The members of other devices of a round: as many as the group has there, when the event says that they take part. -/
def State.foreignReady (s : State) (p : Part) (g : Nat) : Bool :=
  decide (p.nd ≤ 1) || (s.cur.ev.ok && decide (s.cur.ev.foreign.length = fieldAt p.others (4 * g) 4))

/-- A member's buffer receives its result, and the status word is written. -/
def State.endColl (s : State) (k : Nat) (c : GroupCmd) (r : CollRound) (rank : Nat) : State :=
  let f := ptrFmt c.buf
  let n := fieldOf c.word 31 8
  let seg := spanBytes f n
  let i := ((r.cmds.map (·.1) ++ r.foreign.map (·.1)).filter fun q => decide (q < rank)).length
  let at' := match c.op with
    | .collRedsc .. => seg * i
    | _ => 0
  let l := (assoc r.result rank).getD []
  let s := (s.engPut (c.actor k) c.buf at' l).1
  let status := statusWord c.id r.status 4 (if r.status = 0 then l.length else 0)
  let s := (s.modEng k fun e => { e with collq := e.collq.filter fun q => q.id != c.id }).landX k c.slot c.rd status
  let s := s.takeAnswer k c
  if r.status = 5 then s.mismatch k c.slot 0x125 status else s

/-- The outcome is formed once the contribution of every member stands at the root and the banks of the buffers are awake. -/
def State.tryColl (s : State) (id : Nat) (c : GroupCmd) : State :=
  let p := s.part id
  let g := groupOf c.word
  match s.joined' p g c.seq with
  | none => s
  | some cmds =>
    let bufs := s.collBuffers id cmds
    if !cmds.all (s.atRoot p) || !s.foreignReady p g then s
    else if s.anyAsleep bufs then s.touchAll bufs
    else (s.touchAll bufs).formColl id g c.seq cmds

/-- COLLECTIVE_COMPLETE (15 R354): the event tile's collective of the event's number goes on, in sequence order in its group. Once what the
member did before is performed its contribution leaves for the root; when every member's stands there the outcome is formed; and when the
answer is back at the tile the command completes. For members of other devices `ok` says that they have issued, the bytes bring their
buffers, and `a` whether their descriptors differ. A command whose outcome stands runs on after ABORT (13 R301). -/
def execCollectiveComplete (s : State) : Out :=
  let k := s.cur.ev.tile
  let t := s.tile k
  match t.eng.collq.find? fun c => c.id == s.cur.ev.id, s.partOf k with
  | some c, some id =>
    let g := groupOf c.word
    let p := s.part id
    if !t.engGoesOn || t.eng.collq.any (fun q => groupOf q.word == g && decide (q.seq < c.seq)) then .next s
    else match p.collRound g c.seq with
      | some r => if s.landed (s.downJob k c) then s.engineEnd (c.actor k) (s.begin.endColl k c r (p.fullRank k)) else .next s
      | none =>
        if !t.engRuns then .next s
        else if c.phase = 0 then
          if s.withheld || !s.earlierDone k c.slot c.mark c.fmark [1] then .next s
          else .next (s.shipUp id k c (ceilDiv (s.collLen id c) 64))
        else if c.phase = 1 ∧ p.isRoot = false ∧ s.landed (s.upJob k c) then .next (s.relayUp id k c (t.bytes (ptrLoc c.buf) (s.collLen id c)))
        else .next (s.tryColl id c)
  | _, _ => .next s

end Sys2Proof.Machine
end

