-- ==== Sys2Proof/Machine/Repartition.lean ====
section
/-! DEFINITION. Repartition (16). -/

namespace Sys2Proof.Machine

/-! ### Configuration (16 R356, R357) -/

/-- HILB. -/
def cfgHilb (l : List Byte) : Bool := bitOf (word (fieldAt l 0 8)) 0
/-- D: 3 when DIM3 is set. -/
def cfgD (l : List Byte) : Nat := if bitOf (word (fieldAt l 0 8)) 8 then 3 else 2
/-- UNITW. -/
def cfgUnit (l : List Byte) : Bool := bitOf (word (fieldAt l 0 8)) 16
/-- BITS. -/
def cfgBits (l : List Byte) : Nat := fieldOf (word (fieldAt l 0 8)) 21 17
/-- R: the bytes of a record. -/
def cfgR (l : List Byte) : Nat := 16 * (fieldOf (word (fieldAt l 0 8)) 27 24 + 1)
/-- COFF. -/
def cfgCoff (l : List Byte) : Nat := fieldOf (word (fieldAt l 0 8)) 39 32
/-- WOFF. -/
def cfgWoff (l : List Byte) : Nat := fieldOf (word (fieldAt l 0 8)) 47 40
/-- MIN of an axis. -/
def cfgMin (l : List Byte) (a : Nat) : Num := Format.fp32.decode (fieldAt l (8 + 4 * a) 4)
/-- INV of an axis. -/
def cfgInv (l : List Byte) (a : Nat) : Num := Format.fp32.decode (fieldAt l (0x14 + 4 * a) 4)

/-- Whether a value is finite. -/
def Num.isFinite : Num → Bool
  | .fin .. => true
  | _ => false

/-- Whether a configuration record is refused (16 R357). -/
def cfgBad (l : List Byte) : Bool :=
  let w := word (fieldAt l 0 8)
  let d := cfgD l
  fieldOf w 63 48 != 0 || fieldOf w 31 28 != 0 || fieldOf w 23 22 != 0 || fieldOf w 15 9 != 0 || fieldOf w 7 1 != 0 ||
    (l.drop 32).any (· != 0) || cfgBits l == 0 || decide (21 < cfgBits l) || cfgWoff l % 4 != 0 || cfgCoff l % 4 != 0 ||
    decide (cfgR l < cfgCoff l + 4 * d) || (!cfgUnit l && decide (cfgR l < cfgWoff l + 4)) ||
    (List.range d).any fun a => !(cfgMin l a).isFinite || !(cfgInv l a).isFinite || !Num.lt Num.zero (cfgInv l a)

/-- RPCFG (16 R376): a blocking load of this tile's TLM, behind an earlier atomic of the strand there (07 R151). -/
def execRpcfg (xa : Reg) (s : State) : Out :=
  let k := s.cur.tile
  let w := s.rx xa
  match s.ownCause k s.priv w 64 64 false with
  | some c => if c = 0x04A then .next (s.trapAtIssue c w) else .next (s.trapAfter c w)
  | none =>
    if s.ownOrder (ptrLoc w) 64 then .next s.hold
    else if badRange (s.tile k).bad (ptrLoc w) 64 then .next ((s.castAbort k 0x141).trapAfter 0x141 w)
    else
      let l := (s.tile k).bytes (ptrLoc w) 64
      if cfgBad l then .next (s.trapAtIssue 0x130 (word (fieldAt l 0 4)))
      else .next (((s.touch k s.cur.slot (ptrLoc w) 64).awaitBanks k s.cur.slot (ptrLoc w) 64).modEng k fun e => { e with rpcfg := some l })

/-! ### Keys (16 R358-R360) -/

/-- The floor of a finite value. -/
def numFloor (x : Num) : Int :=
  match x with
  | .fin s m e =>
    let v : Int := if s then -(m : Int) else m
    if 0 ≤ e then v * 2 ^ e.toNat else v.fdiv (2 ^ (-e).toNat)
  | _ => 0

/-- A quantised coordinate. -/
def quantise (l : List Byte) (a : Nat) (c : Num) : Nat :=
  let top : Nat := 2 ^ cfgBits l - 1
  match c with
  | .nan => 0
  | .inf s => if s then 0 else top
  | .fin .. => min top (numFloor ((c.add (cfgMin l a).neg).mul (cfgInv l a))).toNat

/-- One bit of the Hilbert transform's first loop, on all axes. -/
def hilbertStep (q : Nat) (t : List Nat) : List Nat :=
  (List.range t.length).foldl (fun t a =>
    let t0 := t.getD 0 0
    let ta := t.getD a 0
    if ta &&& q ≠ 0 then t.set 0 (t0 ^^^ (q - 1))
    else
      let u := (t0 ^^^ ta) &&& (q - 1)
      let t := t.set 0 (t0 ^^^ u)
      t.set a (t.getD a 0 ^^^ u)) t

/-- HilbertTransform (16 R359). -/
def hilbert (b : Nat) (t : List Nat) : List Nat :=
  let qs := ((List.range b).tail.map fun i => 2 ^ i).reverse
  let t := qs.foldl (fun t q => hilbertStep q t) t
  let t := (List.range t.length).tail.foldl (fun t a => t.set a (t.getD a 0 ^^^ t.getD (a - 1) 0)) t
  let last := t.getD (t.length - 1) 0
  let u := qs.foldl (fun u q => if last &&& q ≠ 0 then u ^^^ (q - 1) else u) 0
  t.map fun v => v ^^^ u

/-- The key of transformed coordinates: bit j of axis a becomes bit D j + (D - 1 - a). -/
def interleave (b : Nat) (t : List Nat) : Nat :=
  let d := t.length
  ((List.range b).flatMap fun j => (List.range d).map fun a => (t.getD a 0 >>> j) % 2 * 2 ^ (d * j + (d - 1 - a))).foldl (· + ·) 0

/-- The key of a record. -/
def itemKey (l rec : List Byte) : Nat :=
  let q := (List.range (cfgD l)).map fun a => quantise l a (Format.fp32.decode (fieldAt rec (cfgCoff l + 4 * a) 4))
  interleave (cfgBits l) (if cfgHilb l then hilbert (cfgBits l) q else q)

/-- k24 of a key. -/
def splitKey (l : List Byte) (key : Nat) : Nat :=
  let kw := cfgD l * cfgBits l
  if 24 ≤ kw then key >>> (kw - 24) else key <<< (24 - kw)

/-- The weight of a record. -/
def itemWeight (l rec : List Byte) : Nat := if cfgUnit l then 1 else fieldAt rec (cfgWoff l) 4

/-- An item on its way: its source member and index, its key, its weight and its bytes. -/
structure Item where
  src    : Nat
  idx    : Nat
  key    : Nat
  k24    : Nat
  weight : Nat
  bytes  : List Byte
  deriving DecidableEq, Repr

/-- The items of a buffer. -/
def itemsOf (l : List Byte) (src : Nat) (buf : List Byte) : List Item :=
  (List.range (buf.length / cfgR l)).map fun i =>
    let rec' := (buf.drop (i * cfgR l)).take (cfgR l)
    let key := itemKey l rec'
    ⟨src, i, key, splitKey l key, itemWeight l rec', rec'⟩

/-! ### Splitters (16 R364-R366) -/

/-- The weight of the items whose split key lies below a bound. -/
def weightBelow (items : List Item) (bound : Nat) : Nat :=
  (items.filterMap fun i => if i.k24 < bound then some i.weight else none).foldl (· + ·) 0

/-- The global histogram (16 R364): the weight of each bucket that holds items, ascending by bucket. -/
def histogram (items : List Item) : List (Nat × Nat) :=
  items.foldl (fun h i => assocPut h (i.k24 / 4096) ((assoc h (i.k24 / 4096)).getD 0 + i.weight)) []

/-- The smallest of some ascending candidate bounds at which the weight below reaches a target; `last` where none does. -/
def firstReaching (items : List Item) (target last : Nat) : List Nat → Nat
  | [] => last
  | c :: l => if target ≤ weightBelow items c then c else firstReaching items target last l

/-- b_i: the smallest c in 0 to 4,096 with C(c) ≥ T. It is 0, or ends a bucket that holds items. -/
def bucketBound (items : List Item) (h : List (Nat × Nat)) (target : Nat) : Nat :=
  firstReaching items target (4096 * 4096) (0 :: h.map fun q => 4096 * (q.1 + 1)) / 4096

/-- The boundary buckets that are refined (16 R366). -/
def refinedBuckets (bs : List Nat) : List Nat :=
  ((bs.filterMap fun b => if b = 0 then none else some (b - 1)).foldl insertNat []).take 16

/-- The candidate splitters inside a bucket: one past each split key that stands there, and the bucket's end. -/
def innerBounds (items : List Item) (b : Nat) : List Nat :=
  ((items.filterMap fun i => if i.k24 / 4096 = b then some (i.k24 + 1) else none).foldl insertNat [4096 * b + 1]).foldl insertNat
    [4096 * (b + 1)]

/-- The splitters s_0 to s_P (16 R365, R366). -/
def splitters (items : List Item) (p : Nat) (fine : Bool) : List Nat :=
  let w : Nat := (items.map (·.weight)).foldl (· + ·) 0
  let h := histogram items
  let target (i : Nat) : Nat := ceilDiv (i * w) p
  let bs := (List.range p).tail.map fun i => bucketBound items h (target i)
  let fined := if fine then refinedBuckets bs else []
  let inner := (List.range p).tail.map fun i =>
    let b := bs.getD (i - 1) 0
    if b ≠ 0 ∧ fined.contains (b - 1) then firstReaching items (target i) (4096 * b) (innerBounds items (b - 1))
    else 4096 * b
  0 :: inner ++ [2 ^ 24]

/-- The member that owns a split key. -/
def ownerOf (s : List Nat) (k24 : Nat) : Nat :=
  ((List.range (s.length - 1)).find? fun i => decide (s.getD i 0 ≤ k24) && decide (k24 < s.getD (i + 1) 0)).getD 0

/-! ### Moving (16 R367, R368) -/

/-- Insert by ascending key, behind equal keys. -/
def insertItem (i : Item) : List Item → List Item
  | [] => [i]
  | j :: l => if i.key < j.key then i :: j :: l else j :: insertItem i l

/-- Items in ascending order of their keys; ties keep their order. -/
def sortItems (l : List Item) : List Item := l.foldl (fun r i => insertItem i r) []

/-- What an owner accepts and refuses of its canonical sequence. -/
def acceptItems (cap : Nat) (l : List Item) : List Item × List Item := (l.take cap, l.drop cap)

/-! ### Issue (16 R361-R363) -/

/-- Whether a buffer pointer breaks the conditions of R361. -/
def rpPointerBad (k : Nat) (w : Word) : Bool := !ownTlm k w || fieldOf w 63 57 != 0 || ptrLoc w % 16 != 0

/-- The checks of RPGO in their order (16 R362). -/
def State.rpCause (s : State) (k : Nat) (a b w : Word) : Option (Nat × Word) :=
  match (s.tile k).eng.rpcfg with
  | none => some (0x131, 0)
  | some l =>
    let inLen := fieldOf w 31 8 * cfgR l
    let outLen := fieldOf w 55 32 * cfgR l
    if fieldOf w 63 56 ≠ 0 ∨ bitOf w 7 then some (0x132, w)
    else if (s.activeGroup k (groupOf w)).isNone then some (0x121, w)
    else match s.pointerCause a, s.pointerCause b with
      | some c, _ => some (c, a)
      | _, some c => some (c, b)
      | none, none =>
        if rpPointerBad k a then some (0x132, a)
        else if rpPointerBad k b then some (0x132, b)
        else if inLen ≠ 0 ∧ outLen ≠ 0 ∧ overlaps (ptrLoc a) inLen (ptrLoc b) outLen then some (0x132, b)
        else if 0x80000 < ptrLoc a + inLen then some (0x046, a)
        else if 0x80000 < ptrLoc b + outLen then some (0x046, b)
        else if inLen ≠ 0 ∧ tlmMay s.priv true (ptrLoc a) inLen = false then some (0x064, a)
        else if outLen ≠ 0 ∧ tlmMay s.priv true (ptrLoc b) outLen = false then some (0x064, b)
        else none

/-- RPGO and RPGO.fine at issue. -/
def State.rpgo (s : State) (op : Instr) (xd : Reg) (a b w : Word) (kc : SlackReg) : State :=
  let k := s.cur.tile
  if 4 ≤ (s.tile k).eng.repq.length then s.hold
  else match s.rpCause k a b w with
    | some (c, v) => s.trapAtIssue c v
    | none =>
      let (seq, s) := s.nextSeq k (groupOf w)
      let l := (s.tile k).eng.rpcfg.getD []
      let c : GroupCmd :=
        { id := (s.tile k).eng.rcc, op := op, slot := s.cur.slot, rd := xd, word := w, buf := a, out := b, cfg := l, seq := seq,
          priv := s.priv, slack := s.slackOf kc, issued := s.gclk, mark := s.nextReq,
          fmark := s.me.fenced, phase := 0 }
      let s := s.modEng k fun e => { e with rcc := (e.rcc + 1) % 2 ^ 64, repq := e.repq ++ [c] }
      let touch (s : State) (w : Word) (n : Nat) : State := if n = 0 then s else s.touch k s.cur.slot (ptrLoc w) n
      (touch (touch s a (fieldOf w 31 8 * cfgR l)) b (fieldOf w 55 32 * cfgR l)).markX xd

/-- RPGO. -/
def execRpgo (xd : Reg) (xa : RegPair) (xb : Reg) (k : SlackReg) (s : State) : Out :=
  .next (s.rpgo (.rpgo xd xa xb k) xd (s.rx xa.even) (s.rx xa.odd) (s.rx xb) k)

/-- RPGO.fine. -/
def execRpgoFine (xd : Reg) (xa : RegPair) (xb : Reg) (k : SlackReg) (s : State) : Out :=
  .next (s.rpgo (.rpgoFine xd xa xb k) xd (s.rx xa.even) (s.rx xa.odd) (s.rx xb) k)

/-- RPSTAT (16 R377). -/
def execRpstat (xd xa : Reg) (s : State) : Out :=
  let r := (s.tile s.cur.tile).eng.rpstat
  let v : Option Nat :=
    match fieldOf (s.rx xa) 2 0 with
    | 0 => some (r.kept * 2 ^ 32 + r.recv)
    | 1 => some (r.refin * 2 ^ 32 + r.refused)
    | 2 => some (r.hi * 2 ^ 32 + r.lo)
    | 3 => some r.total
    | 4 => some (r.p * 2 ^ 32 + r.i)
    | _ => none
  match v with
  | some n => .next (s.putX 1 xd (word n))
  | none => .next (s.trapAtIssue 0x134 (s.rx xa))

/-! ### The operation (16 R363-R370) -/

/-- The first command of a tile's repartition queue. -/
def State.repHead (s : State) (k : Nat) : Option GroupCmd := (s.tile k).eng.repq.head?

/-- Whether an instruction is RPGO.fine. -/
def isFine (op : Instr) : Bool :=
  match op with
  | .rpgoFine .. => true
  | _ => false

/-- The bytes of a command's input. -/
def GroupCmd.inLen (c : GroupCmd) : Nat := fieldOf c.word 31 8 * cfgR c.cfg

/-- The bytes of a command's output buffer. -/
def GroupCmd.outLen (c : GroupCmd) : Nat := fieldOf c.word 55 32 * cfgR c.cfg

/-- The input buffers of the members of a round: tile, location and length. -/
def Part.rpInputs (p : Part) (cmds : List (Nat × GroupCmd)) : List (Nat × Nat × Nat) :=
  cmds.map fun q => (p.tileAt q.1, ptrLoc q.2.buf, q.2.inLen)

/-- The members whose input reads uncorrectable (16 R370). -/
def State.badInputs (s : State) (p : Part) (cmds : List (Nat × GroupCmd)) : List (Nat × GroupCmd) :=
  cmds.filter fun q => q.2.inLen != 0 && badRange (s.tile (p.tileAt q.1)).bad (ptrLoc q.2.buf) q.2.inLen

/-- Each of those members' tiles votes abort (16 R370). -/
def State.voteInputs (s : State) (p : Part) (l : List (Nat × GroupCmd)) : State :=
  l.foldl (fun (s : State) q => s.castAbort (p.tileAt q.1) 0x141) s

/-- Every item of a round in canonical order: by rank of the source, then by index. -/
def State.roundItems (s : State) (p : Part) (cmds : List (Nat × GroupCmd)) (foreign : List (Nat × Nat × List Byte)) (cfg : List Byte) :
    List Item :=
  let bufs := foreign.foldl (fun l q => insertRank q.1 q.2.2 l)
    (cmds.map fun q => (q.1, (s.tile (p.tileAt q.1)).bytes (ptrLoc q.2.buf) q.2.inLen))
  bufs.flatMap fun q => itemsOf cfg q.1 q.2

/-- A member's histogram of its items' weights (16 R364), as the packets of its contribution hold it. -/
def State.histogramBytes (s : State) (k : Nat) (c : GroupCmd) : List Byte :=
  let h := histogram (itemsOf c.cfg 0 ((s.tile k).bytes (ptrLoc c.buf) c.inLen))
  (List.range 4096).flatMap fun b => toBytes 8 ((assoc h b).getD 0)

/-- REPARTITION_START (16 R364): the event tile's first repartition command starts, once the strand's earlier accesses are
performed: its histogram of 4,096 counts leaves for the root, and from a device root below the partition root for the device above. -/
def execRepartitionStart (s : State) : Out :=
  let k := s.cur.ev.tile
  match s.repHead k, s.partOf k with
  | some c, some id =>
    if c.phase = 0 then
      if s.withheld || !(s.tile k).engRuns || !s.earlierDone k c.slot c.mark c.fmark [1] then .next s
      else if (s.tile k).asleep (ptrLoc c.buf) c.inLen then .next (s.touchBanks k (ptrLoc c.buf) c.inLen)
      else .next ((s.touchBanks k (ptrLoc c.buf) c.inLen).shipUp id k c 512)
    else if c.phase = 1 ∧ (s.part id).isRoot = false ∧ s.landed (s.upJob k c) then .next (s.relayUp id k c (s.histogramBytes k c))
    else .next s
  | _, _ => .next s

/-- REPARTITION_HISTOGRAM_RESULT (16 R364, R369): the contribution of every member of the event tile's first command stands at the root (`ok`
says so of those on other devices, whose ranks, capacities and items the event's bytes bring; `a` that their descriptors differ, `b` from 2
on that the IN of one of them is uncorrectable); the outcome is formed and goes to every member with the reduced histogram. -/
def execRepartitionHistogramResult (s : State) : Out :=
  let k := s.cur.ev.tile
  let e := s.cur.ev
  match s.repHead k, s.partOf k with
  | some c, some id =>
    let p := s.part id
    let g := groupOf c.word
    match s.joined' p g c.seq, p.collRound g c.seq with
    | some cmds, none =>
      let clash := clashing cmds || e.a != 0
      let ins := p.rpInputs cmds
      if !cmds.all (s.atRoot p) || !(s.tile k).engGoesOn || !s.foreignReady p g then .next s
      else if !clash && s.anyAsleep ins then .next (s.touchAll ins)
      else
        let bad := s.badInputs p cmds
        let items := if clash then [] else s.roundItems p cmds e.foreign c.cfg
        let h := histogram items
        let total : Nat := (items.map (·.weight)).foldl (· + ·) 0
        let status : Nat := if clash then 5 else if !bad.isEmpty || (decide (1 < p.nd) && decide (2 ≤ e.b)) then 2
          else if h.any (fun q => decide (2 ^ 64 ≤ q.2)) || decide (2 ^ 64 ≤ total) then 1 else 0
        let s := if status = 2 then s.voteInputs p bad else s
        let s := if clash then s else s.touchAll ins
        let s := s.modPart id fun p =>
          { p with colls := p.colls ++ [⟨g, c.seq, cmds, e.foreign, status, [], [], [], status != 0⟩] }
        .next (s.shipAnswers id cmds fun _ => if status = 0 then 512 else 1)
    | _, _ => .next s
  | _, _ => .next s

/-- What every owner of a round receives, by its place among the members: the items that it accepts and those that it refuses. -/
def ownerShares (items : List Item) (caps : List (Nat × Nat)) (sp : List Nat) (total : Nat) : List (List Item × List Item) :=
  let n := caps.length
  (List.range n).map fun i =>
    acceptItems ((caps.getD i (0, 0)).2) (items.filter fun j => (if total = 0 then n - 1 else ownerOf sp j.k24) == i)

/-- The capacities of a round's members by rank. -/
def CollRound.caps (r : CollRound) : List (Nat × Nat) :=
  r.foreign.foldl (fun l q => insertRank q.1 q.2.1 l) (r.cmds.map fun q => (q.1, fieldOf q.2.word 55 32))

/-- The shares of a round's owners, its splitters and its total weight (16 R365-R367). -/
def State.roundShares (s : State) (p : Part) (r : CollRound) (c : GroupCmd) : List (List Item × List Item) × List Nat × Nat :=
  let items := s.roundItems p r.cmds r.foreign c.cfg
  let sp := splitters items r.caps.length (isFine c.op)
  let total : Nat := (items.map (·.weight)).foldl (· + ·) 0
  (ownerShares items r.caps sp total, sp, total)

/-- Every member's outcome once the items move (16 R365-R368). -/
def State.moveItems (s : State) (p : Part) (r : CollRound) (c : GroupCmd) : CollRound :=
  let (split, sp, total) := s.roundShares p r c
  let refusedOf (rank : Nat) : List Item := (split.flatMap (·.2)).filter fun j => j.src == rank
  let excess := split.any fun q => !q.2.isEmpty
  let one (q : Nat × GroupCmd) : Nat := (r.caps.filter fun m => decide (m.1 < q.1)).length
  let byIdx (l : List Item) : List Item := sortBy Item.idx l
  { r with
    status := if excess then 4 else 0
    result := r.cmds.map fun q =>
      let l := (split.getD (one q) ([], [])).1
      (q.1, (if bitOf q.2.word 6 then sortItems l else l).flatMap (·.bytes))
    refused := r.cmds.map fun q => (q.1, (byIdx (refusedOf q.1)).flatMap (·.bytes))
    stats := r.cmds.map fun q =>
      let i := one q
      let got := split.getD i ([], [])
      (q.1, ⟨(got.1.filter fun j => j.src == q.1).length, got.1.length, got.2.length, (refusedOf q.1).length, sp.getD i 0, sp.getD (i + 1) 0,
        total, r.caps.length, i⟩)
    moved := true }

/-- The number of the item packets that are bound for a tile's command as an owner. -/
def State.itemsJob (s : State) (k : Nat) (c : GroupCmd) : Nat := groupJob 7 (s.rank k) c.id

/-- A member's items leave for their owners (16 R367, R372), with the slack that is left of its class; an owner's own items need no packet. -/
def State.sendItems (s : State) (id : Nat) (r : CollRound) (shares : List (List Item × List Item)) (m : Nat × GroupCmd) : State :=
  let p := s.part id
  let k := p.tileAt m.1
  let slack := m.2.slack - (s.gclk - m.2.issued)
  let bytesFor (i : Nat) : List Byte := (((shares.getD i ([], [])).1 ++ (shares.getD i ([], [])).2).filter fun j => j.src == m.1).flatMap (·.bytes)
  (List.range r.caps.length).foldl (fun s i =>
    let owner := (r.caps.getD i (0, 0)).1
    if owner = m.1 ∨ bytesFor i = [] then s
    else match r.cmds.find? fun q => q.1 == owner with
      | some q => s.ship k .items m.2.code (s.itemsJob (p.tileAt owner) q.2) (ceilDiv (bytesFor i).length 64) (.tile (p.tileAt owner)) slack (some m.2.slot)
      | none => s.mailGroup id (p.devs.getD (owner / (p.pw * p.ph)) 0) (s.rank k) m.2.code (bytesFor i) slack false) s

/-- The move starts (16 R367, R370): every member has the histogram; its share is fixed and its items leave, or a read of some IN is
uncorrectable. -/
def State.startMove (s : State) (id : Nat) (r : CollRound) (c : GroupCmd) : State × CollRound :=
  let p := s.part id
  let s := r.cmds.foldl (fun s q => s.takeAnswer (p.tileAt q.1) q.2) s
  let bad := s.badInputs p r.cmds
  if !bad.isEmpty then (s.voteInputs p bad, { r with status := 2, moved := true })
  else
    let shares := (s.roundShares p r c).1
    (r.cmds.foldl (fun s q => s.sendItems id r shares q) s, s.moveItems p r c)

/-- REPARTITION_ITEM_ARRIVAL (16 R367, R368): the first such step of a round starts the move, once every member of this device has the
histogram. After it, when all items bound for the event tile as an owner have come (`ok` says so of those from other devices), its OUT
receives those that it accepts and the front of its IN its own refused ones. -/
def execRepartitionItemArrival (s : State) : Out :=
  let k := s.cur.ev.tile
  match s.repHead k, s.partOf k with
  | some c, some id =>
    let p := s.part id
    let g := groupOf c.word
    match p.collRound g c.seq with
    | none => .next s
    | some r =>
      if c.phase = 0 ∨ c.phase = 3 ∨ !(s.tile k).engGoesOn ∨ (r.status ≠ 0 ∧ r.status ≠ 4) then .next s
      else if !r.moved then
        let ins := p.rpInputs r.cmds
        if !r.cmds.all fun q => s.landed (s.downJob (p.tileAt q.1) q.2) then .next s
        else if s.anyAsleep ins then .next (s.touchAll ins)
        else
          let (s1, r') := (s.touchAll ins).startMove id r c
          .next (s1.modPart id fun p => { p with colls := updateWhere p.colls (fun q => q.group == g && q.seq == c.seq) fun _ => r' })
      else if !s.landed (s.itemsJob k c) || !(decide (p.nd ≤ 1) || s.cur.ev.ok) then .next s
      else
        let rank := p.fullRank k
        let s1 := (s.begin.engPut (c.actor k) c.out 0 ((assoc r.result rank).getD [])).1
        let s1 := (s1.engPut (c.actor k) c.buf 0 ((assoc r.refused rank).getD [])).1
        s.engineEnd (c.actor k) (((s1.countCargo (s.itemsJob k c)).unload (s.itemsJob k c)).setGroupPhase k c 3)
  | _, _ => .next s

/-- The status word of a repartition: COUNT is RECV. -/
def GroupCmd.repStatus (c : GroupCmd) (r : CollRound) (rank : Nat) : Word :=
  statusWord c.id r.status 5 (if r.status = 0 ∨ r.status = 4 then ((assoc r.stats rank).getD RepStat.zero).recv else 0)

/-- Whether IN and OUT of every member of a round hold their new contents, so that a status may be written (16 R371): on this device a
member's command has moved its items or is over. -/
def State.membersMoved (s : State) (p : Part) (r : CollRound) : Bool :=
  r.cmds.all fun q => match s.repHead (p.tileAt q.1) with
    | some c => c.id != q.2.id || c.phase == 3
    | none => true

/-- REPARTITION_COMPLETE (16 R368-R371): the event tile's first command ends once every member has its items (`ok` says so of those on other
devices), or at once where none move and its answer is back: RPSTAT is recorded and the status word written. -/
def execRepartitionComplete (s : State) : Out :=
  let k := s.cur.ev.tile
  match s.repHead k, s.partOf k with
  | some c, some id =>
    let p := s.part id
    let rank := p.fullRank k
    match p.collRound (groupOf c.word) c.seq with
    | none => .next s
    | some r =>
      let good := r.status = 0 ∨ r.status = 4
      if !(s.tile k).engGoesOn ∨ s.landed (s.downJob k c) = false ∨
          (good ∧ (c.phase ≠ 3 ∨ s.membersMoved p r = false ∨ (1 < p.nd ∧ s.cur.ev.ok = false))) then .next s
      else
        let status := c.repStatus r rank
        let s1 := s.takeAnswer k c
        let s1 := if good then s1.modEng k fun e => { e with rpstat := (assoc r.stats rank).getD RepStat.zero } else s1
        let s1 := (s1.modEng k fun e => { e with repq := e.repq.tail }).landX k c.slot c.rd status
        .next (if r.status = 5 then s1.mismatch k c.slot 0x133 status else s1)
  | _, _ => .next s

end Sys2Proof.Machine
end

