-- ==== Sys2Proof/Machine/VectorOps.lean ====
section
/-! DEFINITION. The vector engine: the control word, operands, narrowing, and what each command computes (12). -/

namespace Sys2Proof.Machine

/-! ### The control word (12 Table 12.1) -/

/-- N. -/
def vecN (w : Word) : Nat := fieldOf w 31 0
/-- RM. -/
def vecRm (w : Word) : Nat := fieldOf w 34 32
/-- SAT. -/
def vecSat (w : Word) : Bool := bitOf w 35
/-- SC. -/
def vecSc (w : Word) : SlackReg := BitVec.ofNat 3 (fieldOf w 38 36)
/-- MSK. -/
def vecMsk (w : Word) : Bool := bitOf w 39
/-- MOFF. -/
def vecMoff (w : Word) : Nat := fieldOf w 58 40

/-- The rounding mode of RM. -/
def vecRnd (w : Word) : Rnd := if vecRm w = 1 then .rz else if vecRm w = 2 then .sr else .rn

/-! ### Exact operations (05 R104, R105, 12 R270) -/

/-- The integer that an exact value is, if it is one. -/
def Num.int? : Num → Option Int
  | .fin s m e =>
    let mag : Option Nat := if 0 ≤ e then some (m <<< e.toNat) else if m % 2 ^ (-e).toNat = 0 then some (m >>> (-e).toNat) else none
    mag.map fun n => if s then -(n : Int) else n
  | _ => none

/-- The smaller of two values under R105. -/
def Num.minOf (x y : Num) : Num := if x.isNaN then y else if y.isNaN then x else if Num.below y x then y else x

/-- The larger of two values under R105. -/
def Num.maxOf (x y : Num) : Num := if x.isNaN then y else if y.isNaN then x else if Num.below x y then y else x

/-- 1 ÷ √x, to at least 190 significant bits with a sticky bit below them (12 R270). -/
def Num.rsqrt : Num → Num
  | .nan => .nan
  | .inf s => if s then .nan else .fin false 0 0
  | .fin s m e =>
    if m = 0 then .inf s
    else if s then .nan
    else
      let odd := (e % 2).toNat
      let m := m <<< odd
      let e := e - odd
      let k := 256 + Nat.log2 m
      let r := isqrt (2 ^ (2 * k) / m)
      .fin false (2 * r + (if r * r * m = 2 ^ (2 * k) then 0 else 1)) (-(e / 2) - k - 1)

/-- Bits of the fixed-point fractions that bound 2^f. -/
def exp2Bits : Nat := 256

/-- Bounds of 2^f for a fraction given by its bits, highest first: each factor 2^(2^-i) is bounded by square roots. -/
def exp2Loop : List Bool → Nat → Nat → Nat × Nat → Nat × Nat
  | [], _, _, r => r
  | b :: l, lo, hi, r =>
    let lo := isqrt (lo <<< exp2Bits)
    let hi := isqrt (hi <<< exp2Bits) + 1
    exp2Loop l lo hi (if b then ((r.1 * lo) >>> exp2Bits, ((r.2 * hi) >>> exp2Bits) + 1) else r)

/-- Bounds of 2^(n / 2^j). -/
def exp2Frac (n j : Nat) : Nat × Nat :=
  exp2Loop ((List.range j).map fun i => n.testBit (j - 1 - i)) (2 <<< exp2Bits) (2 <<< exp2Bits)
    (1 <<< exp2Bits, 1 <<< exp2Bits)

/-- An exponent beyond every format, held to a size. -/
def clampExp (n : Int) : Int := max (-4096) (min 4096 n)

/-! ### Narrow (12 R261) -/

/-- Narrow with its parameters: format, mode, sat and random word. -/
def narrowTo (f : Format) (mode : Rnd) (sat : Bool) (rw : Nat) (v : Num) : Nat :=
  match f.float? with
  | some p => p.round v mode sat rw
  | none =>
    match sat, v.int? with
    | false, some n => encodeInt (wrap n f) f
    | _, _ => encodeInt (roundToInt v f mode rw) f

/-- A value that is not an integer and lies between two others narrows to what both narrow to. -/
def narrowBetween (f : Format) (sat : Bool) (lo hi : Num) (other : Nat) : Nat :=
  let n (v : Num) : Nat := match f.float? with
    | some p => p.round v .rn sat 0
    | none => encodeInt (roundToInt v f .rn 0) f
  if n lo = n hi then n lo else other % 2 ^ f.bits

/-- VEXP2 (12 R270): a result that the bounds do not decide is free (log entry 6). -/
def exp2To (f : Format) (sat : Bool) (x : Num) : Nat :=
  match x with
  | .nan => narrowTo f .rn sat 0 .nan
  | .inf s => narrowTo f .rn sat 0 (if s then .zero else .inf false)
  | .fin s m e =>
    match x.int? with
    | some n => narrowTo f .rn sat 0 (.fin false 1 (clampExp n))
    | none =>
      let j := (-e).toNat
      let v : Int := if s then -(m : Int) else m
      let r := exp2Frac (v % (2 ^ j : Nat)).toNat j
      let ip := clampExp (v / (2 ^ j : Nat)) - exp2Bits
      narrowBetween f sat (.fin false r.1 ip) (.fin false r.2 ip) (Config.freeRound f.code (if s then 2 * m + 1 else 2 * m) e)

/-- A value of magnitude 2^128 or more as the infinity of its sign (12 R269). -/
def Num.bounded (x : Num) : Num :=
  match x with
  | .fin s m e => if m ≠ 0 ∧ 128 ≤ (Nat.log2 m : Int) + e then .inf s else x
  | y => y

/-! ### Accesses of a command (12 R260, R262, R264) -/

/-- Go on with a value, or keep the fault. -/
def andThen {α β : Type} (p : State × Except Nat α) (f : State → α → State × Except Nat β) : State × Except Nat β :=
  match p with
  | (s, .ok a) => f s a
  | (s, .error e) => (s, .error e)

/-- Where element `i` of `width` bits lies: its first byte from the location, the bit in it, and the bytes it touches. -/
def bitPlace (width : Nat) (i : Int) : Int × Nat × Nat :=
  let b := i * width
  (b / 8, (b % 8).toNat, ((b % 8).toNat + width + 7) / 8)

/-- Whether bytes at an offset of a pointer lie beyond its space, or in TLM that R136 denies. -/
def placeCause (priv : Nat) (p : Word) (off : Int) (n : Nat) (write : Bool) : Option Nat :=
  if (ptrLoc p : Int) + off < 0 ∨ (locLimit (ptrSpace p) : Int) < ptrLoc p + off + n then some 0x046
  else if ptrSpace p == 1 && !tlmMay priv write ((ptrLoc p : Int) + off).toNat n then some 0x064
  else none

/-- Read bytes at an offset of a pointer. -/
def State.vecBytes (s : State) (w : Actor) (priv : Nat) (p : Word) (off : Int) (n : Nat) :
    State × Except Nat (List Byte) :=
  match placeCause priv p off n false with
  | some c => (s, .error c)
  | none =>
    match s.engGet w (ptrMove p off) 0 n with
    | (s, .data l) => (s, .ok l)
    | (s, .fault c) => (s, .error c)
    | (s, _) => (s, .error 0x060)

/-- The bits of element `i` of an operand. -/
def State.vecBits (s : State) (w : Actor) (priv : Nat) (p : Word) (width : Nat) (i : Int) :
    State × Except Nat Nat :=
  let (off, sh, n) := bitPlace width i
  andThen (s.vecBytes w priv p off n) fun s l => (s, .ok ((ofBytes l >>> sh) % 2 ^ width))

/-- The exact value of element `i` of an operand with its scale (04 R76). -/
def State.vecElem (s : State) (w : Actor) (priv : Nat) (p q : Word) (i : Int) : State × Except Nat Num :=
  let f := ptrFmt p
  andThen (s.vecBits w priv p f.bits i) fun s v =>
    if ptrBlk p = 0 then (s, .ok (f.decode v))
    else andThen (s.vecBytes w priv q (i / (2 ^ (ptrBlk p + 2) : Nat)) 1) fun s l =>
      (s, .ok (applyScale (f.decode v) (l.headD 0)))

/-- The first of two elements that were not completed. -/
def firstBad (bad : Option Nat) (i : Nat) : Option Nat :=
  match bad with
  | some j => some (min i j)
  | none => some i

/-- Write element `i` of an operand: whole bytes, or by read-modify-write of the bytes that it shares. -/
def State.vecPut (s : State) (w : Actor) (priv : Nat) (p : Word) (width : Nat) (i : Int) (v : Nat) :
    State × Except Nat Unit :=
  let (off, sh, n) := bitPlace width i
  match placeCause priv p off n true with
  | some c => (s, .error c)
  | none =>
    andThen (if width % 8 = 0 then (s, .ok []) else s.vecBytes w priv p off n) fun s l =>
      let was := ofBytes l
      let field := (was >>> sh) % 2 ^ width
      let new := was - (field <<< sh) + ((v % 2 ^ width) <<< sh)
      match s.engPut w (ptrMove p off) 0 (toBytes n new) with
      | (s, .fault c, _) => (s, .error c)
      | (s, _) => (s, .ok ())

/-- A destination byte that a command writes: its offset from the location, the bits that are written, and the element that they begin. -/
structure VecByte where
  off  : Int
  mask : Nat
  val  : Nat
  elem : Nat

/-- The bytes of elements at ascending places, each byte once. -/
def vecByteList (width : Nat) (outs : List (Nat × Int × Nat)) : List VecByte :=
  (outs.foldl (fun (l : List VecByte) o =>
    let (off, sh, n) := bitPlace width o.2.1
    (List.range n).foldl (fun l j =>
      let m := ((2 ^ width - 1) <<< sh) >>> (8 * j) % 256
      let v := ((o.2.2 % 2 ^ width) <<< sh) >>> (8 * j) % 256
      match l with
      | x :: rest => if x.off = off + j then { x with mask := x.mask ||| m, val := x.val ||| v } :: rest else ⟨off + j, m, v, o.1⟩ :: l
      | [] => [⟨off + j, m, v, o.1⟩]) l) []).reverse

/-- The bytes that only in part belong to written elements are read and merged (12 R262); a byte that cannot be read is left out. -/
def State.vecMerge (w : Actor) (priv : Nat) (p : Word) : List VecByte → State → Option Nat → State × List VecByte × Option Nat
  | [], s, bad => (s, [], bad)
  | x :: l, s, bad =>
    if x.mask = 255 then
      let r := State.vecMerge w priv p l s bad
      (r.1, x :: r.2.1, r.2.2)
    else match s.vecBytes w priv p x.off 1 with
      | (s, .ok was) =>
        let r := State.vecMerge w priv p l s bad
        (r.1, { x with val := (ofBytes was &&& (255 - x.mask)) ||| x.val } :: r.2.1, r.2.2)
      | (s, .error e) => State.vecMerge w priv p l (s.copyFault w.tile e) (firstBad bad x.elem)

/-- The leading bytes that lie one after another in one 64-byte line of memory. -/
def vecRun1 (loc : Int) : VecByte → List VecByte → List VecByte
  | x, [] => [x]
  | x, y :: l => if y.off = x.off + 1 ∧ (loc + y.off) % 64 ≠ 0 then x :: vecRun1 loc y l else [x]

/-- Write bytes in runs of up to a line, each run a write of its own (10 R218): answers the first element that was not completed. A run that
begins at that element or beyond it may or may not be written (12 R264). -/
def State.vecWriteRuns (w : Actor) (priv id : Nat) (p : Word) : Nat → List VecByte → State → Option Nat → State × Option Nat
  | 0, _, s, bad => (s, bad)
  | _, [], s, bad => (s, bad)
  | fuel + 1, x :: l, s, bad =>
    let run := vecRun1 (ptrLoc p) x l
    let rest := (x :: l).drop run.length
    if (match bad with | some i => decide (i ≤ x.elem) | none => false) && s.skips w.tile 3 id x.elem then State.vecWriteRuns w priv id p fuel rest s bad
    else
      match placeCause priv p x.off run.length true with
      | some e => State.vecWriteRuns w priv id p fuel rest (s.copyFault w.tile e) (firstBad bad x.elem)
      | none =>
        let at' := ptrMove p x.off
        let part := s.writtenPart w.tile at' run.length
        match s.engPut w at' 0 (run.map fun y => BitVec.ofNat 8 y.val) with
        | (s, .fault e, n) =>
          State.vecWriteRuns w priv id p fuel rest (s.copyFault w.tile e) (firstBad bad ((run[max n part]?).getD x).elem)
        | (s, _) => State.vecWriteRuns w priv id p fuel rest s bad

/-- Write elements at ascending places of an operand. -/
def State.vecPutAll (s : State) (w : Actor) (priv id : Nat) (p : Word) (width : Nat) (outs : List (Nat × Int × Nat)) (bad : Option Nat) :
    State × Option Nat :=
  let r := State.vecMerge w priv p (vecByteList width outs) s bad
  State.vecWriteRuns w priv id p r.2.1.length r.2.1 r.1 r.2.2

/-- Whether element `i` is active (12 R262). -/
def State.vecActive (s : State) (k : Nat) (c : Cmd) (i : Nat) : State × Except Nat Bool :=
  if !vecMsk c.ctl then (s, .ok true)
  else
    let a := vecMoff c.ctl + i / 8
    if badRange (s.tile k).bad a 1 then (s, .error 0x141) else (s, .ok (((s.tile k).byte a).getLsbD (i % 8)))

/-! ### One element of a command -/

/-- The seed and the superstep number of a command's partition (12 R261). -/
def State.vecSeed (s : State) (k : Nat) : Word × Nat := (s.seedOf k, s.ssnumOf k)

/-- The random word of element `i` (12 R261). -/
def State.vecRandom (s : State) (k : Nat) (c : Cmd) (i : Word) : Nat :=
  if vecRm c.ctl = 2 then randomWord (s.vecSeed k).1 (c.a + 2 * i) (s.vecSeed k).2 else 0

/-- Narrow for a command. -/
def State.vecNarrow (s : State) (k : Nat) (c : Cmd) (i : Word) (v : Num) : Nat :=
  narrowTo (ptrFmt c.a) (vecRnd c.ctl) (vecSat c.ctl) (s.vecRandom k c i) v

/-- NarrowAcc for a command. -/
def State.vecNarrowAcc (s : State) (k : Nat) (c : Cmd) (i : Word) (a : Acc) : Nat :=
  match (ptrFmt c.a).float? with
  | some p => p.round a.value (vecRnd c.ctl) (vecSat c.ctl) (s.vecRandom k c i)
  | none => s.vecNarrow k c i a.value

/-- Element `i` of the rb operand. -/
def State.vecA (s : State) (w : Actor) (c : Cmd) (i : Int) : State × Except Nat Num :=
  s.vecElem w c.priv c.b c.bq i

/-- The value of a second source for element `i`. -/
def State.vecB (s : State) (w : Actor) (c : Cmd) (src : VSrc) (i : Int) : State × Except Nat Num :=
  match src with
  | .array _ => s.vecElem w c.priv c.c c.cq i
  | .sf _ => (s, .ok (fp32 c.c))
  | .si _ => (s, .ok (.ofInt c.c.toInt))

/-- What an element of a command gives: where it is written, and its bits; the accumulator of VSCAN goes on. -/
abbrev VecOut := State × Except Nat (Int × Nat × Acc)

/-- An element with one source. -/
def State.vecUnary (s : State) (w : Actor) (c : Cmd) (i : Nat) (acc : Acc) (f : Num → Num) : VecOut :=
  andThen (s.vecA w c i) fun s a => (s, .ok ((i : Int), s.vecNarrow w.tile c (word i) (f a), acc))

/-- An element with two sources. -/
def State.vecBinary (s : State) (w : Actor) (c : Cmd) (src : VSrc) (i : Nat) (acc : Acc)
    (f : Num → Num → Num) : VecOut :=
  andThen (s.vecA w c i) fun s a =>
    andThen (s.vecB w c src i) fun s b => (s, .ok ((i : Int), s.vecNarrow w.tile c (word i) (f a b), acc))

/-- An element of a comparison: one bit. -/
def State.vecCompare (s : State) (w : Actor) (c : Cmd) (src : VSrc) (i : Nat) (acc : Acc)
    (f : Num → Num → Bool) : VecOut :=
  andThen (s.vecA w c i) fun s a =>
    andThen (s.vecB w c src i) fun s b => (s, .ok ((i : Int), if f a b then 1 else 0, acc))

/-- An element of a bitwise operation (12 R274). -/
def State.vecLogic (s : State) (w : Actor) (c : Cmd) (src : VBits) (i : Nat) (acc : Acc)
    (f : Nat → Nat → Nat) : VecOut :=
  let n := (ptrFmt c.a).bits
  andThen (s.vecBits w c.priv c.b n i) fun s a =>
    andThen (match src with
      | .array _ => s.vecBits w c.priv c.c n i
      | .sb _ => (s, .ok (c.c.toNat % 2 ^ n))) fun s b => (s, .ok ((i : Int), f a b, acc))

/-- An element of a shift (12 R274). -/
def State.vecShift (s : State) (w : Actor) (c : Cmd) (i : Nat) (acc : Acc) (f : Nat → Nat → Nat → Nat) :
    VecOut :=
  let n := (ptrFmt c.b).bits
  andThen (s.vecBits w c.priv c.b n i) fun s a => (s, .ok ((i : Int), f n a (fieldOf c.c 6 0), acc))

/-- a AND NOT b on encodings. -/
def andNot (a b : Nat) : Nat := a ^^^ (a &&& b)

/-- VSHL on `w` bits. -/
def shiftLeft (w a n : Nat) : Nat := if w ≤ n then 0 else (a <<< n) % 2 ^ w

/-- VSHR.z on `w` bits. -/
def shiftRight (w a n : Nat) : Nat := if w ≤ n then 0 else a >>> n

/-- VSHR.s on `w` bits. -/
def shiftSigned (w a n : Nat) : Nat := ((BitVec.ofNat w a).sshiftRight (min n w)).toNat

/-- The element of an index array (12 R271). -/
def State.vecIndex (s : State) (w : Actor) (c : Cmd) (i : Nat) : State × Except Nat Int :=
  andThen (s.vecElem w c.priv c.c 0 i) fun s v => (s, .ok (v.int?.getD 0))

/-- A word of two s32 fields. -/
def s32Of (w : Word) (hi lo : Nat) : Int := (BitVec.ofNat 32 (fieldOf w hi lo)).toInt

/-- The scale sd_i of VQNT's destination (12 R267). -/
def State.vecScale (s : State) (w : Actor) (c : Cmd) (i : Nat) : State × Except Nat Num :=
  if ptrBlk c.a = 0 then (s, .ok (.ofInt 1))
  else andThen (s.vecBytes w c.priv c.aq ((i / 2 ^ (ptrBlk c.a + 2) : Nat) : Int) 1) fun s l =>
    (s, .ok (applyScale (.ofInt 1) (l.headD 0)))

/-- An active element of a command that streams to its destination (12 Table 12.3). -/
def State.vecEval (s : State) (w : Actor) (c : Cmd) (i : Nat) (acc : Acc) : VecOut :=
  match c.op with
  | .vadd _ _ _ src => s.vecBinary w c src i acc Num.add
  | .vsub _ _ _ src => s.vecBinary w c src i acc fun a b => a.add b.neg
  | .vmul _ _ _ src => s.vecBinary w c src i acc Num.mul
  | .vfma _ _ _ src =>
    andThen (s.vecA w c i) fun s a =>
      andThen (s.vecB w c src i) fun s b =>
        andThen (s.vecElem w c.priv c.a 0 i) fun s d =>
          (s, .ok ((i : Int), s.vecNarrow w.tile c (word i) ((a.mul b).add d), acc))
  | .vmin _ _ _ src => s.vecBinary w c src i acc Num.minOf
  | .vmax _ _ _ src => s.vecBinary w c src i acc Num.maxOf
  | .vabs .. => s.vecUnary w c i acc Num.abs
  | .vneg .. => s.vecUnary w c i acc Num.neg
  | .vclamp .. =>
    let lo := Format.fp32.decode (fieldOf c.c 31 0)
    let hi := Format.fp32.decode (fieldOf c.c 63 32)
    s.vecUnary w c i acc fun a => (a.maxOf lo).minOf hi
  | .vcvt .. => s.vecUnary w c i acc id
  | .vqnt .. =>
    andThen (s.vecA w c i) fun s a =>
      andThen (s.vecScale w c i) fun s sd =>
        (s, .ok ((i : Int), s.vecNarrow w.tile c (word i) (a.div ((fp32 c.c).mul sd)), acc))
  | .vdq .. => s.vecUnary w c i acc fun a => a.mul (fp32 c.c)
  | .vscan _ _ _ ex =>
    andThen (s.vecA w c i) fun s a =>
      let next := acc.add a.bounded
      (s, .ok ((i : Int), s.vecNarrowAcc w.tile c (word i) (if ex then acc else next), next))
  | .vexp2 .. =>
    andThen (s.vecA w c i) fun s a =>
      (s, .ok ((i : Int), exp2To (ptrFmt c.a) (vecSat c.ctl) a, acc))
  | .vdiv _ _ _ src => s.vecBinary w c src i acc Num.div
  | .vsqrt .. => s.vecUnary w c i acc Num.sqrt
  | .vrsq .. => s.vecUnary w c i acc Num.rsqrt
  | .vcmpEq _ _ _ src => s.vecCompare w c src i acc Num.eq
  | .vcmpLt _ _ _ src => s.vecCompare w c src i acc Num.lt
  | .vcmpLe _ _ _ src => s.vecCompare w c src i acc fun a b => Num.lt a b || Num.eq a b
  | .vsel _ _ _ src =>
    andThen (s.vecActive w.tile c i) fun s on =>
      s.vecBinary w c src i acc fun a b => if on then a else b
  | .vfill _ _ src =>
    let v := match src with
      | .fp32 _ => fp32 c.c
      | .si _ => Num.ofInt c.c.toInt
    (s, .ok ((i : Int), s.vecNarrow w.tile c (word i) v, acc))
  | .viota .. => (s, .ok ((i : Int), s.vecNarrow w.tile c (word i) (.ofInt (s32Of c.c 31 0 + i * s32Of c.c 63 32)), acc))
  | .vgath .. =>
    andThen (s.vecIndex w c i) fun s j =>
      andThen (s.vecElem w c.priv c.b c.bq j) fun s v => (s, .ok ((i : Int), s.vecNarrow w.tile c (word i) v, acc))
  | .vscat .. =>
    andThen (s.vecIndex w c i) fun s j =>
      andThen (s.vecA w c i) fun s a => (s, .ok (j, s.vecNarrow w.tile c (BitVec.ofInt 64 j) a, acc))
  | .vand _ _ _ src => s.vecLogic w c src i acc fun a b => a &&& b
  | .vor _ _ _ src => s.vecLogic w c src i acc fun a b => a ||| b
  | .vxor _ _ _ src => s.vecLogic w c src i acc fun a b => a ^^^ b
  | .vandn _ _ _ src => s.vecLogic w c src i acc andNot
  | .vshl .. => s.vecShift w c i acc shiftLeft
  | .vshrZ .. => s.vecShift w c i acc shiftRight
  | .vshrS .. => s.vecShift w c i acc shiftSigned
  | _ => (s, .ok ((i : Int), 0, acc))

/-! ### A command that streams (12 R262, R264) -/

/-- Whether an instruction is VSEL. -/
def Cmd.isSelect (c : Cmd) : Bool :=
  match c.op with
  | .vsel .. => true
  | _ => false

/-- The width of a destination element: one bit for a comparison. -/
def Cmd.vecWidth (c : Cmd) : Nat :=
  match c.op with
  | .vcmpEq .. | .vcmpLt .. | .vcmpLe .. => 1
  | _ => (ptrFmt c.a).bits

/-- What a group has read: the elements to be written, with their numbers, and the accumulator. -/
structure VecGroup where
  outs : List (Nat × Int × Nat)
  acc  : Acc
  bad  : Option Nat

/-- Read the elements of a group; after a fault each further element may or may not be done. -/
def State.vecGather (w : Actor) (c : Cmd) : List Nat → State → VecGroup → State × VecGroup
  | [], s, g => (s, g)
  | i :: l, s, g =>
    if g.bad.isSome && s.skips w.tile 3 c.id i then State.vecGather w c l s g
    else
      match (if c.isSelect then (s, .ok true) else s.vecActive w.tile c i) with
      | (s, .error e) => State.vecGather w c l (s.copyFault w.tile e) { g with bad := firstBad g.bad i }
      | (s, .ok false) => State.vecGather w c l s g
      | (s, .ok true) =>
        match s.vecEval w c i g.acc with
        | (s, .error e) => State.vecGather w c l (s.copyFault w.tile e) { g with bad := firstBad g.bad i }
        | (s, .ok (pos, v, acc)) => State.vecGather w c l s { g with outs := g.outs ++ [(i, pos, v)], acc := acc }

/-- Whether an instruction is VSCAT. -/
def Cmd.isScatter (c : Cmd) : Bool :=
  match c.op with
  | .vscat .. => true
  | _ => false

/-- Write the elements of a scatter one by one in ascending order. -/
def State.vecScatter (w : Actor) (c : Cmd) : List (Nat × Int × Nat) → State → Option Nat → State × Option Nat
  | [], s, bad => (s, bad)
  | (i, pos, v) :: l, s, bad =>
    match s.vecPut w c.priv c.a c.vecWidth pos v with
    | (s, .error e) => State.vecScatter w c l (s.copyFault w.tile e) (firstBad bad i)
    | (s, .ok ()) => State.vecScatter w c l s bad

/-- Write the elements of a group. -/
def State.vecWrite (s : State) (w : Actor) (c : Cmd) (outs : List (Nat × Int × Nat)) (bad : Option Nat) : State × Option Nat :=
  if c.isScatter then State.vecScatter w c outs s bad else s.vecPutAll w c.priv c.id c.a c.vecWidth outs bad

/-- Groups of 64 elements in ascending order, `g` of them left. -/
def State.vecStream (w : Actor) (c : Cmd) : Nat → Nat → State → Acc → Option Nat → State × Option Nat
  | 0, _, s, _, bad => (s, bad)
  | fuel + 1, g, s, acc, bad =>
    let n := min 64 (vecN c.ctl - 64 * g)
    let (s, r) := State.vecGather w c ((List.range n).map fun i => 64 * g + i) s ⟨[], acc, bad⟩
    let (s, bad) := s.vecWrite w c r.outs r.bad
    State.vecStream w c fuel (g + 1) s r.acc bad

/-! ### Commands that read every element first (12 R264, R268, R269, R272, R273) -/

/-- Fold over active elements; the first fault ends it with the number of elements read. A step that lacks packets looks for all that it
lacks (log entry 28). -/
def State.vecFold {β : Type} (w : Actor) (c : Cmd) (f : State → β → Nat → State × Except Nat β) :
    Nat → Nat → State → β → State × Except Nat β
  | 0, _, s, b => (s, .ok b)
  | fuel + 1, i, s, b =>
    match s.vecActive w.tile c i with
    | (s, .error e) => (s.copyFault w.tile e, .error i)
    | (s, .ok false) => State.vecFold w c f fuel (i + 1) s b
    | (s, .ok true) =>
      match f s b i with
      | (s, .error e) => if s.stalled then State.vecFold w c f fuel (i + 1) s b else (s.copyFault w.tile e, .error i)
      | (s, .ok b) => State.vecFold w c f fuel (i + 1) s b

/-- The end of a vector command: the code and the count of its status. -/
structure VecEnd where
  code  : Nat
  count : Nat

/-- The result of a reduction is written, unless a source element faulted. -/
def State.vecReduce {β : Type} (s : State) (w : Actor) (c : Cmd) (r : Except Nat β) (v : β → Nat) :
    State × VecEnd :=
  match r with
  | .error i => (s, ⟨2, i⟩)
  | .ok b =>
    match s.vecPut w c.priv c.a c.vecWidth 0 (v b) with
    | (s, .ok ()) => (s, ⟨0, vecN c.ctl⟩)
    | (s, .error e) => (s.copyFault w.tile e, ⟨2, s.openCount w.tile 3 c.id % (vecN c.ctl + 1)⟩)

/-- VSUM (12 R269). -/
def State.vecSum (s : State) (w : Actor) (c : Cmd) : State × VecEnd :=
  let (s, r) := State.vecFold w c (fun s (a : Acc) i =>
    andThen (s.vecA w c i) fun s x => (s, .ok (a.add x.bounded))) (vecN c.ctl) 0 s Acc.clear
  s.vecReduce w c r (s.vecNarrowAcc w.tile c 0)

/-- VDOT (12 R269). -/
def State.vecDot (s : State) (w : Actor) (c : Cmd) : State × VecEnd :=
  let (s, r) := State.vecFold w c (fun s (a : Acc) i =>
    andThen (s.vecA w c i) fun s x =>
      andThen (s.vecElem w c.priv c.c c.cq i) fun s y => (s, .ok (a.add (x.mul y).bounded))) (vecN c.ctl) 0 s Acc.clear
  s.vecReduce w c r (s.vecNarrowAcc w.tile c 0)

/-- VAMAX (12 R269). -/
def State.vecAmax (s : State) (w : Actor) (c : Cmd) : State × VecEnd :=
  let (s, r) := State.vecFold w c (fun s (m : Num) i =>
    andThen (s.vecA w c i) fun s x =>
      (s, .ok (if m.isNaN || x.isNaN then .nan else m.maxOf x.abs))) (vecN c.ctl) 0 s Num.zero
  s.vecReduce w c r (s.vecNarrow w.tile c 0)

/-- The exponent of the largest magnitude of a scaled format (12 R268). -/
def emax : Format → Nat
  | .e4m3 => 8
  | .e5m2 => 15
  | .e3m2 => 4
  | .s8 => 6
  | _ => 2

/-- The scale byte of a block whose largest magnitude is given (12 R268). -/
def scaleOf (f : Format) (m : Num) : Byte :=
  match m with
  | .fin _ n e =>
    if n = 0 then 0 else BitVec.ofNat 8 (min (max ((Nat.log2 n : Int) + e - emax f + 127) 0) 254).toNat
  | _ => 0xFF

/-- The scale bytes of some blocks, with the first element of each; after a fault each further block may or may not be done. -/
def State.vecScaleBytes (w : Actor) (c : Cmd) : List Nat → State → Option Nat → State × List (Nat × Int × Nat) × Option Nat
  | [], s, bad => (s, [], bad)
  | j :: l, s, bad =>
    if bad.isSome && s.skips w.tile 3 c.id (j * 2 ^ (ptrBlk c.a + 2)) then State.vecScaleBytes w c l s bad
    else
      let len := 2 ^ (ptrBlk c.a + 2)
      let n := min len (vecN c.ctl - j * len)
      match State.vecFold w c (fun s (m : Num) i =>
          andThen (s.vecA w c i) fun s x =>
            (s, .ok (if m.isNaN || x.isNaN then .nan else m.maxOf x.abs))) n (j * len) s Num.zero with
      | (s, .error _) => State.vecScaleBytes w c l s (firstBad bad (j * len))
      | (s, .ok m) =>
        let r := State.vecScaleBytes w c l s bad
        (r.1, (j * len, (j : Int), (scaleOf (ptrFmt c.a) m).toNat) :: r.2.1, r.2.2)

/-- VMXS, group by group of 64 elements, or block by block of more (12 R262, R268): answers the first element that was not completed. -/
def State.vecScales (w : Actor) (c : Cmd) : Nat → Nat → State → Option Nat → State × Option Nat
  | 0, _, s, bad => (s, bad)
  | fuel + 1, j, s, bad =>
    let blocks := ceilDiv (vecN c.ctl) (2 ^ (ptrBlk c.a + 2))
    let m := max 1 (64 / 2 ^ (ptrBlk c.a + 2))
    let r := State.vecScaleBytes w c ((List.range (min m (blocks - j))).map fun i => j + i) s bad
    let r := r.1.vecPutAll w c.priv c.id c.aq 8 r.2.1 r.2.2
    State.vecScales w c fuel (j + m) r.1 r.2

/-- Whether a key sorts strictly before another (12 R272). -/
def keyBefore (x y : Num) : Bool := if x.isNaN then false else if y.isNaN then true else Num.below x y

/-- Insert a key after those that do not sort after it. -/
def insertKey (a : Nat × Num × Nat) : List (Nat × Num × Nat) → List (Nat × Num × Nat)
  | [] => [a]
  | b :: l => if keyBefore a.2.1 b.2.1 then a :: b :: l else b :: insertKey a l

/-- VSORTK (12 R272). -/
def State.vecSort (s : State) (w : Actor) (c : Cmd) (perm : Bool) : State × VecEnd :=
  let f := ptrFmt c.b
  match State.vecFold w c (fun s (l : List (Nat × Num × Nat)) i =>
      andThen (s.vecBits w c.priv c.b f.bits i) fun s v => (s, .ok (insertKey (v, f.decode v, i) l)))
      (vecN c.ctl) 0 s [] with
  | (s, .error _) => (s, ⟨2, 0⟩)
  | (s, .ok l) =>
    let keys := (List.range l.length).zip l
    let r := s.vecPutAll w c.priv c.id c.a c.vecWidth (keys.map fun q => (q.1, (q.1 : Int), q.2.1)) none
    match (if perm then r.1.vecPutAll w c.priv c.id c.c 32 (keys.map fun q => (q.1, (q.1 : Int), q.2.2.2)) r.2 else r) with
    | (s, none) => (s, ⟨0, vecN c.ctl⟩)
    | (s, some i) => (s, ⟨2, i⟩)

/-- NB of VHIST. -/
def histSize (w : Word) : Nat := fieldOf w 27 16 + 1

/-- The old values of the buckets of a histogram; a bucket that cannot be read is left out. -/
def State.vecBuckets (w : Actor) (c : Cmd) (clr : Bool) : List Nat → Nat → State → Bool → State × List (Nat × Int × Nat) × Bool
  | [], _, s, bad => (s, [], bad)
  | n :: l, j, s, bad =>
    match (if clr then (s, .ok 0) else s.vecBits w c.priv c.a (ptrFmt c.a).bits j) with
    | (s, .ok was) =>
      let r := State.vecBuckets w c clr l (j + 1) s bad
      (r.1, (j, (j : Int), was + n) :: r.2.1, r.2.2)
    | (s, .error e) => State.vecBuckets w c clr l (j + 1) (s.copyFault w.tile e) true

/-- VHIST (12 R273). -/
def State.vecHist (s : State) (w : Actor) (c : Cmd) (clr : Bool) : State × VecEnd :=
  let nb := histSize c.c
  match State.vecFold w c (fun s (l : List Nat) i =>
      andThen (s.vecA w c i) fun s x =>
        let b := (x.int?.getD (-1)) / (2 ^ fieldOf c.c 5 0 : Nat)
        (s, .ok (if 0 ≤ b then l.modify b.toNat (· + 1) else l))) (vecN c.ctl) 0 s (List.replicate nb 0) with
  | (s, .error i) => (s, ⟨2, i⟩)
  | (s, .ok l) =>
    let r := State.vecBuckets w c clr l 0 s false
    let put := r.1.vecPutAll w c.priv c.id c.a (ptrFmt c.a).bits r.2.1 none
    match put.1, r.2.2 || put.2.isSome with
    | s, false => (s, ⟨0, vecN c.ctl⟩)
    | s, true => (s, ⟨2, s.openCount w.tile 3 c.id % (vecN c.ctl + 1)⟩)

/-- What a vector command does. -/
def State.vecRun (s : State) (w : Actor) (c : Cmd) : State × VecEnd :=
  let n := vecN c.ctl
  let ended (r : State × Option Nat) : State × VecEnd := (r.1, ⟨if r.2.isSome then 2 else 0, r.2.getD n⟩)
  match c.op with
  | .vsum .. => s.vecSum w c
  | .vamax .. => s.vecAmax w c
  | .vdot .. => s.vecDot w c
  | .vmxs .. => ended (State.vecScales w c (ceilDiv n (max 64 (2 ^ (ptrBlk c.a + 2)))) 0 s none)
  | .vsortk _ _ _ perm => s.vecSort w c perm.isSome
  | .vhist _ _ _ _ clr => s.vecHist w c clr
  | _ => ended (State.vecStream w c (ceilDiv n 64) 0 s Acc.clear none)

end Sys2Proof.Machine
end

