-- ==== Sys2Proof/Machine/Vector.lean ====
section
/-! DEFINITION. The vector instructions: their checks at issue, the vector queue, and the start and the end of a command
(12 R256-R263). -/

namespace Sys2Proof.Machine

/-! ### Issue (12 R256, R258, R259) -/

/-- A pointer operand: its pair, and whether its format and BLK are accepted where it stands (12 Table 12.2). -/
structure VecPtr where
  p  : Word
  q  : Word
  ok : Bool

/-- Format codes 1 to 14 (12 R260). -/
def numeric (f : Format) : Bool := f != .raw && f != .reserved

/-- A pointer in a position without a scale pair. -/
def plainPtr (w : Word) (ok : Format → Bool) : VecPtr := ⟨w, 0, ok (ptrFmt w) && ptrBlk w == 0⟩

/-- A numeric source in a pair position. -/
def pairPtr (w : Word × Word) : VecPtr := ⟨w.1, w.2, numeric (ptrFmt w.1)⟩

/-- The integer formats that shifts accept (12 Table 12.2). -/
def integral (f : Format) : Bool := f.kind == .signed || f.kind == .unsigned

/-- The formats of an index array (12 Table 12.2). -/
def indexFmt (f : Format) : Bool := f == .s32 || f == .z32 || f == .s64

/-- Check 2 of one operand: its cause and the pointer. -/
def State.vecPtrCause (s : State) (v : VecPtr) : Option (Nat × Word) :=
  match s.pointerCause v.p with
  | some c => some (c, v.p)
  | none =>
    match (if ptrBlk v.p = 0 then none else s.scaleCause v.q) with
    | some c => some (c, v.q)
    | none => if v.ok then none else some (0x045, v.p)

/-- The first operand that fails a check. -/
def firstCause (f : VecPtr → Option (Nat × Word)) : List VecPtr → Option (Nat × Word)
  | [] => none
  | v :: l => f v <|> firstCause f l

/-- Check 1 of the control word (12 R259): `rm` where RM may be other than 0, `msk` the value MSK must have, if any. -/
def ctlCause (w : Word) (rm : Bool) (msk : Option Bool) : Option (Nat × Word) :=
  let mskBad := match msk with
    | some b => vecMsk w != b
    | none => false
  if fieldOf w 63 59 != 0 || decide (2 < vecRm w) || (!rm && vecRm w != 0) || mskBad then some (0x0C2, w) else none

/-- Check 3 of one operand. -/
def alignCause (v : VecPtr) : Option (Nat × Word) :=
  if ptrLoc v.p % (ptrFmt v.p).granBytes = 0 then none else some (0x082, v.p)

/-- A command enters the vector queue: it waits for an entry, traps on the first check that fails, or takes VCC as its id.
A command with N = 0 ends at once (12 R263). -/
def State.enterVector (s : State) (op : Instr) (rd : Reg) (rm : Bool) (msk : Option Bool) (param : Option (Nat × Word))
    (l : List VecPtr) (a b c : Word × Word) : Out :=
  let k := s.cur.tile
  let w := s.rx rd
  if 16 ≤ (s.tile k).eng.vcq.length then .next s.hold
  else match ctlCause w rm msk <|> param <|> firstCause s.vecPtrCause l <|> firstCause alignCause l with
    | some (x, v) => .next (s.trapAtIssue x v)
    | none =>
      let id := (s.tile k).eng.vcc
      let s := (s.modEng k fun g => { g with vcc := (g.vcc + 1) % 2 ^ 64 }).markX rd
      if vecN w = 0 then .next (s.landX k s.cur.slot rd (statusWord id 0 3 0))
      else
        let cmd : Cmd :=
          { id := id, op := op, slot := s.cur.slot, rd := rd, a := a.1, aq := a.2, b := b.1, bq := b.2, c := c.1, cq := c.2,
            ctl := w, priv := s.priv, slack := s.slackOf (vecSc w), issued := s.gclk, mark := s.nextReq, fmark := s.me.fenced,
            started := false, status := none }
        .next (s.modEng k fun g => { g with vcq := g.vcq ++ [cmd] })

/-- The second source of an instruction: its pointer, if it is an array, and what is captured. -/
def State.vecSource (s : State) : VSrc → List VecPtr × (Word × Word)
  | .array xc => ([pairPtr (s.scaledPair xc)], s.scaledPair xc)
  | .sf xc | .si xc => ([], (s.rx xc, 0))

/-- Issue of an instruction with one array source. -/
def State.issueUnary (s : State) (op : Instr) (xd xa : Reg) (xb : RegPair) (rm : Bool) (xc : Word) : Out :=
  s.enterVector op xd rm none none [plainPtr (s.rx xa) numeric, pairPtr (s.scaledPair xb)] (s.rx xa, 0) (s.scaledPair xb) (xc, 0)

/-- Issue of an instruction with two sources. -/
def State.issueBinary (s : State) (op : Instr) (xd xa : Reg) (xb : RegPair) (src : VSrc) (msk : Option Bool)
    (dst : Format → Bool) : Out :=
  let c := s.vecSource src
  s.enterVector op xd false msk none ([plainPtr (s.rx xa) dst, pairPtr (s.scaledPair xb)] ++ c.1) (s.rx xa, 0)
    (s.scaledPair xb) c.2

/-- Issue of a bitwise instruction (12 R274). -/
def State.issueLogic (s : State) (op : Instr) (xd xa xb : Reg) (src : VBits) : Out :=
  let any (f : Format) : Bool := f.bits == (ptrFmt (s.rx xa)).bits
  let c := match src with
    | .array xc => [plainPtr (s.rx xc) any]
    | .sb _ => []
  let v := match src with
    | .array xc | .sb xc => s.rx xc
  s.enterVector op xd false none none ([plainPtr (s.rx xa) any, plainPtr (s.rx xb) any] ++ c) (s.rx xa, 0) (s.rx xb, 0) (v, 0)

/-- Issue of a shift (12 R274). -/
def State.issueShift (s : State) (op : Instr) (xd xa xb xc : Reg) : Out :=
  s.enterVector op xd false none none
    [plainPtr (s.rx xa) fun f => f == ptrFmt (s.rx xb), plainPtr (s.rx xb) integral] (s.rx xa, 0) (s.rx xb, 0) (s.rx xc, 0)

/-- VADD. -/
def execVadd (xd xa : Reg) (xb : RegPair) (src : VSrc) (s : State) : Out :=
  s.issueBinary (.vadd xd xa xb src) xd xa xb src none numeric

/-- VSUB. -/
def execVsub (xd xa : Reg) (xb : RegPair) (src : VSrc) (s : State) : Out :=
  s.issueBinary (.vsub xd xa xb src) xd xa xb src none numeric

/-- VMUL. -/
def execVmul (xd xa : Reg) (xb : RegPair) (src : VSrc) (s : State) : Out :=
  s.issueBinary (.vmul xd xa xb src) xd xa xb src none numeric

/-- VFMA. -/
def execVfma (xd xa : Reg) (xb : RegPair) (src : VSrc) (s : State) : Out :=
  s.issueBinary (.vfma xd xa xb src) xd xa xb src none numeric

/-- VMIN. -/
def execVmin (xd xa : Reg) (xb : RegPair) (src : VSrc) (s : State) : Out :=
  s.issueBinary (.vmin xd xa xb src) xd xa xb src none numeric

/-- VMAX. -/
def execVmax (xd xa : Reg) (xb : RegPair) (src : VSrc) (s : State) : Out :=
  s.issueBinary (.vmax xd xa xb src) xd xa xb src none numeric

/-- VDIV. -/
def execVdiv (xd xa : Reg) (xb : RegPair) (src : VSrc) (s : State) : Out :=
  s.issueBinary (.vdiv xd xa xb src) xd xa xb src none numeric

/-- VCMP.eq. -/
def execVcmpEq (xd xa : Reg) (xb : RegPair) (src : VSrc) (s : State) : Out :=
  s.issueBinary (.vcmpEq xd xa xb src) xd xa xb src none (· == .raw)

/-- VCMP.lt. -/
def execVcmpLt (xd xa : Reg) (xb : RegPair) (src : VSrc) (s : State) : Out :=
  s.issueBinary (.vcmpLt xd xa xb src) xd xa xb src none (· == .raw)

/-- VCMP.le. -/
def execVcmpLe (xd xa : Reg) (xb : RegPair) (src : VSrc) (s : State) : Out :=
  s.issueBinary (.vcmpLe xd xa xb src) xd xa xb src none (· == .raw)

/-- VSEL. -/
def execVsel (xd xa : Reg) (xb : RegPair) (src : VSrc) (s : State) : Out :=
  s.issueBinary (.vsel xd xa xb src) xd xa xb src (some true) numeric

/-- VABS. -/
def execVabs (xd xa : Reg) (xb : RegPair) (s : State) : Out :=
  s.issueUnary (.vabs xd xa xb) xd xa xb false 0

/-- VNEG. -/
def execVneg (xd xa : Reg) (xb : RegPair) (s : State) : Out :=
  s.issueUnary (.vneg xd xa xb) xd xa xb false 0

/-- VCVT. -/
def execVcvt (xd xa : Reg) (xb : RegPair) (s : State) : Out :=
  s.issueUnary (.vcvt xd xa xb) xd xa xb true 0

/-- VSUM. -/
def execVsum (xd xa : Reg) (xb : RegPair) (s : State) : Out :=
  s.issueUnary (.vsum xd xa xb) xd xa xb true 0

/-- VAMAX. -/
def execVamax (xd xa : Reg) (xb : RegPair) (s : State) : Out :=
  s.issueUnary (.vamax xd xa xb) xd xa xb false 0

/-- VEXP2. -/
def execVexp2 (xd xa : Reg) (xb : RegPair) (s : State) : Out :=
  s.issueUnary (.vexp2 xd xa xb) xd xa xb false 0

/-- VSQRT. -/
def execVsqrt (xd xa : Reg) (xb : RegPair) (s : State) : Out :=
  s.issueUnary (.vsqrt xd xa xb) xd xa xb false 0

/-- VRSQ. -/
def execVrsq (xd xa : Reg) (xb : RegPair) (s : State) : Out :=
  s.issueUnary (.vrsq xd xa xb) xd xa xb false 0

/-- VSCAN. -/
def execVscan (xd xa : Reg) (xb : RegPair) (ex : Bool) (s : State) : Out :=
  s.issueUnary (.vscan xd xa xb ex) xd xa xb true 0

/-- VCLAMP. -/
def execVclamp (xd xa : Reg) (xb : RegPair) (xc : Reg) (s : State) : Out :=
  s.issueUnary (.vclamp xd xa xb xc) xd xa xb false (s.rx xc)

/-- VDQ. -/
def execVdq (xd xa : Reg) (xb : RegPair) (xc : Reg) (s : State) : Out :=
  s.issueUnary (.vdq xd xa xb xc) xd xa xb true (s.rx xc)

/-- VDOT. -/
def execVdot (xd xa : Reg) (xb xc : RegPair) (s : State) : Out :=
  s.enterVector (.vdot xd xa xb xc) xd true none none
    [plainPtr (s.rx xa) numeric, pairPtr (s.scaledPair xb), pairPtr (s.scaledPair xc)] (s.rx xa, 0) (s.scaledPair xb)
    (s.scaledPair xc)

/-- VQNT (12 R267). -/
def execVqnt (xd : Reg) (xa xb : RegPair) (xc : Reg) (s : State) : Out :=
  s.enterVector (.vqnt xd xa xb xc) xd true none none [pairPtr (s.scaledPair xa), pairPtr (s.scaledPair xb)]
    (s.scaledPair xa) (s.scaledPair xb) (s.rx xc, 0)

/-- VMXS (12 R268). -/
def execVmxs (xd : Reg) (xa xb : RegPair) (s : State) : Out :=
  let a := s.scaledPair xa
  s.enterVector (.vmxs xd xa xb) xd false (some false) none
    [⟨a.1, a.2, (ptrFmt a.1).scalable && ptrBlk a.1 != 0⟩, pairPtr (s.scaledPair xb)] a (s.scaledPair xb) (0, 0)

/-- VFILL. -/
def execVfill (xd xa : Reg) (src : VScalar) (s : State) : Out :=
  let c := match src with
    | .fp32 xc | .si xc => s.rx xc
  s.enterVector (.vfill xd xa src) xd false none none [plainPtr (s.rx xa) numeric] (s.rx xa, 0) (0, 0) (c, 0)

/-- VIOTA. -/
def execViota (xd xa xc : Reg) (s : State) : Out :=
  s.enterVector (.viota xd xa xc) xd false none none [plainPtr (s.rx xa) numeric] (s.rx xa, 0) (0, 0) (s.rx xc, 0)

/-- VGATH (12 R271). -/
def execVgath (xd xa : Reg) (xb : RegPair) (xc : Reg) (s : State) : Out :=
  s.enterVector (.vgath xd xa xb xc) xd false none none
    [plainPtr (s.rx xa) numeric, pairPtr (s.scaledPair xb), plainPtr (s.rx xc) indexFmt] (s.rx xa, 0) (s.scaledPair xb)
    (s.rx xc, 0)

/-- VSCAT (12 R271). -/
def execVscat (xd xa : Reg) (xb : RegPair) (xc : Reg) (s : State) : Out :=
  s.enterVector (.vscat xd xa xb xc) xd false none none
    [plainPtr (s.rx xa) numeric, pairPtr (s.scaledPair xb), plainPtr (s.rx xc) indexFmt] (s.rx xa, 0) (s.scaledPair xb)
    (s.rx xc, 0)

/-- VSORTK (12 R272). -/
def execVsortk (xd xa xb : Reg) (perm : Option Reg) (s : State) : Out :=
  let whole (f : Format) : Bool := numeric f && f.bits % 8 == 0
  let c := match perm with
    | some xc => (([plainPtr (s.rx xc) fun f => f == Format.z32] : List VecPtr), s.rx xc)
    | none => ([], (0 : Word))
  s.enterVector (.vsortk xd xa xb perm) xd false (some false) none
    ([plainPtr (s.rx xa) fun f => f == ptrFmt (s.rx xb), plainPtr (s.rx xb) whole] ++ c.1) (s.rx xa, 0) (s.rx xb, 0) (c.2, 0)

/-- VHIST (12 R273). -/
def execVhist (xd xa xb xc : Reg) (clr : Bool) (s : State) : Out :=
  let w := s.rx xc
  let param := if fieldOf w 63 28 ≠ 0 ∨ fieldOf w 15 6 ≠ 0 then some (0x0C2, w) else none
  s.enterVector (.vhist xd xa xb xc clr) xd false none param
    [plainPtr (s.rx xa) fun f => f == .z32 || f == .s64, plainPtr (s.rx xb) fun f => f == .raw || integral f]
    (s.rx xa, 0) (s.rx xb, 0) (w, 0)

/-- VAND. -/
def execVand (xd xa xb : Reg) (src : VBits) (s : State) : Out :=
  s.issueLogic (.vand xd xa xb src) xd xa xb src

/-- VOR. -/
def execVor (xd xa xb : Reg) (src : VBits) (s : State) : Out :=
  s.issueLogic (.vor xd xa xb src) xd xa xb src

/-- VXOR. -/
def execVxor (xd xa xb : Reg) (src : VBits) (s : State) : Out :=
  s.issueLogic (.vxor xd xa xb src) xd xa xb src

/-- VANDN. -/
def execVandn (xd xa xb : Reg) (src : VBits) (s : State) : Out :=
  s.issueLogic (.vandn xd xa xb src) xd xa xb src

/-- VSHL. -/
def execVshl (xd xa xb xc : Reg) (s : State) : Out :=
  s.issueShift (.vshl xd xa xb xc) xd xa xb xc

/-- VSHR.z. -/
def execVshrZ (xd xa xb xc : Reg) (s : State) : Out :=
  s.issueShift (.vshrZ xd xa xb xc) xd xa xb xc

/-- VSHR.s. -/
def execVshrS (xd xa xb xc : Reg) (s : State) : Out :=
  s.issueShift (.vshrS xd xa xb xc) xd xa xb xc

/-! ### Extents (12 R263) -/

/-- A streamed operand: its pointer and scale pointer, its elements, whether its data are written, and whether its data and
its scales are accessed at all. -/
structure VecExtent where
  p     : Word
  q     : Word
  n     : Nat
  width : Nat
  write : Bool
  data  : Bool
  scaleWrite : Bool

/-- A source that is only read. -/
def readExtent (p q : Word) (n : Nat) : VecExtent := ⟨p, q, n, (ptrFmt p).bits, false, true, false⟩

/-- The extents of a command without its mask; the tables of VGATH and VSCAT are checked as they are accessed. -/
def Cmd.vecExtents (c : Cmd) : List VecExtent :=
  let n := vecN c.ctl
  let dst (m : Nat) : VecExtent := ⟨c.a, c.aq, m, c.vecWidth, true, true, false⟩
  let a := readExtent c.b c.bq n
  let second (src : VSrc) : List VecExtent := match src with
    | .array _ => [readExtent c.c c.cq n]
    | _ => []
  match c.op with
  | .vadd _ _ _ src | .vsub _ _ _ src | .vmul _ _ _ src | .vfma _ _ _ src | .vmin _ _ _ src | .vmax _ _ _ src |
    .vdiv _ _ _ src | .vcmpEq _ _ _ src | .vcmpLt _ _ _ src | .vcmpLe _ _ _ src | .vsel _ _ _ src => [dst n, a] ++ second src
  | .vsum .. | .vamax .. => [dst 1, a]
  | .vdot .. => [dst 1, a, readExtent c.c c.cq n]
  | .vmxs .. => [⟨c.a, c.aq, n, c.vecWidth, true, false, true⟩, a]
  | .vfill .. | .viota .. => [dst n]
  | .vgath .. => [dst n, readExtent c.c 0 n]
  | .vscat .. => [a, readExtent c.c 0 n]
  | .vsortk _ _ _ perm => [dst n, a] ++ (if perm.isSome then [⟨c.c, 0, n, 32, true, true, false⟩] else [])
  | .vhist .. => [dst (histSize c.c), a]
  | .vand _ _ _ src | .vor _ _ _ src | .vxor _ _ _ src | .vandn _ _ _ src =>
    [dst n, a] ++ (match src with
      | .array _ => [readExtent c.c 0 n]
      | .sb _ => [])
  | _ => [dst n, a]

/-- The bytes of an extent, in whole granules of its format, or in bits for a comparison's destination. -/
def VecExtent.bytes (e : VecExtent) : Nat :=
  if e.width = 1 then ceilDiv e.n 8 else ceilDiv (e.n * (ptrFmt e.p).granBytes) (ptrFmt e.p).granElems

/-- The byte ranges of an extent: a pointer, its highest offset, and whether it is written. -/
def VecExtent.ranges (e : VecExtent) : List (Word × Int × Bool) :=
  let hi : Int := (e.bytes : Int) - 1
  (if e.data then [(e.p, hi, e.write)] else []) ++
    (if ptrBlk e.p = 0 then [] else [(e.q, hi / blockBytes e.p, e.scaleWrite)])

/-- The byte ranges that are checked when a command starts, its mask among them. -/
def Cmd.vecRanges (c : Cmd) : List (Word × Int × Bool) :=
  c.vecExtents.flatMap VecExtent.ranges ++
    (if vecMsk c.ctl then [(0x00FFF80000000000 + word (vecMoff c.ctl), (ceilDiv (vecN c.ctl) 8 : Int) - 1, false)] else [])

/-- The spaces that a command accesses (09 R193). -/
def Cmd.vecSpaces (c : Cmd) : List Nat :=
  c.vecRanges.map (fun r => ptrSpace r.1) ++
    (match c.op with
    | .vgath .. => [ptrSpace c.b, ptrSpace c.bq]
    | .vscat .. => [ptrSpace c.a]
    | _ => [])

/-- The start check of a command: the code that it ends with, if it fails. -/
def Cmd.vecCheck (c : Cmd) : Option Nat :=
  let long := match c.op with
    | .vsortk .. => decide (16384 < vecN c.ctl)
    | _ => false
  let maskOut := vecMsk c.ctl && decide (0x80000 < vecMoff c.ctl + ceilDiv (vecN c.ctl) 8)
  if long then some 1
  else if maskOut || c.vecRanges.any fun r => extentBad c.priv r.1 0 r.2.1 r.2.2 then some 2
  else none

/-- The ranges of its own tile's TLM that a command reads or writes, the tables of VGATH and VSCAT apart. -/
def Cmd.vecOwn (k : Nat) (c : Cmd) : List (Nat × Nat) :=
  c.vecRanges.filterMap fun r => if ownTlm k r.1 then some (ptrLoc r.1, (r.2.1 + 1).toNat) else none

/-! ### Start and end (12 R256, R263, R264) -/

/-- Change the head of the vector queue. -/
def State.modVectorHead (s : State) (k : Nat) (f : Cmd → Cmd) : State :=
  s.modEng k fun g => { g with vcq := match g.vcq with
    | c :: l => f c :: l
    | [] => [] }

/-- VECTOR_COMMAND_START: the head of the event's tile's queue starts once what precedes it is performed; its checks may decide its
status. -/
def execVectorCommandStart (s : State) : Out :=
  let k := s.cur.ev.tile
  let t := s.tile k
  match t.eng.vcq with
  | [] => .next s
  | c :: _ =>
    if c.started || s.withheld || !t.engRuns || !s.earlierDone k c.slot c.mark c.fmark c.vecSpaces then .next s
    else match c.vecCheck with
      | some code => .next (s.modVectorHead k fun c => { c with started := true, status := some (statusWord c.id code 3 0) })
      | none =>
        .next ((s.touchRanges k c.slot (c.vecOwn k)).modVectorHead k fun c => { c with started := true, slack := c.slack - (s.gclk - c.issued) })

/-- The head of the queue leaves it, and its status is written. -/
def State.endVector (s : State) (k : Nat) (c : Cmd) (w : Word) : State :=
  (s.modEng k fun g => { g with vcq := g.vcq.tail }).landX k c.slot c.rd w

/-- VECTOR_COMMAND_COMPLETE: the running command, which goes on after ABORT too (13 R301), takes effect once the banks that it addresses have
woken (06 R125) and its packets have been answered, writes its status word and releases its entry. -/
def execVectorCommandComplete (s : State) : Out :=
  let k := s.cur.ev.tile
  let t := s.tile k
  match t.eng.vcq with
  | [] => .next s
  | c :: _ =>
    if !c.started || !t.engGoesOn then .next s
    else match c.status with
      | some w => .next (s.endVector k c w)
      | none =>
        if t.asleepAny (c.vecOwn k) then .next s
        else
          let a := c.actor 3 k (s.staleFor s.cur.ev.ok)
          let r := s.begin.vecRun a c
          s.engineEnd a (r.1.endVector k c (statusWord c.id r.2.code 3 r.2.count))

end Sys2Proof.Machine
end

