-- ==== Sys2Proof/Machine/Banks.lean ====
section
/-! DEFINITION. The power of TLM banks: what the engine commands of a device address, retention and waking (06 R125). -/

namespace Sys2Proof.Machine

/-- A range of TLM that a pointer of tile `j` reaches: tile, location and length; none outside space 01. -/
def tlmReach (j : Nat) (w : Word) (off : Int) (n : Nat) : List (Nat × Nat × Nat) :=
  if ptrSpace w = 1 then [(targetTile j w, ((ptrLoc w : Int) + off).toNat, n)] else []

/-- The TLM that one side of a transfer of tile `j` addresses, row by row, with its scale bytes (10 R206, R207). -/
def Xfer.sideReach (j : Nat) (x : Xfer) (side : Nat) : List (Nat × Nat × Nat) :=
  let len := copyLen x.words
  let bb : Int := blockBytes (x.word 0)
  let each (w : Word) : List Word := if side = 2 then x.targets j w else [w]
  if copyIsTs x.words side then []
  else (List.range (copyRows x.words * copyPlanes x.words)).flatMap fun r =>
    let off := copyOffset x.words side (r * len)
    (each (x.word side)).flatMap (fun w => tlmReach j w off len) ++
      (if copyScaled x.words then (each (x.word (side + 1))).flatMap fun w => tlmReach j w (off / bb) (ceilDiv len bb.toNat) else [])

/-- The TLM that a matrix command of tile `j` addresses. -/
def Cmd.matrixReach (j : Nat) (c : Cmd) : List (Nat × Nat × Nat) :=
  (c.matrixRanges j).map (fun r => (j, r.1, r.2)) ++
    (match c.matrixKind with
    | .store _ | .fill =>
      if ownTlm j c.a then []
      else (List.range (descM c.c)).flatMap fun m => tlmReach j c.a (m * descA c.c : Nat) (descN c.c * ((ptrFmt c.a).bits / 8))
    | _ => [])

/-- The TLM that a vector command of tile `j` addresses; a table that is indexed by data counts whole. -/
def Cmd.vectorReach (j : Nat) (c : Cmd) : List (Nat × Nat × Nat) :=
  (c.vecRanges.flatMap fun r => tlmReach j r.1 0 (r.2.1 + 1).toNat) ++
    (match c.op with
    | .vgath .. => tlmReach j (ptrAt c.b 0) 0 0x80000
    | .vscat .. => tlmReach j (ptrAt c.a 0) 0 0x80000
    | _ => [])

/-- The TLM that the input fetches of tile `j` that have not begun address: those of the 4 bottom-most records (06 R119). -/
def TileCore.inputReach (j : Nat) (c : TileCore) : List (Nat × Nat × Nat) :=
  (c.deque.take 4).flatMap fun t =>
    ((t.fetch.zip t.ins).filter fun p => !p.1.begun).flatMap fun p =>
      (j, inputDst p.2.2, inputLen p.2.2) :: tlmReach j p.2.1 0 (inputLen p.2.2)

/-- The TLM that the engine commands of tile `j` address, and what its own loads in flight read. -/
def State.enginesReach (s : State) (j : Nat) : List (Nat × Nat × Nat) :=
  let e := (s.tile j).eng
  e.xfers.flatMap (fun x => x.sideReach j 0 ++ x.sideReach j 2) ++
    (e.pages.filterMap fun p => if p.started then none else some (j, p.dst, p.len)) ++
    e.mq.flatMap (Cmd.matrixReach j) ++ e.vcq.flatMap (Cmd.vectorReach j) ++
    (e.collq.map fun c =>
      let n := match s.partOf j with
        | some id => s.memberCount (s.part id) (groupOf c.word)
        | none => 0
      (j, ptrLoc c.buf, collBytes c.op (ptrFmt c.buf) (fieldOf c.word 31 8) n)) ++
    (e.repq.flatMap fun c => [(j, ptrLoc c.buf, c.inLen), (j, ptrLoc c.out, c.outLen)]) ++
    (e.ownLoads.map fun l => (j, 0x4000 * l.bank, 1)) ++ (s.tile j).core.inputReach j

/-- Whether an engine command or an input fetch of any tile addresses a bank (06 R125). -/
def State.bankAddressed (s : State) (k b : Nat) : Bool :=
  (s.tiles.map (·.1)).any fun j => (s.enginesReach j).any fun r => r.1 == k && (banksOf r.2.1 r.2.2).contains b

/-- Whether a live strand or a keep entry uses a bank. -/
def TileCore.usesBank (c : TileCore) (b : Nat) : Bool :=
  c.slots.toList.any (fun st => st.st == .live && st.banks.getLsbD b) || c.keeps.any fun e => e.banks.getLsbD b

/-- Whether a bank has not been accessed for 4,096 cycles. -/
def State.bankRested (s : State) (k b : Nat) : Bool := decide ((assoc (s.tile k).touched b).getD 0 + 4096 ≤ s.cyc)

/-- BANK_RETENTION_ENTRY: bank `a` of the event's tile, unused, addressed by nothing and not accessed for 4,096 cycles, enters
retention. -/
def execBankRetentionEntry (s : State) : Out :=
  let k := s.cur.ev.tile
  let b := s.cur.ev.a
  let t := s.tile k
  if b = 0 ∨ 32 ≤ b ∨ t.retained.getLsbD b ∨ t.core.usesBank b ∨ s.bankAddressed k b ∨ !s.bankRested k b then .next s
  else .next (s.modTile k fun t => { t with retained := t.retained ||| (1#32 <<< b), touched := assocDrop t.touched b })

/-- BANK_WAKE: a bank in retention is awake 64 cycles after the first access to it. -/
def execBankWake (s : State) : Out :=
  let k := s.cur.ev.tile
  let b := s.cur.ev.a
  let t := s.tile k
  match assoc t.touched b with
  | some c =>
    if t.retained.getLsbD b && decide (c + 64 ≤ s.cyc) then
      .next (s.modTile k fun t => { t with retained := t.retained &&& ~~~(1#32 <<< b) })
    else .next s
  | none => .next s

end Sys2Proof.Machine
end

