-- ==== Sys2Proof/Machine/Care.lean ====
section
/-! DEFINITION. Power, energy, memory errors and lost tiles (17 R407-R409, 18 R428-R431). -/

namespace Sys2Proof.Machine

/-! ### Power (18 R428, R429, R431) -/

/-- PWRBAL_WRITE: the Perroed controller installs the balance that the host requested, where R428 accepts it. -/
def execPwrbalWrite (s : State) : Out :=
  if s.balDue then
    .next { s with pwrbal := if 600 ≤ s.reqBal ∧ s.reqBal ≤ s.pwrMax then s.reqBal else s.pwrbal, balDue := false }
  else .next s

/-- POWER_AVERAGE_UPDATE: the rolling average is `a` watts. -/
def execPowerAverageUpdate (s : State) : Out := .next { s with pwravg := s.cur.ev.a % 65536 }

/-- D for a balance and an average. -/
def dutyOf (bal avg : Nat) : Nat := if avg ≤ bal then 16 else max 4 (16 * bal / avg)

/-- DUTY_RECOMPUTE. -/
def execDutyRecompute (s : State) : Out := .next { s with duty := dutyOf s.pwrbal s.pwravg }

/-- ECID of a partition's running launch, with its function. -/
def State.energyCounter (s : State) (p : Part) : Option (Nat × Nat) :=
  match p.running with
  | none => none
  | some (fn, n) => (assoc (s.function fn).slots n).map fun q => (fn, fieldAt q.record 0x30 1)

/-- A charge of `n` µJ to a resident partition, to its running launch and to the tenant counter that ECID names. -/
def State.charge (s : State) (id n : Nat) : State :=
  let add (m : Nat) : Nat := (m + n) % 2 ^ 64
  let p := s.part id
  if !p.valid then s
  else
    let counter := s.energyCounter p
    let s := s.modPart id fun p =>
      { p with penergy := add p.penergy, lenergy := if counter.isSome then add p.lenergy else p.lenergy }
    match counter with
    | none => s
    | some (fn, i) => s.modFunction fn fun f => { f with energy := assocPut f.energy i (add ((assoc f.energy i).getD 0)) }

/-- The energy of a tile is charged to the partition that holds it. -/
def State.chargeTile (s : State) (q : Nat × Nat) : State :=
  match s.partOf q.1 with
  | some id => s.charge id q.2
  | none => s

/-- Bytes that packets of each partition moved through a consumer in the interval: a station, a link or a port. -/
def State.movedThrough (s : State) (consumer : Nat) : List (Nat × Nat) :=
  (s.moved.filter fun q => q.1 / 65536 == consumer).map fun q => (q.1 % 65536, q.2)

/-- The energy of a consumer is divided among partitions in proportion to the bytes that they moved through it. What is left of a share of
µJ that is no whole number the spec does not give: it is charged or not. -/
def State.chargeShared (s : State) (q : Nat × Nat) : State :=
  let l := s.movedThrough q.1
  let total := (l.map (·.2)).sum
  l.foldl (fun s m =>
    let part := q.2 * m.2
    (s.charge m.1 (part / total + (if part % total ≠ 0 && s.anyBool then 1 else 0))).used 1) s

/-- ENERGY_INTERVAL: 10 µs pass in which tiles used the µJ that the first pairs of the event name, other consumers those of the second. The
device's total counts them all. -/
def execEnergyInterval (s : State) : Out :=
  let e := s.cur.ev
  let s := { s with energy := s.energy + (e.epochs.map (·.2)).sum + (e.shared.map (·.2)).sum }
  .next { e.shared.foldl State.chargeShared (e.epochs.foldl State.chargeTile s) with moved := [] }

/-! ### Corrections and errors (17 R407, R408) -/

/-- An error of a tile's TLM is corrected: CECNT counts it, and at 16 the tile is due for retirement, with 0x145, whose trap value the spec
does not state. A tile of no partition, a service tile among them, moves at once. -/
def State.countCorrection (s : State) (k : Nat) : State :=
  match s.physOf k with
  | none => s
  | some i =>
    let n := ptsCecnt (s.ptsWord i) + 1
    let s := s.setPts i (setField (s.ptsWord i) 8 4 (min n 31))
    if n ≠ 16 then s
    else
      let s := ((s.setPts i (setField (s.ptsWord i) 2 0 5)).tileEvent (k / 1024) 0x145 s.anyWord).used 1
      if (s.partOf k).isSome then s else s.retire k

/-- SCRUB_SECTOR (17 R407): a scrubber passes over a sector of the event tile's TLM, where it corrects an error when `ok` is set. No
value that software sees changes, and an uncorrectable word stays as it stands. -/
def execScrubSector (s : State) : Out := if s.cur.ev.ok then .next (s.countCorrection s.cur.ev.tile) else .next s

/-- A word of an operand in the latch becomes uncorrectable: one of its data from 0 on, or of its scales from 4,096 on (11 R245). -/
def Panel.spoil (p : Panel) (w : Nat) : Panel :=
  if 8 * w < p.data.length ∨ (4096 ≤ w ∧ 8 * (w - 4096) < p.scales.length) then { p with bad := insertNat p.bad w } else p

/-- MEMORY_BIT_ERROR (17 R407): an error in word `a` of the memory that `op` names: 0 TLM, 1 undo area, 2 tile store of the event's tile,
3 HBM, 4 the front and 5 the back of the event tile's operand latch (11 R245). With `ok` it is uncorrectable; otherwise the access that finds it corrects it. -/
def execMemoryBitError (s : State) : Out :=
  let e := s.cur.ev
  let t := s.tile e.tile
  if !e.ok then (if e.op = 0 then .next (s.countCorrection e.tile) else .next s)
  else match e.op with
    | 0 => if e.a < 0x10000 then .next (s.setTile e.tile { t with bad := insertNat t.bad e.a }) else .next s
    | 1 => if (assoc t.undo (e.a / 8)).isSome then .next (s.setTile e.tile { t with undoBad := insertNat t.undoBad e.a }) else .next s
    | 2 => if e.a < 0x2000 then .next (s.setTile e.tile { t with tsBad := insertNat t.tsBad e.a }) else .next s
    | 3 => if s.hasMemory (8 * e.a) 8 then .next { s with hbmBad := insertNat s.hbmBad e.a } else .next s
    | 4 => .next (s.modEng e.tile fun g => { g with front := g.front.map fun p => p.spoil e.a })
    | 5 => .next (s.modEng e.tile fun g => { g with back := g.back.map fun b => { b with operand := b.operand.map fun p => p.spoil e.a } })
    | _ => .next s

/-! ### Lost tiles (17 R409, 13 R283) -/

/-- A lost tile's die root casts an immediate abort in its place, also when the tile's own ARRIVE had been received. -/
def State.castLost (s : State) (id k : Nat) : State :=
  let p := s.part id
  let t := s.tile k
  if !t.lost || p.bar.commit.isSome then s
  else if !t.recast.isEmpty then
    (s.modTile k fun t => { t with causes := t.causes ++ t.recast, cast := true, recast := [] }).dueCause id 0x144 (s.tileTval k)
  else if t.cast then
    let m : BarMsg := ⟨0, .arrive, .tile k, .die (k / 1024), 1 + causeVote 0x144, p.ssnum, .none⟩
    ((s.modTile k fun t => { t with cast := false }).modPart id fun p => { p with bar := { p.bar with got := p.bar.got ++ [m] } }).tryArrive id (.die (k / 1024))
  else s

/-- What a tile's failure ends (17 R409): its requests and XINVs and its steals, whose thieves may ask again. Barrier packets, stones and
packets of the device root that stands beside it go on. -/
def State.dropOfTile (s : State) (k : Nat) : State :=
  let ends (r : Req) : Bool := r.sdev == s.devId && r.tile == k && !r.leftTile && (match r.op with | .cargo .barrier .. => false | _ => true)
  let asked := s.steals.filter fun q => q.victim == k && q.reply.isNone
  let s := { s with
    reqs := s.reqs.filter fun r => !(ends r || (r.isSteal && r.ttile == k))
    xinvs := s.xinvs.filter fun x => x.tile != k
    steals := s.steals.filter fun q => !(q.thief == k || (q.victim == k && q.reply.isNone)) }
  asked.foldl (fun s q => s.modCore q.thief fun c => { c with steal := { c.steal with asking := false } }) s

/-- TILE_LOST: the event's tile fails with uncorrectable data. Its requests are gone, its inbox is sealed, its children are relinked, and
its die root casts an abort with 0x144; after a decision the abort is of the superstep that opens next. A tile of no partition is replaced
at once. -/
def execTileLost (s : State) : Out :=
  let k := s.cur.ev.tile
  if (s.tile k).lost then .next s
  else
    let s := match s.physOf k with
      | some i => s.setPts i (setField (s.ptsWord i) 2 0 4)
      | none => s
    let s := s.dropOfTile k
    match s.partOf k with
    | none =>
      if isService k then .next (s.modTile k fun t => { t with lost := true })
      else match s.replaceTile k 4 with
        | (s, true) => .next (s.renewTile k Tile.reset)
        | (s, false) => .next (s.modTile k fun t => { t with lost := true })
    | some id =>
      let late := (s.part id).bar.commit.isSome
      let s := s.modTile k fun t =>
        { t with
          lost := true, vote := false, recast := if late then [0x144] else [], cast := !late
          causes := if late then t.causes else t.causes ++ [0x144] }
      let s := (s.relink id k).closeBarrier id
      let s := match s.parentOf (s.part id) (.tile k) with
        | some n => s.tryArrive id n
        | none => s
      .next (if late then s else (s.dueCause id 0x144 (s.tileTval k)).castLost id k)

end Sys2Proof.Machine
end

