-- ==== Sys2Proof/Machine/Boot.lean ====
section
/-! DEFINITION. The boot: its phases, discovery, the map of a die and its installation (18 R424-R426, 22 R449-R453). -/

namespace Sys2Proof.Machine

/-! ### Phases (18 R424, R425) -/

/-- PHASE of DEVSTAT. -/
def State.phase (s : State) : Nat := fieldOf s.devstat 7 4

/-- Show a phase. -/
def State.showPhase (s : State) (n : Nat) : State := { s with devstat := setField s.devstat 7 4 n }

/-- BOOTERR. -/
def State.bootErr (s : State) : Nat := fieldOf s.devstat 31 16

/-- A phase fails: BOOTERR holds its code, and the physical function is interrupted. -/
def State.failBoot (s : State) (code : Nat) : State :=
  { s with devstat := setField s.devstat 31 16 code }.emit (.interrupt physical 2)

/-- The device after a reset: what its manufacture, the management plane and the host's clock fix stays. -/
def State.rebooted (s : State) : State :=
  { State.reset with
    caps := s.caps, pwrbal := s.pwrMax - 300, fused := s.fused, keyFuse := s.keyFuse, minFuse := s.minFuse, firmware := s.firmware, devId := s.devId, ngroups := s.ngroups, entryPc := s.entryPc, gclk := s.gclk, out := s.out,
    energy := s.energy, agenda := s.agenda, freeCtr := s.freeCtr, nextReq := s.nextReq, cur := s.cur }

/-- What training leaves of a link (18 Table 18.4 phase 2): a lost rail makes it DEGRADED; a second one, or number 5 for a port that failed,
leaves it DOWN. DESIGN CHOICE: no link event is raised, as no service tile runs yet (log entry 7). -/
def State.trainLink (s : State) (q : Nat × Nat) : State :=
  if !s.hasLink q.1 then s
  else s.modLink q.1 fun l =>
    let was := l.state
    let l := if q.2 < railCount q.1 then (l.setRail q.2 false).setState (if was = 2 then 3 else 0) else l.setState 0
    { l with stat := setField (setField l.stat 47 40 (l.buffer q.1)) 39 37 (mergeRow (l.buffer q.1)) }

/-- The phase that runs ends (18 R424): phase 1 fails when a firmware image is refused (R426), phases 2 and 3 when `ok` is set; the
training of phase 2 leaves the links as the pairs of the event say. Memory is zero after phase 3, with no uncorrectable word. -/
def State.endPhase (s : State) : State :=
  let e := s.cur.ev
  match s.phase with
  | 1 => if s.firmware.any s.refusesImage then s.failBoot 1 else s.showPhase 2
  | 2 => if e.ok then s.failBoot 2 else (e.shared.foldl State.trainLink s).showPhase 3
  | 3 => if e.ok then s.failBoot 3 else s.showPhase 4
  | _ => s

/-- DEVICE_RESET: the device is reset and the Perroed controller begins phase 1; with `op` 1 it ends the phase that runs, of the first
three. -/
def execDeviceReset (s : State) : Out :=
  if s.cur.ev.op = 1 then (if s.bootErr = 0 then .next s.endPhase else .next s) else .next (s.rebooted.showPhase 1)

/-! ### Discovery (22 R450) -/

/-- Whether a physical tile of a die is good: not fused off. -/
def State.good (s : State) (d i : Nat) : Bool := !s.fused.contains (1024 * d + i)

/-- The mesh neighbours of a physical index. -/
def meshNext (i : Nat) : List Nat :=
  (if i % 32 = 0 then [] else [i - 1]) ++ (if i % 32 = 31 then [] else [i + 1]) ++ (if i < 32 then [] else [i - 32]) ++
    (if i < 992 then [i + 32] else [])

/-- The flood, hop by hop: the tiles that it reached, with their hops. -/
def State.flood (s : State) (d : Nat) : Nat → Nat → List Nat → List (Nat × Nat) → List (Nat × Nat)
  | 0, _, _, seen => seen
  | fuel + 1, hops, front, seen =>
    let seen := front.foldl (fun l i => assocPut l i hops) seen
    let next := ((front.flatMap meshNext).filter fun i => s.good d i && (assoc seen i).isNone).eraseDups
    if next.isEmpty then seen else State.flood s d fuel (hops + 1) next seen

/-- The boot tile of a die: its first good tile in physical order. -/
def State.bootIndex (s : State) (d : Nat) : Option Nat := (List.range 1024).find? fun i => s.good d i

/-- The hops of every physical tile of a die that answers. -/
def State.hops (s : State) (d : Nat) : List (Nat × Nat) :=
  match s.bootIndex d with
  | some i => s.flood d 1024 0 [i] []
  | none => []

/-- The largest of the hops. -/
def maxHops (l : List (Nat × Nat)) : Nat := l.foldl (fun m q => max m q.2) 0

/-- Whether every good tile of a die answers within 4,096 cycles. -/
def State.floodAnswers (s : State) (d : Nat) : Bool :=
  let l := s.hops d
  !l.isEmpty && decide (16 + 8 * maxHops l ≤ 4096) && (List.range 1024).all fun i => !s.good d i || (assoc l i).isSome

/-- The discovery record (22 Table 22.1). -/
def State.discoveryRecord (s : State) (d : Nat) : List Byte :=
  let l := s.hops d
  let all := List.range 1024
  let links := (all.map fun i => if s.good d i then ((meshNext i).filter fun j => s.good d j).length else 0).foldl (· + ·) 0
  all.map (fun i => if (assoc l i).isSome then 1 else 0) ++ all.map (fun i => BitVec.ofNat 8 ((assoc l i).getD 0xFF)) ++
    toBytes 4 l.length ++ toBytes 4 links ++ toBytes 4 (maxHops l) ++ toBytes 4 (16 + 8 * maxHops l)

/-- The strand that starts on the boot tile (22 R449). -/
def bootStrand (pc : Word) : Strand := { Strand.free with st := .live, pc := pc, sstat := setField 0 9 8 2 }

/-- The present dies. -/
def State.diesHere (s : State) : List Nat := (List.range 4).filter s.diePresent

/-- Whether discovery is still to run on a die in phase 4. -/
def State.discovers (s : State) (d : Nat) : Bool :=
  s.phase == 4 && s.bootErr == 0 && s.diePresent d && !s.flooded.getLsbD d

/-- DISCOVERY_FLOOD: die `a` is flooded; the record and what the controller places (the image, the first 16 KiB of `bytes`, in TLM,
and the firmware after it in HBM at its entry address `w`) stand before slot 0 starts. Phase 5 follows once every die is done. -/
def execDiscoveryFlood (s : State) : Out :=
  let e := s.cur.ev
  if !s.discovers e.a || !s.floodAnswers e.a then .next s
  else
    let k := 1024 * e.a
    let code := e.bytes.drop 0x4000
    let s := if code = [] then s else { s with entryPc := e.w, hbm := memWrite s.hbm e.w.toNat code }
    let tlm := memWrite (memWrite [] 0x10000 (e.bytes.take 0x4000)) 0x20000 (s.discoveryRecord e.a)
    let s := { s with flooded := s.flooded ||| (1#4 <<< e.a) }.setTile k { Tile.reset with tlm := tlm, core := TileCore.reset.modStrand 0 fun _ => bootStrand s.entryPc }
    .next (if s.diesHere.all s.flooded.getLsbD then s.showPhase 5 else s)

/-- DISCOVERY_TIMEOUT: a good tile of die `a` does not answer in time: one that the flood does not reach, or, with `ok`, one that
fails. Phase 4 ends with BOOTERR 0x0004. -/
def execDiscoveryTimeout (s : State) : Out :=
  let e := s.cur.ev
  if s.discovers e.a && (e.ok || !s.floodAnswers e.a) then .next (s.failBoot 4) else .next s

/-! ### The map (22 R452) -/

/-- Entry L of MAP in a boot tile's TLM. -/
def Tile.mapEntry (t : Tile) (l : Nat) : Nat := ofBytes (t.bytes (0x21000 + 4 * l) 4)

/-- Whether the controller refuses a map. -/
def State.mapRefused (s : State) (d : Nat) (t : Tile) : Bool :=
  let es := (List.range 992).map t.mapEntry
  decide (ofBytes (t.bytes 0x22000 4) < 993) ||
    es.any (fun w => w / 2 ^ 15 % 2 == 0 || w / 2 ^ 16 != 0 || w / 2 ^ 10 % 32 != 0 || !s.good d (w % 1024)) ||
    decide ((es.map (· % 1024)).eraseDups.length < 992)

/-- Install a die's map: the L2P entries, the states of its physical tiles, and the service tile. -/
def State.installMap (s : State) (d : Nat) (t : Tile) : State :=
  let mapped := (List.range 992).map fun l => t.mapEntry l % 1024
  let svc := t.mapEntry 992 % 1024
  let s := (List.range 992).foldl (fun s l => { s with l2p := assocPut s.l2p (1024 * d + l) (word (t.mapEntry l)) }) s
  let state (i : Nat) : Nat := if mapped.contains i then 0 else if s.good d i then 1 else 2
  let s := (List.range 1024).foldl (fun s i =>
    let w := setField (s.ptsWord (1024 * d + i)) 2 0 (state i)
    s.setPts (1024 * d + i) (if i = svc then setField w 3 3 1 else w)) s
  { s with l2pOk := s.l2pOk ||| (1#4 <<< d) }

/-- MAP_INSTALL_REQUEST: the controller finds REQ set on die `a`, refuses or installs the map, and answers in ACK. -/
def execMapInstallRequest (s : State) : Out :=
  let d := s.cur.ev.a
  let k := 1024 * d
  let t := s.tile k
  let ack (s : State) (v : Nat) : State := s.tlmWrite k 0x22008 (toBytes 8 v)
  if !s.booting || s.bootErr != 0 || !s.diePresent d || s.l2pOk.getLsbD d || ofBytes (t.bytes 0x22010 8) != 1 ||
      ofBytes (t.bytes 0x22008 8) != 0 then .next s
  else if s.mapRefused d t then .next (ack (s.failBoot 5) 2)
  else .next (ack (s.installMap d t) 1)

/-! ### The end of the boot (18 R424, 22 R453) -/

/-- Whether phase 5 has ended on a die: slot 0 of its boot tile is free after an install. -/
def State.dieDone (s : State) (d : Nat) : Bool := s.l2pOk.getLsbD d && (s.strand (1024 * d) 0).st == .free

/-- READY is set, and the physical function's vector 0 signals it. -/
def State.raiseReady (s : State) : State := ({ s with devstat := s.devstat ||| 1 }).emit (.interrupt physical 0)

/-- Dies that completed phase 5 show in DIEOK; once every one has, phase 6 sets PWRBAL, STEP and READY. -/
def State.advanceBoot (s : State) : State :=
  if !s.booting || s.bootErr != 0 || s.phase != 5 then s
  else
    let s := s.diesHere.foldl (fun s d =>
      if s.dieDone d then { s with devstat := s.devstat ||| word (2 ^ (8 + d)) } else s) s
    if !(s.diesHere.all fun d => bitOf s.devstat (8 + d)) then s
    else ({ s.showPhase 6 with pwrbal := s.pwrMax - 300, clkstep := 100 }).raiseReady

end Sys2Proof.Machine
end

