-- ==== Sys2Proof/Machine/LoadStore.lean ====
section
/-! DEFINITION. Loads, stores, ordered accesses and PREF (07, 09 R201). -/

namespace Sys2Proof.Machine

/-- An access without its base update, of a format that is not read. -/
def plainAccess (code : Nat) (reg : Reg) (size : Nat) (m : MemOp) : Access := ⟨code, reg, size, true, m, false⟩

/-- The access of LDF and STF, whose size and acceptance the pointer's format gives (07 R156). DESIGN CHOICE: a rejected
format below 8 bits counts as one of 1 byte for the address of the trap value (log entry 66). -/
def State.elemAccess (s : State) (code : Nat) (reg : Reg) (m : MemOp) (pi : Bool) : Access :=
  let w := s.rx m.base
  ⟨code, reg, max ((ptrFmt w).bits / 8) 1, elemOk w, m, pi⟩

/-- The low bytes of a source register. -/
def State.lowBytes (s : State) (r : Reg) (n : Nat) : List Byte := toBytes n (s.rx r).toNat

/-- What LDF loads. -/
def State.elemKind (s : State) (m : MemOp) : LoadKind := .elem (ptrFmt (s.rx m.base))

/-- The element that STF stores. -/
def State.elemBytes (s : State) (xd : Reg) (m : MemOp) : List Byte := storeElem (ptrFmt (s.rx m.base)) (s.rx xd)

/-! ### Integer loads and stores (07 Table 7.4) -/

/-- LD.s8. -/
def execLdS8 (xd : Reg) (m : MemOp) (s : State) : Out :=
  .next (s.load (plainAccess 0x20 xd 1 m) .sign [.x xd])

/-- LD.z8. -/
def execLdZ8 (xd : Reg) (m : MemOp) (s : State) : Out :=
  .next (s.load (plainAccess 0x21 xd 1 m) .zero [.x xd])

/-- LD.s16. -/
def execLdS16 (xd : Reg) (m : MemOp) (s : State) : Out :=
  .next (s.load (plainAccess 0x22 xd 2 m) .sign [.x xd])

/-- LD.z16. -/
def execLdZ16 (xd : Reg) (m : MemOp) (s : State) : Out :=
  .next (s.load (plainAccess 0x23 xd 2 m) .zero [.x xd])

/-- LD.s32. -/
def execLdS32 (xd : Reg) (m : MemOp) (s : State) : Out :=
  .next (s.load (plainAccess 0x24 xd 4 m) .sign [.x xd])

/-- LD.z32. -/
def execLdZ32 (xd : Reg) (m : MemOp) (s : State) : Out :=
  .next (s.load (plainAccess 0x25 xd 4 m) .zero [.x xd])

/-- LD.64. -/
def execLd64 (xd : Reg) (m : MemOp) (s : State) : Out :=
  .next (s.load (plainAccess 0x26 xd 8 m) .zero [.x xd])

/-- ST.8. -/
def execSt8 (xd : Reg) (m : MemOp) (s : State) : Out :=
  .next (s.store (plainAccess 0x27 xd 1 m) (s.lowBytes xd 1))

/-- ST.16. -/
def execSt16 (xd : Reg) (m : MemOp) (s : State) : Out :=
  .next (s.store (plainAccess 0x28 xd 2 m) (s.lowBytes xd 2))

/-- ST.32. -/
def execSt32 (xd : Reg) (m : MemOp) (s : State) : Out :=
  .next (s.store (plainAccess 0x29 xd 4 m) (s.lowBytes xd 4))

/-- ST.64. -/
def execSt64 (xd : Reg) (m : MemOp) (s : State) : Out :=
  .next (s.store (plainAccess 0x2A xd 8 m) (s.lowBytes xd 8))

/-! ### Pairs, elements, base updates (07 R155, R156, R158) -/

/-- LDP. -/
def execLdp (xd : RegPair) (m : MemOp) (s : State) : Out :=
  .next (s.load (plainAccess 0x2B xd.even 16 m) .pair [.x xd.even, .x xd.odd])

/-- STP. -/
def execStp (xd : RegPair) (m : MemOp) (s : State) : Out :=
  .next (s.store (plainAccess 0x2C xd.even 16 m) (s.lowBytes xd.even 8 ++ s.lowBytes xd.odd 8))

/-- LDF. -/
def execLdf (xd : Reg) (m : MemOp) (s : State) : Out := .next (s.load (s.elemAccess 0x2D xd m false) (s.elemKind m) [.x xd])

/-- STF. -/
def execStf (xd : Reg) (m : MemOp) (s : State) : Out := .next (s.store (s.elemAccess 0x2E xd m false) (s.elemBytes xd m))

/-- LD.64.pi. -/
def execLd64Pi (xd : Reg) (m : MemOp) (s : State) : Out := .next (s.load ⟨0x30, xd, 8, true, m, true⟩ .zero [.x xd])

/-- ST.64.pi. -/
def execSt64Pi (xd : Reg) (m : MemOp) (s : State) : Out := .next (s.store ⟨0x31, xd, 8, true, m, true⟩ (s.lowBytes xd 8))

/-- LDF.pi. -/
def execLdfPi (xd : Reg) (m : MemOp) (s : State) : Out := .next (s.load (s.elemAccess 0x32 xd m true) (s.elemKind m) [.x xd])

/-- STF.pi. -/
def execStfPi (xd : Reg) (m : MemOp) (s : State) : Out := .next (s.store (s.elemAccess 0x33 xd m true) (s.elemBytes xd m))

/-! ### Ordered accesses (09 R201) -/

/-- LDA.32. -/
def execLda32 (xd : Reg) (m : MemOp) (s : State) : Out := .next (s.load (plainAccess 0x38 xd 4 m) .zero [.x xd])

/-- LDA.64. -/
def execLda64 (xd : Reg) (m : MemOp) (s : State) : Out := .next (s.load (plainAccess 0x39 xd 8 m) .zero [.x xd])

/-- STL.32: it issues once what a release at device scope orders is performed. -/
def execStl32 (xd : Reg) (m : MemOp) (s : State) : Out :=
  if !s.released .device then .next s.hold else .next (s.store (plainAccess 0x3A xd 4 m) (s.lowBytes xd 4))

/-- STL.64: it issues once what a release at device scope orders is performed. -/
def execStl64 (xd : Reg) (m : MemOp) (s : State) : Out :=
  if !s.released .device then .next s.hold else .next (s.store (plainAccess 0x3B xd 8 m) (s.lowBytes xd 8))

/-! ### PREF (07 R157) -/

/-- PREF: the pointer is checked; then the bank of this tile wakes, or a request goes to the station or tile that holds E.
It is dropped where another check of Table 7.2 fails or a limit of R149 is reached. -/
def execPref (m : MemOp) (s : State) : Out :=
  let k := s.cur.tile
  let base := s.rx m.base
  let n := s.dispOf m 64
  match s.pointerCause base with
  | some c => .next (s.trapAfter c base)
  | none =>
    if (s.accessCause k s.priv base n n 64 false true).isSome ∨ Config.tileReqCap ≤ s.outstanding k ∨
        Config.strandReqCap ≤ s.strandOutstanding k s.cur.slot then .next s
    else
      let e := ptrAdd base n
      if ownTlm k e then
        let b := ptrLoc e / 0x4000
        .next (s.modTile k fun t =>
          if t.retained.getLsbD b && (assoc t.touched b).isNone then { t with touched := assocPut t.touched b s.cyc } else t)
      else
        let r := s.accessReq ⟨0x2F, 0, 64, true, { m with nb := true }, false⟩ .pref e [] n
        if s.toTarget k (s.targetOf r) < 1024 then .next (s.post r) else .next s.hold

end Sys2Proof.Machine
end

