-- ==== Sys2Proof/Machine/Pointer.lean ====
section
/-! DEFINITION. The fat-pointer instructions (05 R99-R103). -/

namespace Sys2Proof.Machine

/-! ### Shared operations -/

/-- A pointer result: its check under R74 decides between the write and the class-2 trap with TVAL = xa (05 R99). -/
def State.setPtr (s : State) (xd : Reg) (p tval : Word) : Out :=
  match s.pointerCause p with
  | some c => .next (s.trapAtIssue c tval)
  | none => s.alu 1 xd p

/-- PADD and PADDI (05 R101): the location advances by a signed byte count. -/
def State.movePtr (s : State) (xd : Reg) (p : Word) (n : Int) : Out :=
  match s.pointerCause p with
  | some c => .next (s.trapAtIssue c p)
  | none => if locOk p n then s.setPtr xd (ptrAdd p n) p else .next (s.trapAtIssue 0x046 p)

/-- The location part of PIDX (05 R102): the advance of `n` elements in bytes, where it is whole. -/
def idxBytes (p : Word) (n : Int) : Option Int :=
  let f := ptrFmt p
  if n % (f.granElems : Int) = 0 then some (n * f.granBytes / f.granElems) else none

/-- The identity of a pointer (05 R99). -/
def ptrId (w : Word) : Nat := if ptrSpace w = 1 then ptrTile w else if ptrSpace w = 3 then ptrDev w else 0

/-- The checks and the result of PIDX on the pointer itself (05 R102). -/
def State.idxPtr (s : State) (p : Word) (n : Int) : Nat ⊕ Word :=
  match s.pointerCause p with
  | some c => .inl c
  | none =>
    match idxBytes p n with
    | none => .inl 0x048
    | some d => if locOk p d then .inr (ptrAdd p d) else .inl 0x046

/-- The checks and the result of PIDX on the scale pointer of a block length (05 R102). -/
def State.idxScale (s : State) (q : Word) (blk : Nat) (n : Int) : Nat ⊕ Word :=
  let len : Int := 2 ^ (blk + 2)
  match s.pointerCause q with
  | some c => .inl c
  | none =>
    if n % len ≠ 0 then .inl 0x048
    else if locOk q (n / len) then .inr (ptrAdd q (n / len))
    else .inl 0x046

/-! ### Meanings -/

/-- The pointer that PMK builds from a format and block length, a space and a location and identity (05 R100). -/
def buildPtr (fmtBlk : Word) (space id loc : Nat) : Word :=
  word (fieldOf fmtBlk 3 0 * 2 ^ 60 + fieldOf fmtBlk 6 4 * 2 ^ 57 + space * 2 ^ 55 +
    id * 2 ^ (if space = 1 then 43 else 41) + loc)

/-- PMK (05 R100). -/
def execPmk (xd xa xc : Reg) (sp : PmkSpace) (s : State) : Out :=
  let a := s.rx xa
  let (space, id, top) : Nat × Nat × Nat := match sp with
    | .ver => (0, 0, 1)
    | .tlm xb => (1, (s.rx xb).toNat, 2 ^ 12)
    | .imm => (2, 0, 1)
    | .peer xb => (3, (s.rx xb).toNat, 2 ^ 14)
  if a.toNat < locLimit space ∧ id < top then s.setPtr xd (buildPtr (s.rx xc) space id a.toNat) a
  else .next (s.trapAtIssue 0x047 a)

/-- PADD (05 R101). -/
def execPadd (xd xa xb : Reg) (s : State) : Out := s.movePtr xd (s.rx xa) (s.rx xb).toInt

/-- PADDI (05 R101). -/
def execPaddi (xd xa : Reg) (imm : BitVec 32) (s : State) : Out := s.movePtr xd (s.rx xa) imm.toInt

/-- PSET (05 R103). -/
def execPset (xd xa xb : Reg) (f : PsetField) (s : State) : Out :=
  let a := s.rx xa
  let b := (s.rx xb).toNat
  match s.pointerCause a with
  | some c => .next (s.trapAtIssue c a)
  | none =>
    match f with
    | .fmt => if b < 16 then s.setPtr xd (setField a 63 60 b) a else .next (s.trapAtIssue 0x047 a)
    | .blk => if b < 8 then s.setPtr xd (setField a 59 57 b) a else .next (s.trapAtIssue 0x047 a)
    | .id =>
      if ptrSpace a = 1 ∧ b < 2 ^ 12 then s.setPtr xd (setField a 54 43 b) a
      else if ptrSpace a = 3 ∧ b < 2 ^ 14 then s.setPtr xd (setField a 54 41 b) a
      else .next (s.trapAtIssue 0x047 a)
    | .loc => if b < locLimit (ptrSpace a) then s.setPtr xd (ptrAt a b) a else .next (s.trapAtIssue 0x047 a)

/-- PGET (05 R103): it checks nothing. -/
def execPget (xd xa : Reg) (f : PgetField) (s : State) : Out :=
  let a := s.rx xa
  s.alu 1 xd (word (match f with
    | .fmt => fieldOf a 63 60
    | .blk => ptrBlk a
    | .space => ptrSpace a
    | .id => ptrId a
    | .loc => ptrLoc a))

/-- PIDX and PIDX.pair (05 R102); TVAL is xa whichever requirement fails (R99). -/
def execPidx (r : PidxRegs) (xb : Reg) (s : State) : Out :=
  let n := (s.rx xb).toInt
  match r with
  | .one xd xa =>
    match s.idxPtr (s.rx xa) n with
    | .inl c => .next (s.trapAtIssue c (s.rx xa))
    | .inr p => s.setPtr xd p (s.rx xa)
  | .pair xd xa =>
    let a := s.rx xa.even
    match s.idxPtr a n with
    | .inl c => .next (s.trapAtIssue c a)
    | .inr p =>
      if ptrBlk a = 0 then s.setPtr xd.even p a
      else match s.idxScale (s.rx xa.odd) (ptrBlk a) n with
        | .inl c => .next (s.trapAtIssue c a)
        | .inr q => .next ((s.putX 1 xd.even p).putX 1 xd.odd q)

end Sys2Proof.Machine
end

