-- ==== Sys2Proof/Machine/Slack.lean ====
section
/-! DEFINITION. The slack instructions (14 R326-R329). -/

namespace Sys2Proof.Machine

/-- SLKSET: from a register the smaller of its value and 4,095. -/
def execSlkset (k : SlackReg) (src : SlkSrc) (s : State) : Out :=
  let v := match src with
    | .reg xa => min (s.rx xa).toNat 4095
    | .grains g => g.toNat
  .next (s.modMe fun st => { st with k := vset st.k k.toNat (BitVec.ofNat 12 v) })

/-- SLKGET. -/
def execSlkget (xd : Reg) (k : SlackReg) (s : State) : Out := .next (s.putX 1 xd (word (s.slackOf k)))

/-- SLKEV: reads XEV of the strand's slot or XEVT, and clears it on request. -/
def execSlkev (xd xa : Reg) (s : State) : Out :=
  let t := s.tile s.cur.tile
  let n := s.cur.slot
  let clr := bitOf (s.rx xa) 4
  match fieldOf (s.rx xa) 1 0 with
  | 0 =>
    let s' := s.putX 1 xd (word (vget t.xev n 0))
    .next (if clr then s'.modTile s.cur.tile fun t => { t with xev := vset t.xev n 0 } else s')
  | 1 =>
    if clr && s.priv == 0 then .next (s.trapAtIssue 0x160 0)
    else
      let s' := s.putX 1 xd (word t.xevt)
      .next (if clr then s'.modTile s.cur.tile fun t => { t with xevt := 0 } else s')
  | _ => .next (s.trapAtIssue 0x109 (s.rx xa))

end Sys2Proof.Machine
end

