-- ==== Sys2Proof/Machine/Dispatch.lean ====
section
/-! DEFINITION. Which meaning each instruction and operation has: one arm per constructor of `Instr`. -/

namespace Sys2Proof.Machine

/-- The effect of an instruction at the issue in progress, or of an operation of another agent. -/
def exec (i : Instr) (s : State) : Host.Outcome State Fault Refusal :=
  match i with
  | .vadd xd xa xb src => Sys2Proof.Machine.execVadd xd xa xb src s
  | .vsub xd xa xb src => Sys2Proof.Machine.execVsub xd xa xb src s
  | .vmul xd xa xb src => Sys2Proof.Machine.execVmul xd xa xb src s
  | .vfma xd xa xb src => Sys2Proof.Machine.execVfma xd xa xb src s
  | .vmin xd xa xb src => Sys2Proof.Machine.execVmin xd xa xb src s
  | .vmax xd xa xb src => Sys2Proof.Machine.execVmax xd xa xb src s
  | .vabs xd xa xb => Sys2Proof.Machine.execVabs xd xa xb s
  | .vneg xd xa xb => Sys2Proof.Machine.execVneg xd xa xb s
  | .vclamp xd xa xb xc => Sys2Proof.Machine.execVclamp xd xa xb xc s
  | .vcvt xd xa xb => Sys2Proof.Machine.execVcvt xd xa xb s
  | .vqnt xd xa xb xc => Sys2Proof.Machine.execVqnt xd xa xb xc s
  | .vdq xd xa xb xc => Sys2Proof.Machine.execVdq xd xa xb xc s
  | .vmxs xd xa xb => Sys2Proof.Machine.execVmxs xd xa xb s
  | .vsum xd xa xb => Sys2Proof.Machine.execVsum xd xa xb s
  | .vamax xd xa xb => Sys2Proof.Machine.execVamax xd xa xb s
  | .vdot xd xa xb xc => Sys2Proof.Machine.execVdot xd xa xb xc s
  | .vscan xd xa xb ex => Sys2Proof.Machine.execVscan xd xa xb ex s
  | .vexp2 xd xa xb => Sys2Proof.Machine.execVexp2 xd xa xb s
  | .vdiv xd xa xb src => Sys2Proof.Machine.execVdiv xd xa xb src s
  | .vsqrt xd xa xb => Sys2Proof.Machine.execVsqrt xd xa xb s
  | .vrsq xd xa xb => Sys2Proof.Machine.execVrsq xd xa xb s
  | .vcmpEq xd xa xb src => Sys2Proof.Machine.execVcmpEq xd xa xb src s
  | .vcmpLt xd xa xb src => Sys2Proof.Machine.execVcmpLt xd xa xb src s
  | .vcmpLe xd xa xb src => Sys2Proof.Machine.execVcmpLe xd xa xb src s
  | .vsel xd xa xb src => Sys2Proof.Machine.execVsel xd xa xb src s
  | .vfill xd xa src => Sys2Proof.Machine.execVfill xd xa src s
  | .viota xd xa xc => Sys2Proof.Machine.execViota xd xa xc s
  | .vgath xd xa xb xc => Sys2Proof.Machine.execVgath xd xa xb xc s
  | .vscat xd xa xb xc => Sys2Proof.Machine.execVscat xd xa xb xc s
  | .vsortk xd xa xb perm => Sys2Proof.Machine.execVsortk xd xa xb perm s
  | .vhist xd xa xb xc clr => Sys2Proof.Machine.execVhist xd xa xb xc clr s
  | .vand xd xa xb src => Sys2Proof.Machine.execVand xd xa xb src s
  | .vor xd xa xb src => Sys2Proof.Machine.execVor xd xa xb src s
  | .vxor xd xa xb src => Sys2Proof.Machine.execVxor xd xa xb src s
  | .vandn xd xa xb src => Sys2Proof.Machine.execVandn xd xa xb src s
  | .vshl xd xa xb xc => Sys2Proof.Machine.execVshl xd xa xb xc s
  | .vshrZ xd xa xb xc => Sys2Proof.Machine.execVshrZ xd xa xb xc s
  | .vshrS xd xa xb xc => Sys2Proof.Machine.execVshrS xd xa xb xc s
  | .mcfg xd xa => Sys2Proof.Machine.execMcfg xd xa s
  | .mzero xd xc => Sys2Proof.Machine.execMzero xd xc s
  | .latb xd xa xc => Sys2Proof.Machine.execLatb xd xa xc s
  | .rotb xd k => Sys2Proof.Machine.execRotb xd k s
  | .mst xd xa xc k sat => Sys2Proof.Machine.execMst xd xa xc k sat s
  | .mldc xd xa xc k => Sys2Proof.Machine.execMldc xd xa xc k s
  | .mscl xd xa xc s32 => Sys2Proof.Machine.execMscl xd xa xc s32 s
  | .mmaE4m3 xd xa xb xc ovw => Sys2Proof.Machine.execMmaE4m3 xd xa xb xc ovw s
  | .mmaE5m2 xd xa xb xc ovw => Sys2Proof.Machine.execMmaE5m2 xd xa xb xc ovw s
  | .mmaE3m2 xd xa xb xc ovw => Sys2Proof.Machine.execMmaE3m2 xd xa xb xc ovw s
  | .mmaE2m3 xd xa xb xc ovw => Sys2Proof.Machine.execMmaE2m3 xd xa xb xc ovw s
  | .mmaE2m1 xd xa xb xc ovw => Sys2Proof.Machine.execMmaE2m1 xd xa xb xc ovw s
  | .mmaBf16 xd xa xb xc ovw => Sys2Proof.Machine.execMmaBf16 xd xa xb xc ovw s
  | .mmaF16 xd xa xb xc ovw => Sys2Proof.Machine.execMmaF16 xd xa xb xc ovw s
  | .mmaS8 xd xa xb xc ovw => Sys2Proof.Machine.execMmaS8 xd xa xb xc ovw s
  | .mmalE4m3 xd xa xc ovw => Sys2Proof.Machine.execMmalE4m3 xd xa xc ovw s
  | .mmalE5m2 xd xa xc ovw => Sys2Proof.Machine.execMmalE5m2 xd xa xc ovw s
  | .mmalE3m2 xd xa xc ovw => Sys2Proof.Machine.execMmalE3m2 xd xa xc ovw s
  | .mmalE2m3 xd xa xc ovw => Sys2Proof.Machine.execMmalE2m3 xd xa xc ovw s
  | .mmalE2m1 xd xa xc ovw => Sys2Proof.Machine.execMmalE2m1 xd xa xc ovw s
  | .mmalBf16 xd xa xc ovw => Sys2Proof.Machine.execMmalBf16 xd xa xc ovw s
  | .mmalF16 xd xa xc ovw => Sys2Proof.Machine.execMmalF16 xd xa xc ovw s
  | .mmalS8 xd xa xc ovw => Sys2Proof.Machine.execMmalS8 xd xa xc ovw s
  | .br xa => Sys2Proof.Machine.execBr xa s
  | .brl xa => Sys2Proof.Machine.execBrl xa s
  | .bri off => Sys2Proof.Machine.execBri off s
  | .brli off => Sys2Proof.Machine.execBrli off s
  | .loop xa off => Sys2Proof.Machine.execLoop xa off s
  | .beq xa xb off => Sys2Proof.Machine.execBeq xa xb off s
  | .bne xa xb off => Sys2Proof.Machine.execBne xa xb off s
  | .bltS xa xb off => Sys2Proof.Machine.execBltS xa xb off s
  | .bltZ xa xb off => Sys2Proof.Machine.execBltZ xa xb off s
  | .bgeS xa xb off => Sys2Proof.Machine.execBgeS xa xb off s
  | .bgeZ xa xb off => Sys2Proof.Machine.execBgeZ xa xb off s
  | .haltKeep xa => Sys2Proof.Machine.execHaltKeep xa s
  | .sigchk sig => Sys2Proof.Machine.execSigchk sig s
  | .spawn xa xd => Sys2Proof.Machine.execSpawn xa xd s
  | .join xa => Sys2Proof.Machine.execJoin xa s
  | .leave xa => Sys2Proof.Machine.execLeave xa s
  | .gbar xa => Sys2Proof.Machine.execGbar xa s
  | .waitr xa xd => Sys2Proof.Machine.execWaitr xa xd s
  | .moveat xa xd k => Sys2Proof.Machine.execMoveat xa xd k s
  | .ldS8 xd m => Sys2Proof.Machine.execLdS8 xd m s
  | .ldZ8 xd m => Sys2Proof.Machine.execLdZ8 xd m s
  | .ldS16 xd m => Sys2Proof.Machine.execLdS16 xd m s
  | .ldZ16 xd m => Sys2Proof.Machine.execLdZ16 xd m s
  | .ldS32 xd m => Sys2Proof.Machine.execLdS32 xd m s
  | .ldZ32 xd m => Sys2Proof.Machine.execLdZ32 xd m s
  | .ld64 xd m => Sys2Proof.Machine.execLd64 xd m s
  | .st8 xd m => Sys2Proof.Machine.execSt8 xd m s
  | .st16 xd m => Sys2Proof.Machine.execSt16 xd m s
  | .st32 xd m => Sys2Proof.Machine.execSt32 xd m s
  | .st64 xd m => Sys2Proof.Machine.execSt64 xd m s
  | .ldp xd m => Sys2Proof.Machine.execLdp xd m s
  | .stp xd m => Sys2Proof.Machine.execStp xd m s
  | .ldf xd m => Sys2Proof.Machine.execLdf xd m s
  | .stf xd m => Sys2Proof.Machine.execStf xd m s
  | .pref m => Sys2Proof.Machine.execPref m s
  | .ld64Pi xd m => Sys2Proof.Machine.execLd64Pi xd m s
  | .st64Pi xd m => Sys2Proof.Machine.execSt64Pi xd m s
  | .ldfPi xd m => Sys2Proof.Machine.execLdfPi xd m s
  | .stfPi xd m => Sys2Proof.Machine.execStfPi xd m s
  | .lda32 xd m => Sys2Proof.Machine.execLda32 xd m s
  | .lda64 xd m => Sys2Proof.Machine.execLda64 xd m s
  | .stl32 xd m => Sys2Proof.Machine.execStl32 xd m s
  | .stl64 xd m => Sys2Proof.Machine.execStl64 xd m s
  | .waitvEq xd xa xb k => Sys2Proof.Machine.execWaitvEq xd xa xb k s
  | .waitvNe xd xa xb k => Sys2Proof.Machine.execWaitvNe xd xa xb k s
  | .waitvGeS xd xa xb k => Sys2Proof.Machine.execWaitvGeS xd xa xb k s
  | .waitvEq32 xd xa xb k => Sys2Proof.Machine.execWaitvEq32 xd xa xb k s
  | .lrw32 xd xa k => Sys2Proof.Machine.execLrw32 xd xa k s
  | .lrw64 xd xa k => Sys2Proof.Machine.execLrw64 xd xa k s
  | .sch32 pd xa xb k => Sys2Proof.Machine.execSch32 pd xa xb k s
  | .sch64 pd xa xb k => Sys2Proof.Machine.execSch64 pd xa xb k s
  | .rlsv pd xa k => Sys2Proof.Machine.execRlsv pd xa k s
  | .amoAdd xd xa xb k => Sys2Proof.Machine.execAmoAdd xd xa xb k s
  | .amoAnd xd xa xb k => Sys2Proof.Machine.execAmoAnd xd xa xb k s
  | .amoOr xd xa xb k => Sys2Proof.Machine.execAmoOr xd xa xb k s
  | .amoXor xd xa xb k => Sys2Proof.Machine.execAmoXor xd xa xb k s
  | .amoMinS xd xa xb k => Sys2Proof.Machine.execAmoMinS xd xa xb k s
  | .amoMaxS xd xa xb k => Sys2Proof.Machine.execAmoMaxS xd xa xb k s
  | .amoMinZ xd xa xb k => Sys2Proof.Machine.execAmoMinZ xd xa xb k s
  | .amoMaxZ xd xa xb k => Sys2Proof.Machine.execAmoMaxZ xd xa xb k s
  | .amoSwap xd xa xb k => Sys2Proof.Machine.execAmoSwap xd xa xb k s
  | .amoAdd32 xd xa xb k => Sys2Proof.Machine.execAmoAdd32 xd xa xb k s
  | .amoSwap32 xd xa xb k => Sys2Proof.Machine.execAmoSwap32 xd xa xb k s
  | .cas32 xd xa xb k => Sys2Proof.Machine.execCas32 xd xa xb k s
  | .cas64 xd xa xb k => Sys2Proof.Machine.execCas64 xd xa xb k s
  | .amoFaddF32 xd xa xb k => Sys2Proof.Machine.execAmoFaddF32 xd xa xb k s
  | .redAddS64 xa xb k => Sys2Proof.Machine.execRedAddS64 xa xb k s
  | .redAddF32 xa xb k => Sys2Proof.Machine.execRedAddF32 xa xb k s
  | .redAddBf16 xa xb k => Sys2Proof.Machine.execRedAddBf16 xa xb k s
  | .redAddBf16Sr xa xb k => Sys2Proof.Machine.execRedAddBf16Sr xa xb k s
  | .redMinS64 xa xb k => Sys2Proof.Machine.execRedMinS64 xa xb k s
  | .redMaxS64 xa xb k => Sys2Proof.Machine.execRedMaxS64 xa xb k s
  | .redMaxF32 xa xb k => Sys2Proof.Machine.execRedMaxF32 xa xb k s
  | .redOr64 xa xb k => Sys2Proof.Machine.execRedOr64 xa xb k s
  | .fence inv ord scope => Sys2Proof.Machine.execFence inv ord scope s
  | .cpsrc xa => Sys2Proof.Machine.execCpsrc xa s
  | .cpdst xa => Sys2Proof.Machine.execCpdst xa s
  | .cpshp xa xb => Sys2Proof.Machine.execCpshp xa xb s
  | .cpstr xa xb => Sys2Proof.Machine.execCpstr xa xb s
  | .cpgo xi xs k => Sys2Proof.Machine.execCpgo xi xs k s
  | .cpgoMc xi xs xm k => Sys2Proof.Machine.execCpgoMc xi xs xm k s
  | .cpcan pd xa => Sys2Proof.Machine.execCpcan pd xa s
  | .cpqry xd xa => Sys2Proof.Machine.execCpqry xd xa s
  | .pflAdd pd xa xb k => Sys2Proof.Machine.execPflAdd pd xa xb k s
  | .pflClr xd => Sys2Proof.Machine.execPflClr xd s
  | .send xa xb xc k => Sys2Proof.Machine.execSend xa xb xc k s
  | .sendl xd xa xb grains => Sys2Proof.Machine.execSendl xd xa xb grains s
  | .recv xd xa xb => Sys2Proof.Machine.execRecv xd xa xb s
  | .recvNb xd xa xb => Sys2Proof.Machine.execRecvNb xd xa xb s
  | .inpeek xd xa => Sys2Proof.Machine.execInpeek xd xa s
  | .tcon xa xb k => Sys2Proof.Machine.execTcon xa xb k s
  | .tconV xa xb k => Sys2Proof.Machine.execTconV xa xb k s
  | .tget xd xa xb => Sys2Proof.Machine.execTget xd xa xb s
  | .tgrp xd xa => Sys2Proof.Machine.execTgrp xd xa s
  | .tarm xa xb => Sys2Proof.Machine.execTarm xa xb s
  | .token xa k => Sys2Proof.Machine.execToken xa k s
  | .tcnt xa xb k => Sys2Proof.Machine.execTcnt xa xb k s
  | .tclr xa => Sys2Proof.Machine.execTclr xa s
  | .collAllred xd xa xb k => Sys2Proof.Machine.execCollAllred xd xa xb k s
  | .collBcast xd xa xb k => Sys2Proof.Machine.execCollBcast xd xa xb k s
  | .collAllgat xd xa xb k => Sys2Proof.Machine.execCollAllgat xd xa xb k s
  | .collRedsc xd xa xb k => Sys2Proof.Machine.execCollRedsc xd xa xb k s
  | .rpcfg xa => Sys2Proof.Machine.execRpcfg xa s
  | .rpgo xd xa xb k => Sys2Proof.Machine.execRpgo xd xa xb k s
  | .rpgoFine xd xa xb k => Sys2Proof.Machine.execRpgoFine xd xa xb k s
  | .rpstat xd xa => Sys2Proof.Machine.execRpstat xd xa s
  | .sync xd => Sys2Proof.Machine.execSync xd s
  | .syncr xd xa op => Sys2Proof.Machine.execSyncr xd xa op s
  | .vote xa => Sys2Proof.Machine.execVote xa s
  | .ssnum xd => Sys2Proof.Machine.execSsnum xd s
  | .undoq xd xa => Sys2Proof.Machine.execUndoq xd xa s
  | .bdef xd xa => Sys2Proof.Machine.execBdef xd xa s
  | .slkset k src => Sys2Proof.Machine.execSlkset k src s
  | .slkget xd k => Sys2Proof.Machine.execSlkget xd k s
  | .slkev xd xa => Sys2Proof.Machine.execSlkev xd xa s
  | .csrr xd xa num => Sys2Proof.Machine.execCsrr xd xa num s
  | .csrw xd xa num => Sys2Proof.Machine.execCsrw xd xa num s
  | .csrs xd xa num => Sys2Proof.Machine.execCsrs xd xa num s
  | .csrc xd xa num => Sys2Proof.Machine.execCsrc xd xa num s
  | .trap detail => Sys2Proof.Machine.execTrap detail s
  | .mapt xd xa xb k => Sys2Proof.Machine.execMapt xd xa xb k s
  | .xinv xa xb k => Sys2Proof.Machine.execXinv xa xb k s
  | .gstop xa => Sys2Proof.Machine.execGstop xa s
  | .pwgive xd xa xb k => Sys2Proof.Machine.execPwgive xd xa xb k s
  | .clkepoch xd xa xb => Sys2Proof.Machine.execClkepoch xd xa xb s
  | .add xd xa xb => Sys2Proof.Machine.execAdd xd xa xb s
  | .sub xd xa xb => Sys2Proof.Machine.execSub xd xa xb s
  | .addi xd xa imm => Sys2Proof.Machine.execAddi xd xa imm s
  | .mul xd xa xb => Sys2Proof.Machine.execMul xd xa xb s
  | .muli xd xa imm => Sys2Proof.Machine.execMuli xd xa imm s
  | .mulhS xd xa xb => Sys2Proof.Machine.execMulhS xd xa xb s
  | .mulhZ xd xa xb => Sys2Proof.Machine.execMulhZ xd xa xb s
  | .divS xd xa xb => Sys2Proof.Machine.execDivS xd xa xb s
  | .divZ xd xa xb => Sys2Proof.Machine.execDivZ xd xa xb s
  | .remS xd xa xb => Sys2Proof.Machine.execRemS xd xa xb s
  | .remZ xd xa xb => Sys2Proof.Machine.execRemZ xd xa xb s
  | .and xd xa xb => Sys2Proof.Machine.execAnd xd xa xb s
  | .or xd xa xb => Sys2Proof.Machine.execOr xd xa xb s
  | .xor xd xa xb => Sys2Proof.Machine.execXor xd xa xb s
  | .andn xd xa xb => Sys2Proof.Machine.execAndn xd xa xb s
  | .andi xd xa imm => Sys2Proof.Machine.execAndi xd xa imm s
  | .ori xd xa imm => Sys2Proof.Machine.execOri xd xa imm s
  | .xori xd xa imm => Sys2Proof.Machine.execXori xd xa imm s
  | .shl xd xa xb => Sys2Proof.Machine.execShl xd xa xb s
  | .shli xd xa sh => Sys2Proof.Machine.execShli xd xa sh s
  | .shrZ xd xa xb => Sys2Proof.Machine.execShrZ xd xa xb s
  | .shriZ xd xa sh => Sys2Proof.Machine.execShriZ xd xa sh s
  | .shrS xd xa xb => Sys2Proof.Machine.execShrS xd xa xb s
  | .shriS xd xa sh => Sys2Proof.Machine.execShriS xd xa sh s
  | .rot xd xa xb => Sys2Proof.Machine.execRot xd xa xb s
  | .roti xd xa sh => Sys2Proof.Machine.execRoti xd xa sh s
  | .minS xd xa xb => Sys2Proof.Machine.execMinS xd xa xb s
  | .minZ xd xa xb => Sys2Proof.Machine.execMinZ xd xa xb s
  | .maxS xd xa xb => Sys2Proof.Machine.execMaxS xd xa xb s
  | .maxZ xd xa xb => Sys2Proof.Machine.execMaxZ xd xa xb s
  | .abs xd xa => Sys2Proof.Machine.execAbs xd xa s
  | .clz xd xa => Sys2Proof.Machine.execClz xd xa s
  | .ctz xd xa => Sys2Proof.Machine.execCtz xd xa s
  | .popc xd xa => Sys2Proof.Machine.execPopc xd xa s
  | .bswap xd xa => Sys2Proof.Machine.execBswap xd xa s
  | .bextS xd xa p w1 => Sys2Proof.Machine.execBextS xd xa p w1 s
  | .bextZ xd xa p w1 => Sys2Proof.Machine.execBextZ xd xa p w1 s
  | .bins xd xa p w1 => Sys2Proof.Machine.execBins xd xa p w1 s
  | .sext8 xd xa => Sys2Proof.Machine.execSext8 xd xa s
  | .sext16 xd xa => Sys2Proof.Machine.execSext16 xd xa s
  | .sext32 xd xa => Sys2Proof.Machine.execSext32 xd xa s
  | .movi xd imm => Sys2Proof.Machine.execMovi xd imm s
  | .movk xd lane imm => Sys2Proof.Machine.execMovk xd lane imm s
  | .movx xd imm => Sys2Proof.Machine.execMovx xd imm s
  | .sel xd xa xb pc => Sys2Proof.Machine.execSel xd xa xb pc s
  | .pand pd pa pb => Sys2Proof.Machine.execPand pd pa pb s
  | .por pd pa pb => Sys2Proof.Machine.execPor pd pa pb s
  | .pxor pd pa pb => Sys2Proof.Machine.execPxor pd pa pb s
  | .pandn pd pa pb => Sys2Proof.Machine.execPandn pd pa pb s
  | .pmov pd pa => Sys2Proof.Machine.execPmov pd pa s
  | .pmk xd xa xc sp => Sys2Proof.Machine.execPmk xd xa xc sp s
  | .padd xd xa xb => Sys2Proof.Machine.execPadd xd xa xb s
  | .paddi xd xa imm => Sys2Proof.Machine.execPaddi xd xa imm s
  | .pset xd xa xb f => Sys2Proof.Machine.execPset xd xa xb f s
  | .pget xd xa f => Sys2Proof.Machine.execPget xd xa f s
  | .pidx r xb => Sys2Proof.Machine.execPidx r xb s
  | .fsgnAbs xd xa => Sys2Proof.Machine.execFsgnAbs xd xa s
  | .fsgnNeg xd xa => Sys2Proof.Machine.execFsgnNeg xd xa s
  | .fsgnCopy xd xa xb => Sys2Proof.Machine.execFsgnCopy xd xa xb s
  | .fadd xd xa xb => Sys2Proof.Machine.execFadd xd xa xb s
  | .fsub xd xa xb => Sys2Proof.Machine.execFsub xd xa xb s
  | .fmul xd xa xb => Sys2Proof.Machine.execFmul xd xa xb s
  | .ffma xd xa xb xc => Sys2Proof.Machine.execFfma xd xa xb xc s
  | .ffms xd xa xb xc => Sys2Proof.Machine.execFfms xd xa xb xc s
  | .fnma xd xa xb xc => Sys2Proof.Machine.execFnma xd xa xb xc s
  | .fnms xd xa xb xc => Sys2Proof.Machine.execFnms xd xa xb xc s
  | .fdiv xd xa xb => Sys2Proof.Machine.execFdiv xd xa xb s
  | .fsqrt xd xa => Sys2Proof.Machine.execFsqrt xd xa s
  | .fmin xd xa xb => Sys2Proof.Machine.execFmin xd xa xb s
  | .fmax xd xa xb => Sys2Proof.Machine.execFmax xd xa xb s
  | .fclass xd xa => Sys2Proof.Machine.execFclass xd xa s
  | .fcmpEq pd xa xb => Sys2Proof.Machine.execFcmpEq pd xa xb s
  | .fcmpLt pd xa xb => Sys2Proof.Machine.execFcmpLt pd xa xb s
  | .fcmpLe pd xa xb => Sys2Proof.Machine.execFcmpLe pd xa xb s
  | .fcmpUn pd xa xb => Sys2Proof.Machine.execFcmpUn pd xa xb s
  | .fcvtF32S32 xd xa => Sys2Proof.Machine.execFcvtF32S32 xd xa s
  | .fcvtS32F32Rz xd xa => Sys2Proof.Machine.execFcvtS32F32Rz xd xa s
  | .fcvtS32F32Rn xd xa => Sys2Proof.Machine.execFcvtS32F32Rn xd xa s
  | .fcvtF32Z32 xd xa => Sys2Proof.Machine.execFcvtF32Z32 xd xa s
  | .fcvtBf16F32Rn xd xa sat => Sys2Proof.Machine.execFcvtBf16F32Rn xd xa sat s
  | .fcvtBf16F32Sr xd xa xb sat => Sys2Proof.Machine.execFcvtBf16F32Sr xd xa xb sat s
  | .fcvtF32Bf16 xd xa => Sys2Proof.Machine.execFcvtF32Bf16 xd xa s
  | .fcvtF16 xd xa f => Sys2Proof.Machine.execFcvtF16 xd xa f s
  | .cmpEq pd xa xb => Sys2Proof.Machine.execCmpEq pd xa xb s
  | .cmpNe pd xa xb => Sys2Proof.Machine.execCmpNe pd xa xb s
  | .cmpLtS pd xa xb => Sys2Proof.Machine.execCmpLtS pd xa xb s
  | .cmpLtZ pd xa xb => Sys2Proof.Machine.execCmpLtZ pd xa xb s
  | .cmpLeS pd xa xb => Sys2Proof.Machine.execCmpLeS pd xa xb s
  | .cmpLeZ pd xa xb => Sys2Proof.Machine.execCmpLeZ pd xa xb s
  | .cmpiEq pd xa imm => Sys2Proof.Machine.execCmpiEq pd xa imm s
  | .cmpiNe pd xa imm => Sys2Proof.Machine.execCmpiNe pd xa imm s
  | .cmpiLtS pd xa imm => Sys2Proof.Machine.execCmpiLtS pd xa imm s
  | .cmpiLtZ pd xa imm => Sys2Proof.Machine.execCmpiLtZ pd xa imm s
  | .cmpiLeS pd xa imm => Sys2Proof.Machine.execCmpiLeS pd xa imm s
  | .nop => Sys2Proof.Machine.execNop s
  | .ret => Sys2Proof.Machine.execRet s
  | .yield => Sys2Proof.Machine.execYield s
  | .halt => Sys2Proof.Machine.execHalt s
  | .taskend => Sys2Proof.Machine.execTaskend s
  | .abort => Sys2Proof.Machine.execAbort s
  | .eret => Sys2Proof.Machine.execEret s
  | .idle => Sys2Proof.Machine.execIdle s
  | .yieldWake => Sys2Proof.Machine.execYieldWake s
  | .waitrWake => Sys2Proof.Machine.execWaitrWake s
  | .moveatArrival => Sys2Proof.Machine.execMoveatArrival s
  | .waitvMonitorFree => Sys2Proof.Machine.execWaitvMonitorFree s
  | .reservationGrant => Sys2Proof.Machine.execReservationGrant s
  | .reservationRevokeTimeout => Sys2Proof.Machine.execReservationRevokeTimeout s
  | .copyChunkStart => Sys2Proof.Machine.execCopyChunkStart s
  | .copyChunkAck => Sys2Proof.Machine.execCopyChunkAck s
  | .copyTransferEnd => Sys2Proof.Machine.execCopyTransferEnd s
  | .inputFetchStart => Sys2Proof.Machine.execInputFetchStart s
  | .pageFetchStart => Sys2Proof.Machine.execPageFetchStart s
  | .messageArrival => Sys2Proof.Machine.execMessageArrival s
  | .messageAccept => Sys2Proof.Machine.execMessageAccept s
  | .heldMessageSend => Sys2Proof.Machine.execHeldMessageSend s
  | .treeContributionCombine => Sys2Proof.Machine.execTreeContributionCombine s
  | .treeRoundComplete => Sys2Proof.Machine.execTreeRoundComplete s
  | .treeResultDelivery => Sys2Proof.Machine.execTreeResultDelivery s
  | .tokenArrival => Sys2Proof.Machine.execTokenArrival s
  | .counterArrival => Sys2Proof.Machine.execCounterArrival s
  | .triggerFire => Sys2Proof.Machine.execTriggerFire s
  | .collectiveComplete => Sys2Proof.Machine.execCollectiveComplete s
  | .repartitionStart => Sys2Proof.Machine.execRepartitionStart s
  | .repartitionHistogramResult => Sys2Proof.Machine.execRepartitionHistogramResult s
  | .repartitionItemArrival => Sys2Proof.Machine.execRepartitionItemArrival s
  | .repartitionComplete => Sys2Proof.Machine.execRepartitionComplete s
  | .tileArrive => Sys2Proof.Machine.execTileArrive s
  | .arriveReceipt => Sys2Proof.Machine.execArriveReceipt s
  | .rootDecide => Sys2Proof.Machine.execRootDecide s
  | .commitApply => Sys2Proof.Machine.execCommitApply s
  | .abortApply => Sys2Proof.Machine.execAbortApply s
  | .doneReceipt => Sys2Proof.Machine.execDoneReceipt s
  | .openReceipt => Sys2Proof.Machine.execOpenReceipt s
  | .saveFirkin => Sys2Proof.Machine.execSaveFirkin s
  | .firkinRestore => Sys2Proof.Machine.execFirkinRestore s
  | .xinvComplete => Sys2Proof.Machine.execXinvComplete s
  | .gangStopArrival => Sys2Proof.Machine.execGangStopArrival s
  | .gangResume => Sys2Proof.Machine.execGangResume s
  | .stonesArrival => Sys2Proof.Machine.execStonesArrival s
  | .divideComplete => Sys2Proof.Machine.execDivideComplete s
  | .vectorCommandStart => Sys2Proof.Machine.execVectorCommandStart s
  | .vectorCommandComplete => Sys2Proof.Machine.execVectorCommandComplete s
  | .rotbPanelArrival => Sys2Proof.Machine.execRotbPanelArrival s
  | .matrixCommandStart => Sys2Proof.Machine.execMatrixCommandStart s
  | .matrixCommandComplete => Sys2Proof.Machine.execMatrixCommandComplete s
  | .bundleFetch => Sys2Proof.Machine.execBundleFetch s
  | .taskPop => Sys2Proof.Machine.execTaskPop s
  | .stealRequest => Sys2Proof.Machine.execStealRequest s
  | .stealRequestService => Sys2Proof.Machine.execStealRequestService s
  | .stealReply => Sys2Proof.Machine.execStealReply s
  | .stealBackoffExpiry => Sys2Proof.Machine.execStealBackoffExpiry s
  | .bankRetentionEntry => Sys2Proof.Machine.execBankRetentionEntry s
  | .bankWake => Sys2Proof.Machine.execBankWake s
  | .remoteAccessService => Sys2Proof.Machine.execRemoteAccessService s
  | .translationWalk => Sys2Proof.Machine.execTranslationWalk s
  | .forwardedAccess => Sys2Proof.Machine.execForwardedAccess s
  | .replyArrival => Sys2Proof.Machine.execReplyArrival s
  | .deferredFaultTrap => Sys2Proof.Machine.execDeferredFaultTrap s
  | .packetGrant => Sys2Proof.Machine.execPacketGrant s
  | .rejectNoticeArrival => Sys2Proof.Machine.execRejectNoticeArrival s
  | .pathLostNotice => Sys2Proof.Machine.execPathLostNotice s
  | .trapEntry => Sys2Proof.Machine.execTrapEntry s
  | .asyncCauseTaken => Sys2Proof.Machine.execAsyncCauseTaken s
  | .sliceTimerExpiry => Sys2Proof.Machine.execSliceTimerExpiry s
  | .preemptDeadlineExpiry => Sys2Proof.Machine.execPreemptDeadlineExpiry s
  | .entryMakeResident => Sys2Proof.Machine.execEntryMakeResident s
  | .launchSlotWrite => Sys2Proof.Machine.execLaunchSlotWrite s
  | .launchStart => Sys2Proof.Machine.execLaunchStart s
  | .directoryEntryWrite => Sys2Proof.Machine.execDirectoryEntryWrite s
  | .regionHeaderWrite => Sys2Proof.Machine.execRegionHeaderWrite s
  | .contextEntryWrite => Sys2Proof.Machine.execContextEntryWrite s
  | .contextKick => Sys2Proof.Machine.execContextKick s
  | .bar4Read => Sys2Proof.Machine.execBar4Read s
  | .bar4Write => Sys2Proof.Machine.execBar4Write s
  | .interruptCauseClear => Sys2Proof.Machine.execInterruptCauseClear s
  | .hostRegisterWrite => Sys2Proof.Machine.execHostRegisterWrite s
  | .getVersion => Sys2Proof.Machine.execGetVersion s
  | .getCapabilities => Sys2Proof.Machine.execGetCapabilities s
  | .negotiateAlgorithms => Sys2Proof.Machine.execNegotiateAlgorithms s
  | .getDigests => Sys2Proof.Machine.execGetDigests s
  | .getCertificate => Sys2Proof.Machine.execGetCertificate s
  | .challenge => Sys2Proof.Machine.execChallenge s
  | .getMeasurements => Sys2Proof.Machine.execGetMeasurements s
  | .deviceReset => Sys2Proof.Machine.execDeviceReset s
  | .discoveryFlood => Sys2Proof.Machine.execDiscoveryFlood s
  | .discoveryTimeout => Sys2Proof.Machine.execDiscoveryTimeout s
  | .mapInstallRequest => Sys2Proof.Machine.execMapInstallRequest s
  | .pwrbalWrite => Sys2Proof.Machine.execPwrbalWrite s
  | .powerAverageUpdate => Sys2Proof.Machine.execPowerAverageUpdate s
  | .dutyRecompute => Sys2Proof.Machine.execDutyRecompute s
  | .energyInterval => Sys2Proof.Machine.execEnergyInterval s
  | .scrubSector => Sys2Proof.Machine.execScrubSector s
  | .tileLost => Sys2Proof.Machine.execTileLost s
  | .railSliceError => Sys2Proof.Machine.execRailSliceError s
  | .railLost => Sys2Proof.Machine.execRailLost s
  | .pause => Sys2Proof.Machine.execPause s
  | .resume => Sys2Proof.Machine.execResume s
  | .repair => Sys2Proof.Machine.execRepair s
  | .retrain => Sys2Proof.Machine.execRetrain s
  | .clrerr => Sys2Proof.Machine.execClrerr s
  | .linkCommandComplete => Sys2Proof.Machine.execLinkCommandComplete s
  | .linkEventDelivery => Sys2Proof.Machine.execLinkEventDelivery s
  | .keepCopyComplete => Sys2Proof.Machine.execKeepCopyComplete s
  | .ownTlmLoadReturn => Sys2Proof.Machine.execOwnTlmLoadReturn s
  | .packetArrival => Sys2Proof.Machine.execPacketArrival s
  | .receiveBufferEntryRetired => Sys2Proof.Machine.execReceiveBufferEntryRetired s
  | .memoryBitError => Sys2Proof.Machine.execMemoryBitError s

end Sys2Proof.Machine
end

