-- ==== Sys2Proof/Machine/Operands.lean ====
section
/-! DEFINITION. Operand forms: the registers that each instruction reads and writes, for the scoreboard, the write-conflict
trap and the stall shadows (02 R28-R30, R42-R44, 04 R75). -/

namespace Sys2Proof

open Sys2Proof.Machine (RegName)

/-- The registers of an offset. -/
def Disp.regs : Disp → List RegName
  | .index xi => [.x xi]
  | .units _ | .bytes _ => []

/-- The registers that form a memory operand's address. -/
def MemOp.regs (m : MemOp) : List RegName := .x m.base :: m.disp.regs

/-- The register that two forms of PMK use beside ra and rc. -/
def PmkSpace.regs : PmkSpace → List RegName
  | .tlm xb | .peer xb => [.x xb]
  | .ver | .imm => []

/-- The single source of PIDX. -/
def PidxRegs.srcs : PidxRegs → List RegName
  | .one _ xa => [.x xa]
  | .pair .. => []

/-- The scaled source pair of `pidx.pair`. -/
def PidxRegs.srcPairs : PidxRegs → List RegPair
  | .pair _ xa => [xa]
  | .one .. => []

/-- The destinations of PIDX: both registers of a pair (02 R30). -/
def PidxRegs.dests : PidxRegs → List RegName
  | .one xd _ => [.x xd]
  | .pair xd _ => [.x xd.even, .x xd.odd]

/-- The scalar source of a vector instruction. -/
def VSrc.regs : VSrc → List RegName
  | .sf xc | .si xc => [.x xc]
  | .array _ => []

/-- The array source of a vector instruction. -/
def VSrc.pair : VSrc → List RegPair
  | .array xc => [xc]
  | .sf _ | .si _ => []

/-- The second source of a bitwise vector instruction. -/
def VBits.regs : VBits → List RegName
  | .array xc | .sb xc => [.x xc]

/-- The scalar of VFILL. -/
def VScalar.regs : VScalar → List RegName
  | .fp32 xc | .si xc => [.x xc]

/-- The source of SLKSET. -/
def SlkSrc.regs : SlkSrc → List RegName
  | .reg xa => [.x xa]
  | .grains _ => []

/-- An optional register. -/
def optReg : Option Reg → List RegName
  | some r => [.x r]
  | none => []

/-- The registers that an instruction always reads, without scaled source pairs. -/
def Instr.srcs : Instr → List RegName
  | .vadd xd xa _ src | .vsub xd xa _ src | .vmul xd xa _ src | .vfma xd xa _ src | .vmin xd xa _ src |
    .vmax xd xa _ src | .vdiv xd xa _ src | .vcmpEq xd xa _ src | .vcmpLt xd xa _ src | .vcmpLe xd xa _ src |
    .vsel xd xa _ src | .vfill xd xa src =>
    [.x xd, .x xa] ++ src.regs
  | .vabs xd xa _ | .vneg xd xa _ | .vcvt xd xa _ | .vsum xd xa _ | .vamax xd xa _ | .vdot xd xa _ _ |
    .vscan xd xa _ _ | .vexp2 xd xa _ | .vsqrt xd xa _ | .vrsq xd xa _ | .bins xd xa _ _ =>
    [.x xd, .x xa]
  | .vclamp xd xa _ xc | .vdq xd xa _ xc | .viota xd xa xc | .vgath xd xa _ xc | .vscat xd xa _ xc =>
    [.x xd, .x xa, .x xc]
  | .vqnt xd _ _ xc =>
    [.x xd, .x xc]
  | .vmxs xd _ _ | .movk xd _ _ | .movx xd _ =>
    [.x xd]
  | .vsortk xd xa xb perm =>
    [.x xd, .x xa, .x xb] ++ (optReg perm)
  | .vhist xd xa xb xc _ | .vshl xd xa xb xc | .vshrZ xd xa xb xc | .vshrS xd xa xb xc =>
    [.x xd, .x xa, .x xb, .x xc]
  | .vand xd xa xb src | .vor xd xa xb src | .vxor xd xa xb src | .vandn xd xa xb src =>
    [.x xd, .x xa, .x xb] ++ src.regs
  | .mcfg _ xa | .br xa | .brl xa | .loop xa _ | .haltKeep xa | .spawn xa _ | .join xa | .leave xa | .gbar xa |
    .waitr xa _ | .moveat xa _ _ | .lrw32 _ xa _ | .lrw64 _ xa _ | .rlsv _ xa _ | .cpcan _ xa | .cpqry _ xa |
    .inpeek _ xa | .tgrp _ xa | .token xa _ | .tclr xa | .rpcfg xa | .rpstat _ xa | .syncr _ xa _ | .vote xa |
    .undoq _ xa | .bdef _ xa | .slkev _ xa | .csrw _ xa _ | .csrs _ xa _ | .csrc _ xa _ | .gstop xa | .addi _ xa _ |
    .muli _ xa _ | .andi _ xa _ | .ori _ xa _ | .xori _ xa _ | .shli _ xa _ | .shriZ _ xa _ | .shriS _ xa _ |
    .roti _ xa _ | .abs _ xa | .clz _ xa | .ctz _ xa | .popc _ xa | .bswap _ xa | .bextS _ xa _ _ | .bextZ _ xa _ _ |
    .sext8 _ xa | .sext16 _ xa | .sext32 _ xa | .paddi _ xa _ | .pget _ xa _ | .fsgnAbs _ xa | .fsgnNeg _ xa |
    .fsqrt _ xa | .fclass _ xa | .fcvtF32S32 _ xa | .fcvtS32F32Rz _ xa | .fcvtS32F32Rn _ xa | .fcvtF32Z32 _ xa |
    .fcvtBf16F32Rn _ xa _ | .fcvtF32Bf16 _ xa | .fcvtF16 _ xa _ | .cmpiEq _ xa _ | .cmpiNe _ xa _ | .cmpiLtS _ xa _ |
    .cmpiLtZ _ xa _ | .cmpiLeS _ xa _ =>
    [.x xa]
  | .mzero _ xc | .latb _ _ xc | .mmaE4m3 _ _ _ xc _ | .mmaE5m2 _ _ _ xc _ | .mmaE3m2 _ _ _ xc _ |
    .mmaE2m3 _ _ _ xc _ | .mmaE2m1 _ _ _ xc _ | .mmaBf16 _ _ _ xc _ | .mmaF16 _ _ _ xc _ | .mmaS8 _ _ _ xc _ |
    .mmalE4m3 _ _ xc _ | .mmalE5m2 _ _ xc _ | .mmalE3m2 _ _ xc _ | .mmalE2m3 _ _ xc _ | .mmalE2m1 _ _ xc _ |
    .mmalBf16 _ _ xc _ | .mmalF16 _ _ xc _ | .mmalS8 _ _ xc _ =>
    [.x xc]
  | .rotb .. | .bri .. | .brli .. | .sigchk .. | .fence .. | .cpsrc .. | .cpdst .. | .cpgo .. | .pflClr .. |
    .sync .. | .ssnum .. | .slkget .. | .trap .. | .movi .. | .nop | .yield | .halt | .taskend | .abort | .eret |
    .idle | .yieldWake | .waitrWake | .moveatArrival | .waitvMonitorFree | .reservationGrant |
    .reservationRevokeTimeout | .copyChunkStart | .copyChunkAck | .copyTransferEnd | .inputFetchStart |
    .pageFetchStart | .messageArrival | .messageAccept | .heldMessageSend | .treeContributionCombine |
    .treeRoundComplete | .treeResultDelivery | .tokenArrival | .counterArrival | .triggerFire | .collectiveComplete |
    .repartitionStart | .repartitionHistogramResult | .repartitionItemArrival | .repartitionComplete | .tileArrive |
    .arriveReceipt | .rootDecide | .commitApply | .abortApply | .doneReceipt | .openReceipt | .saveFirkin |
    .firkinRestore | .xinvComplete | .gangStopArrival | .gangResume | .stonesArrival | .divideComplete |
    .vectorCommandStart | .vectorCommandComplete | .rotbPanelArrival | .matrixCommandStart | .matrixCommandComplete |
    .bundleFetch | .taskPop | .stealRequest | .stealRequestService | .stealReply | .stealBackoffExpiry |
    .bankRetentionEntry | .bankWake | .remoteAccessService | .translationWalk | .forwardedAccess | .replyArrival |
    .deferredFaultTrap | .packetGrant | .rejectNoticeArrival | .pathLostNotice | .trapEntry | .asyncCauseTaken |
    .sliceTimerExpiry | .preemptDeadlineExpiry | .entryMakeResident | .launchSlotWrite | .launchStart |
    .directoryEntryWrite | .regionHeaderWrite | .contextEntryWrite | .contextKick | .bar4Read | .bar4Write |
    .interruptCauseClear | .hostRegisterWrite | .getVersion | .getCapabilities | .negotiateAlgorithms | .getDigests |
    .getCertificate | .challenge | .getMeasurements | .deviceReset | .discoveryFlood | .discoveryTimeout |
    .mapInstallRequest | .pwrbalWrite | .powerAverageUpdate | .dutyRecompute | .energyInterval | .scrubSector |
    .tileLost | .railSliceError | .railLost | .pause | .resume | .repair | .retrain | .clrerr | .linkCommandComplete |
    .linkEventDelivery | .keepCopyComplete | .ownTlmLoadReturn | .packetArrival | .receiveBufferEntryRetired |
    .memoryBitError =>
    []
  | .mst _ xa xc _ _ | .mldc _ xa xc _ | .mscl _ xa xc _ =>
    [.x xa, .x xc]
  | .beq xa xb _ | .bne xa xb _ | .bltS xa xb _ | .bltZ xa xb _ | .bgeS xa xb _ | .bgeZ xa xb _ | .waitvEq _ xa xb _ |
    .waitvNe _ xa xb _ | .waitvGeS _ xa xb _ | .waitvEq32 _ xa xb _ | .sch32 _ xa xb _ | .sch64 _ xa xb _ |
    .amoAdd _ xa xb _ | .amoAnd _ xa xb _ | .amoOr _ xa xb _ | .amoXor _ xa xb _ | .amoMinS _ xa xb _ |
    .amoMaxS _ xa xb _ | .amoMinZ _ xa xb _ | .amoMaxZ _ xa xb _ | .amoSwap _ xa xb _ | .amoAdd32 _ xa xb _ |
    .amoSwap32 _ xa xb _ | .amoFaddF32 _ xa xb _ | .redAddS64 xa xb _ | .redAddF32 xa xb _ | .redAddBf16 xa xb _ |
    .redAddBf16Sr xa xb _ | .redMinS64 xa xb _ | .redMaxS64 xa xb _ | .redMaxF32 xa xb _ | .redOr64 xa xb _ |
    .cpshp xa xb | .cpstr xa xb | .pflAdd _ xa xb _ | .recv _ xa xb | .recvNb _ xa xb | .tcon xa xb _ |
    .tconV xa xb _ | .tget _ xa xb | .tarm xa xb | .tcnt xa xb _ | .collAllred _ xa xb _ | .collBcast _ xa xb _ |
    .collAllgat _ xa xb _ | .collRedsc _ xa xb _ | .mapt _ xa xb _ | .xinv xa xb _ | .pwgive _ xa xb _ |
    .clkepoch _ xa xb | .add _ xa xb | .sub _ xa xb | .mul _ xa xb | .mulhS _ xa xb | .mulhZ _ xa xb | .divS _ xa xb |
    .divZ _ xa xb | .remS _ xa xb | .remZ _ xa xb | .and _ xa xb | .or _ xa xb | .xor _ xa xb | .andn _ xa xb |
    .shl _ xa xb | .shrZ _ xa xb | .shrS _ xa xb | .rot _ xa xb | .minS _ xa xb | .minZ _ xa xb | .maxS _ xa xb |
    .maxZ _ xa xb | .padd _ xa xb | .pset _ xa xb _ | .fsgnCopy _ xa xb | .fadd _ xa xb | .fsub _ xa xb |
    .fmul _ xa xb | .fdiv _ xa xb | .fmin _ xa xb | .fmax _ xa xb | .fcmpEq _ xa xb | .fcmpLt _ xa xb |
    .fcmpLe _ xa xb | .fcmpUn _ xa xb | .fcvtBf16F32Sr _ xa xb _ | .cmpEq _ xa xb | .cmpNe _ xa xb | .cmpLtS _ xa xb |
    .cmpLtZ _ xa xb | .cmpLeS _ xa xb | .cmpLeZ _ xa xb =>
    [.x xa, .x xb]
  | .ldS8 _ m | .ldZ8 _ m | .ldS16 _ m | .ldZ16 _ m | .ldS32 _ m | .ldZ32 _ m | .ld64 _ m | .ldp _ m | .ldf _ m |
    .pref m | .ld64Pi _ m | .ldfPi _ m | .lda32 _ m | .lda64 _ m =>
    m.regs
  | .st8 xd m | .st16 xd m | .st32 xd m | .st64 xd m | .stf xd m | .st64Pi xd m | .stfPi xd m | .stl32 xd m |
    .stl64 xd m =>
    [.x xd] ++ m.regs
  | .stp xd m =>
    [.x xd.even, .x xd.odd] ++ m.regs
  | .cas32 _ xa xb _ | .cas64 _ xa xb _ =>
    [.x xa, .x xb.even, .x xb.odd]
  | .cpgoMc _ _ xm _ =>
    [.x xm]
  | .send xa xb xc _ | .ffma _ xa xb xc | .ffms _ xa xb xc | .fnma _ xa xb xc | .fnms _ xa xb xc =>
    [.x xa, .x xb, .x xc]
  | .sendl xd xa xb _ =>
    [.x xd, .x xa, .x xb]
  | .rpgo _ xa xb _ | .rpgoFine _ xa xb _ =>
    [.x xa.even, .x xa.odd, .x xb]
  | .slkset _ src =>
    src.regs
  | .csrr _ xa num =>
    (if num = 0x016 then [.x xa] else [])
  | .sel _ xa xb pc =>
    [.x xa, .x xb, .p pc]
  | .pand _ pa pb | .por _ pa pb | .pxor _ pa pb | .pandn _ pa pb =>
    [.p pa, .p pb]
  | .pmov _ pa =>
    [.p pa]
  | .pmk _ xa xc sp =>
    [.x xa, .x xc] ++ sp.regs
  | .pidx r xb =>
    r.srcs ++ [.x xb]
  | .ret =>
    [.x 15]

/-- The scaled source pairs of an instruction: the even register is read, and the odd one when the even one holds a
pointer with BLK ≠ 0 (04 R75). -/
def Instr.pairs : Instr → List RegPair
  | .vadd _ _ xb src | .vsub _ _ xb src | .vmul _ _ xb src | .vfma _ _ xb src | .vmin _ _ xb src | .vmax _ _ xb src |
    .vdiv _ _ xb src | .vcmpEq _ _ xb src | .vcmpLt _ _ xb src | .vcmpLe _ _ xb src | .vsel _ _ xb src =>
    [xb] ++ src.pair
  | .vabs _ _ xb | .vneg _ _ xb | .vclamp _ _ xb _ | .vcvt _ _ xb | .vdq _ _ xb _ | .vsum _ _ xb | .vamax _ _ xb |
    .vscan _ _ xb _ | .vexp2 _ _ xb | .vsqrt _ _ xb | .vrsq _ _ xb | .vgath _ _ xb _ | .vscat _ _ xb _ =>
    [xb]
  | .vqnt _ xa xb _ | .vmxs _ xa xb | .mmaE4m3 _ xa xb _ _ | .mmaE5m2 _ xa xb _ _ | .mmaE3m2 _ xa xb _ _ |
    .mmaE2m3 _ xa xb _ _ | .mmaE2m1 _ xa xb _ _ | .mmaBf16 _ xa xb _ _ | .mmaF16 _ xa xb _ _ | .mmaS8 _ xa xb _ _ =>
    [xa, xb]
  | .vdot _ _ xb xc =>
    [xb, xc]
  | .vfill .. | .viota .. | .vsortk .. | .vhist .. | .vand .. | .vor .. | .vxor .. | .vandn .. | .vshl .. |
    .vshrZ .. | .vshrS .. | .mcfg .. | .mzero .. | .rotb .. | .mst .. | .mldc .. | .mscl .. | .br .. | .brl .. |
    .bri .. | .brli .. | .loop .. | .beq .. | .bne .. | .bltS .. | .bltZ .. | .bgeS .. | .bgeZ .. | .haltKeep .. |
    .sigchk .. | .spawn .. | .join .. | .leave .. | .gbar .. | .waitr .. | .moveat .. | .ldS8 .. | .ldZ8 .. |
    .ldS16 .. | .ldZ16 .. | .ldS32 .. | .ldZ32 .. | .ld64 .. | .st8 .. | .st16 .. | .st32 .. | .st64 .. | .ldp .. |
    .stp .. | .ldf .. | .stf .. | .pref .. | .ld64Pi .. | .st64Pi .. | .ldfPi .. | .stfPi .. | .lda32 .. | .lda64 .. |
    .stl32 .. | .stl64 .. | .waitvEq .. | .waitvNe .. | .waitvGeS .. | .waitvEq32 .. | .lrw32 .. | .lrw64 .. |
    .sch32 .. | .sch64 .. | .rlsv .. | .amoAdd .. | .amoAnd .. | .amoOr .. | .amoXor .. | .amoMinS .. | .amoMaxS .. |
    .amoMinZ .. | .amoMaxZ .. | .amoSwap .. | .amoAdd32 .. | .amoSwap32 .. | .cas32 .. | .cas64 .. | .amoFaddF32 .. |
    .redAddS64 .. | .redAddF32 .. | .redAddBf16 .. | .redAddBf16Sr .. | .redMinS64 .. | .redMaxS64 .. |
    .redMaxF32 .. | .redOr64 .. | .fence .. | .cpshp .. | .cpstr .. | .cpgo .. | .cpgoMc .. | .cpcan .. | .cpqry .. |
    .pflAdd .. | .pflClr .. | .send .. | .sendl .. | .recv .. | .recvNb .. | .inpeek .. | .tcon .. | .tconV .. |
    .tget .. | .tgrp .. | .tarm .. | .token .. | .tcnt .. | .tclr .. | .collAllred .. | .collBcast .. |
    .collAllgat .. | .collRedsc .. | .rpcfg .. | .rpgo .. | .rpgoFine .. | .rpstat .. | .sync .. | .syncr .. |
    .vote .. | .ssnum .. | .undoq .. | .bdef .. | .slkset .. | .slkget .. | .slkev .. | .csrr .. | .csrw .. |
    .csrs .. | .csrc .. | .trap .. | .mapt .. | .xinv .. | .gstop .. | .pwgive .. | .clkepoch .. | .add .. | .sub .. |
    .addi .. | .mul .. | .muli .. | .mulhS .. | .mulhZ .. | .divS .. | .divZ .. | .remS .. | .remZ .. | .and .. |
    .or .. | .xor .. | .andn .. | .andi .. | .ori .. | .xori .. | .shl .. | .shli .. | .shrZ .. | .shriZ .. |
    .shrS .. | .shriS .. | .rot .. | .roti .. | .minS .. | .minZ .. | .maxS .. | .maxZ .. | .abs .. | .clz .. |
    .ctz .. | .popc .. | .bswap .. | .bextS .. | .bextZ .. | .bins .. | .sext8 .. | .sext16 .. | .sext32 .. |
    .movi .. | .movk .. | .movx .. | .sel .. | .pand .. | .por .. | .pxor .. | .pandn .. | .pmov .. | .pmk .. |
    .padd .. | .paddi .. | .pset .. | .pget .. | .fsgnAbs .. | .fsgnNeg .. | .fsgnCopy .. | .fadd .. | .fsub .. |
    .fmul .. | .ffma .. | .ffms .. | .fnma .. | .fnms .. | .fdiv .. | .fsqrt .. | .fmin .. | .fmax .. | .fclass .. |
    .fcmpEq .. | .fcmpLt .. | .fcmpLe .. | .fcmpUn .. | .fcvtF32S32 .. | .fcvtS32F32Rz .. | .fcvtS32F32Rn .. |
    .fcvtF32Z32 .. | .fcvtBf16F32Rn .. | .fcvtBf16F32Sr .. | .fcvtF32Bf16 .. | .fcvtF16 .. | .cmpEq .. | .cmpNe .. |
    .cmpLtS .. | .cmpLtZ .. | .cmpLeS .. | .cmpLeZ .. | .cmpiEq .. | .cmpiNe .. | .cmpiLtS .. | .cmpiLtZ .. |
    .cmpiLeS .. | .nop | .ret | .yield | .halt | .taskend | .abort | .eret | .idle | .yieldWake | .waitrWake |
    .moveatArrival | .waitvMonitorFree | .reservationGrant | .reservationRevokeTimeout | .copyChunkStart |
    .copyChunkAck | .copyTransferEnd | .inputFetchStart | .pageFetchStart | .messageArrival | .messageAccept |
    .heldMessageSend | .treeContributionCombine | .treeRoundComplete | .treeResultDelivery | .tokenArrival |
    .counterArrival | .triggerFire | .collectiveComplete | .repartitionStart | .repartitionHistogramResult |
    .repartitionItemArrival | .repartitionComplete | .tileArrive | .arriveReceipt | .rootDecide | .commitApply |
    .abortApply | .doneReceipt | .openReceipt | .saveFirkin | .firkinRestore | .xinvComplete | .gangStopArrival |
    .gangResume | .stonesArrival | .divideComplete | .vectorCommandStart | .vectorCommandComplete |
    .rotbPanelArrival | .matrixCommandStart | .matrixCommandComplete | .bundleFetch | .taskPop | .stealRequest |
    .stealRequestService | .stealReply | .stealBackoffExpiry | .bankRetentionEntry | .bankWake |
    .remoteAccessService | .translationWalk | .forwardedAccess | .replyArrival | .deferredFaultTrap | .packetGrant |
    .rejectNoticeArrival | .pathLostNotice | .trapEntry | .asyncCauseTaken | .sliceTimerExpiry |
    .preemptDeadlineExpiry | .entryMakeResident | .launchSlotWrite | .launchStart | .directoryEntryWrite |
    .regionHeaderWrite | .contextEntryWrite | .contextKick | .bar4Read | .bar4Write | .interruptCauseClear |
    .hostRegisterWrite | .getVersion | .getCapabilities | .negotiateAlgorithms | .getDigests | .getCertificate |
    .challenge | .getMeasurements | .deviceReset | .discoveryFlood | .discoveryTimeout | .mapInstallRequest |
    .pwrbalWrite | .powerAverageUpdate | .dutyRecompute | .energyInterval | .scrubSector | .tileLost |
    .railSliceError | .railLost | .pause | .resume | .repair | .retrain | .clrerr | .linkCommandComplete |
    .linkEventDelivery | .keepCopyComplete | .ownTlmLoadReturn | .packetArrival | .receiveBufferEntryRetired |
    .memoryBitError =>
    []
  | .latb _ xa _ | .mmalE4m3 _ xa _ _ | .mmalE5m2 _ xa _ _ | .mmalE3m2 _ xa _ _ | .mmalE2m3 _ xa _ _ |
    .mmalE2m1 _ xa _ _ | .mmalBf16 _ xa _ _ | .mmalF16 _ xa _ _ | .mmalS8 _ xa _ _ | .cpsrc xa | .cpdst xa =>
    [xa]
  | .pidx r _ =>
    r.srcPairs

/-- The registers that count as destinations (02 R30). -/
def Instr.dests : Instr → List RegName
  | .vadd xd _ _ _ | .vsub xd _ _ _ | .vmul xd _ _ _ | .vfma xd _ _ _ | .vmin xd _ _ _ | .vmax xd _ _ _ |
    .vabs xd _ _ | .vneg xd _ _ | .vclamp xd _ _ _ | .vcvt xd _ _ | .vqnt xd _ _ _ | .vdq xd _ _ _ | .vmxs xd _ _ |
    .vsum xd _ _ | .vamax xd _ _ | .vdot xd _ _ _ | .vscan xd _ _ _ | .vexp2 xd _ _ | .vdiv xd _ _ _ | .vsqrt xd _ _ |
    .vrsq xd _ _ | .vcmpEq xd _ _ _ | .vcmpLt xd _ _ _ | .vcmpLe xd _ _ _ | .vsel xd _ _ _ | .vfill xd _ _ |
    .viota xd _ _ | .vgath xd _ _ _ | .vscat xd _ _ _ | .vsortk xd _ _ _ | .vhist xd _ _ _ _ | .vand xd _ _ _ |
    .vor xd _ _ _ | .vxor xd _ _ _ | .vandn xd _ _ _ | .vshl xd _ _ _ | .vshrZ xd _ _ _ | .vshrS xd _ _ _ |
    .mcfg xd _ | .mzero xd _ | .latb xd _ _ | .rotb xd _ | .mst xd _ _ _ _ | .mldc xd _ _ _ | .mscl xd _ _ _ |
    .mmaE4m3 xd _ _ _ _ | .mmaE5m2 xd _ _ _ _ | .mmaE3m2 xd _ _ _ _ | .mmaE2m3 xd _ _ _ _ | .mmaE2m1 xd _ _ _ _ |
    .mmaBf16 xd _ _ _ _ | .mmaF16 xd _ _ _ _ | .mmaS8 xd _ _ _ _ | .mmalE4m3 xd _ _ _ | .mmalE5m2 xd _ _ _ |
    .mmalE3m2 xd _ _ _ | .mmalE2m3 xd _ _ _ | .mmalE2m1 xd _ _ _ | .mmalBf16 xd _ _ _ | .mmalF16 xd _ _ _ |
    .mmalS8 xd _ _ _ | .spawn _ xd | .waitr _ xd | .moveat _ xd _ | .ldS8 xd _ | .ldZ8 xd _ | .ldS16 xd _ |
    .ldZ16 xd _ | .ldS32 xd _ | .ldZ32 xd _ | .ld64 xd _ | .ldf xd _ | .lda32 xd _ | .lda64 xd _ | .waitvEq xd _ _ _ |
    .waitvNe xd _ _ _ | .waitvGeS xd _ _ _ | .waitvEq32 xd _ _ _ | .lrw32 xd _ _ | .lrw64 xd _ _ | .amoAdd xd _ _ _ |
    .amoAnd xd _ _ _ | .amoOr xd _ _ _ | .amoXor xd _ _ _ | .amoMinS xd _ _ _ | .amoMaxS xd _ _ _ |
    .amoMinZ xd _ _ _ | .amoMaxZ xd _ _ _ | .amoSwap xd _ _ _ | .amoAdd32 xd _ _ _ | .amoSwap32 xd _ _ _ |
    .cas32 xd _ _ _ | .cas64 xd _ _ _ | .amoFaddF32 xd _ _ _ | .cpqry xd _ | .pflClr xd | .recv xd _ _ |
    .recvNb xd _ _ | .inpeek xd _ | .tget xd _ _ | .tgrp xd _ | .collAllred xd _ _ _ | .collBcast xd _ _ _ |
    .collAllgat xd _ _ _ | .collRedsc xd _ _ _ | .rpgo xd _ _ _ | .rpgoFine xd _ _ _ | .rpstat xd _ | .sync xd |
    .syncr xd _ _ | .ssnum xd | .undoq xd _ | .bdef xd _ | .slkget xd _ | .slkev xd _ | .csrr xd _ _ | .csrw xd _ _ |
    .csrs xd _ _ | .csrc xd _ _ | .mapt xd _ _ _ | .pwgive xd _ _ _ | .clkepoch xd _ _ | .add xd _ _ | .sub xd _ _ |
    .addi xd _ _ | .mul xd _ _ | .muli xd _ _ | .mulhS xd _ _ | .mulhZ xd _ _ | .divS xd _ _ | .divZ xd _ _ |
    .remS xd _ _ | .remZ xd _ _ | .and xd _ _ | .or xd _ _ | .xor xd _ _ | .andn xd _ _ | .andi xd _ _ | .ori xd _ _ |
    .xori xd _ _ | .shl xd _ _ | .shli xd _ _ | .shrZ xd _ _ | .shriZ xd _ _ | .shrS xd _ _ | .shriS xd _ _ |
    .rot xd _ _ | .roti xd _ _ | .minS xd _ _ | .minZ xd _ _ | .maxS xd _ _ | .maxZ xd _ _ | .abs xd _ | .clz xd _ |
    .ctz xd _ | .popc xd _ | .bswap xd _ | .bextS xd _ _ _ | .bextZ xd _ _ _ | .bins xd _ _ _ | .sext8 xd _ |
    .sext16 xd _ | .sext32 xd _ | .movi xd _ | .movk xd _ _ | .movx xd _ | .sel xd _ _ _ | .pmk xd _ _ _ |
    .padd xd _ _ | .paddi xd _ _ | .pset xd _ _ _ | .pget xd _ _ | .fsgnAbs xd _ | .fsgnNeg xd _ | .fsgnCopy xd _ _ |
    .fadd xd _ _ | .fsub xd _ _ | .fmul xd _ _ | .ffma xd _ _ _ | .ffms xd _ _ _ | .fnma xd _ _ _ | .fnms xd _ _ _ |
    .fdiv xd _ _ | .fsqrt xd _ | .fmin xd _ _ | .fmax xd _ _ | .fclass xd _ | .fcvtF32S32 xd _ | .fcvtS32F32Rz xd _ |
    .fcvtS32F32Rn xd _ | .fcvtF32Z32 xd _ | .fcvtBf16F32Rn xd _ _ | .fcvtBf16F32Sr xd _ _ _ | .fcvtF32Bf16 xd _ |
    .fcvtF16 xd _ _ =>
    [.x xd]
  | .br .. | .bri .. | .beq .. | .bne .. | .bltS .. | .bltZ .. | .bgeS .. | .bgeZ .. | .haltKeep .. | .sigchk .. |
    .join .. | .leave .. | .gbar .. | .st8 .. | .st16 .. | .st32 .. | .st64 .. | .stp .. | .stf .. | .pref .. |
    .stl32 .. | .stl64 .. | .redAddS64 .. | .redAddF32 .. | .redAddBf16 .. | .redAddBf16Sr .. | .redMinS64 .. |
    .redMaxS64 .. | .redMaxF32 .. | .redOr64 .. | .fence .. | .cpsrc .. | .cpdst .. | .cpshp .. | .cpstr .. |
    .send .. | .sendl .. | .tcon .. | .tconV .. | .tarm .. | .token .. | .tcnt .. | .tclr .. | .rpcfg .. | .vote .. |
    .slkset .. | .trap .. | .xinv .. | .gstop .. | .nop | .ret | .yield | .halt | .taskend | .abort | .eret | .idle |
    .yieldWake | .waitrWake | .moveatArrival | .waitvMonitorFree | .reservationGrant | .reservationRevokeTimeout |
    .copyChunkStart | .copyChunkAck | .copyTransferEnd | .inputFetchStart | .pageFetchStart | .messageArrival |
    .messageAccept | .heldMessageSend | .treeContributionCombine | .treeRoundComplete | .treeResultDelivery |
    .tokenArrival | .counterArrival | .triggerFire | .collectiveComplete | .repartitionStart |
    .repartitionHistogramResult | .repartitionItemArrival | .repartitionComplete | .tileArrive | .arriveReceipt |
    .rootDecide | .commitApply | .abortApply | .doneReceipt | .openReceipt | .saveFirkin | .firkinRestore |
    .xinvComplete | .gangStopArrival | .gangResume | .stonesArrival | .divideComplete | .vectorCommandStart |
    .vectorCommandComplete | .rotbPanelArrival | .matrixCommandStart | .matrixCommandComplete | .bundleFetch |
    .taskPop | .stealRequest | .stealRequestService | .stealReply | .stealBackoffExpiry | .bankRetentionEntry |
    .bankWake | .remoteAccessService | .translationWalk | .forwardedAccess | .replyArrival | .deferredFaultTrap |
    .packetGrant | .rejectNoticeArrival | .pathLostNotice | .trapEntry | .asyncCauseTaken | .sliceTimerExpiry |
    .preemptDeadlineExpiry | .entryMakeResident | .launchSlotWrite | .launchStart | .directoryEntryWrite |
    .regionHeaderWrite | .contextEntryWrite | .contextKick | .bar4Read | .bar4Write | .interruptCauseClear |
    .hostRegisterWrite | .getVersion | .getCapabilities | .negotiateAlgorithms | .getDigests | .getCertificate |
    .challenge | .getMeasurements | .deviceReset | .discoveryFlood | .discoveryTimeout | .mapInstallRequest |
    .pwrbalWrite | .powerAverageUpdate | .dutyRecompute | .energyInterval | .scrubSector | .tileLost |
    .railSliceError | .railLost | .pause | .resume | .repair | .retrain | .clrerr | .linkCommandComplete |
    .linkEventDelivery | .keepCopyComplete | .ownTlmLoadReturn | .packetArrival | .receiveBufferEntryRetired |
    .memoryBitError =>
    []
  | .brl _ | .brli _ =>
    [.x 15]
  | .loop xa _ =>
    [.x xa]
  | .ldp xd _ =>
    [.x xd.even, .x xd.odd]
  | .ld64Pi xd m | .ldfPi xd m =>
    [.x xd, .x m.base]
  | .st64Pi _ m | .stfPi _ m =>
    [.x m.base]
  | .sch32 pd _ _ _ | .sch64 pd _ _ _ | .rlsv pd _ _ | .cpcan pd _ | .pflAdd pd _ _ _ | .pand pd _ _ | .por pd _ _ |
    .pxor pd _ _ | .pandn pd _ _ | .pmov pd _ | .fcmpEq pd _ _ | .fcmpLt pd _ _ | .fcmpLe pd _ _ | .fcmpUn pd _ _ |
    .cmpEq pd _ _ | .cmpNe pd _ _ | .cmpLtS pd _ _ | .cmpLtZ pd _ _ | .cmpLeS pd _ _ | .cmpLeZ pd _ _ |
    .cmpiEq pd _ _ | .cmpiNe pd _ _ | .cmpiLtS pd _ _ | .cmpiLtZ pd _ _ | .cmpiLeS pd _ _ =>
    [.p pd]
  | .cpgo xi xs _ | .cpgoMc xi xs _ _ =>
    [.x xi, .x xs]
  | .pidx r _ =>
    r.dests

/-- The odd register of a destination pair that is written only when the source pair is scaled (05 R102). -/
def PidxRegs.unwritten (blk : RegPair → Nat) : PidxRegs → List RegName
  | .pair xd xa => if blk xa = 0 then [.x xd.odd] else []
  | .one .. => []

/-- Destinations that the bundle does not write although they count under R30 (02 R29). -/
def Instr.unwritten (blk : RegPair → Nat) (i : Instr) : List RegName :=
  match i with
  | .pidx r _ => r.unwritten blk
  | _ => []

end Sys2Proof

namespace Sys2Proof.Machine

/-- BLK of the pointer in the even register of a pair, as the bundle reads it. -/
def State.pairBlk (s : State) (p : RegPair) : Nat := fieldOf (s.rx p.even) 59 57

/-- A source that the values of the others leave unread: the payload pointer of a message without a payload (15 R333), and the pointer of
TGET on a scalar group (15 R343). -/
def State.unread (s : State) (i : Instr) : List RegName :=
  let alone (r : Reg) (l : List Reg) : List RegName := if l.contains r then [] else [RegName.x r]
  match i with
  | .send xa xb xc _ => if fieldOf (s.rx xc) 21 16 = 0 then alone xb [xa, xc] else []
  | .sendl xd xa xb _ => if fieldOf (s.rx xd) 21 16 = 0 then alone xb [xa, xd] else []
  | .tget _ xa xb =>
    match assoc (s.tile s.cur.tile).core.groups (fieldOf (s.rx xa) 5 0) with
    | some w => if bitOf w 12 then [] else alone xb [xa]
    | none => []
  | _ => []

/-- The registers that an instruction reads as the bundle reads its operands (02 R29, 04 R75). -/
def State.readsOf (s : State) (i : Instr) : List RegName :=
  (i.srcs ++ i.pairs.flatMap fun p =>
    if s.pairBlk p = 0 then [RegName.x p.even] else [RegName.x p.even, RegName.x p.odd]).filter fun r =>
    !(s.unread i).contains r

/-- The registers that an instruction writes (02 R29). -/
def State.writesOf (s : State) (i : Instr) : List RegName :=
  i.dests.filter fun r => !(i.unwritten s.pairBlk).contains r

end Sys2Proof.Machine
end

