-- ==== Sys2Proof/Machine/Issue.lean ====
section
/-! DEFINITION. The issue of one bundle: what is checked before it, in which order, and how its slots take effect
(02 R28-R31, R40-R44, 03 R63, 06 R114, R126, 07 R148, 17 R387). -/

namespace Sys2Proof.Machine

/-- One slot of a bundle: its guard and its instruction. -/
structure Slot where
  guard : Guard
  i     : Instr
  deriving DecidableEq, Repr

end Sys2Proof.Machine

namespace Sys2Proof

/-- The slots that issue, the C slot first (02 R28): the empty A slot names nothing (R33), and a bundle that is issued again
under ASKIP has only its C slot (R31). DESIGN CHOICE: the A slot that is left out is not looked at for the write conflict of R30 either,
while the encoding of its word is still checked (R63, log entry 74). -/
def Bundle.slots (noA : Bool) : Bundle → List Machine.Slot
  | .paired _ gc c ga a => if noA then [⟨gc, c⟩] else [⟨gc, c⟩, ⟨ga, a⟩]
  | .lone _ g i => [⟨g, i⟩]

/-- The stall count of a bundle (02 R40). -/
def Bundle.stallCount : Bundle → Nat
  | .paired n .. | .lone n .. => n.toNat

/-- Whether a bundle is paired. -/
def Bundle.isPaired : Bundle → Bool
  | .paired .. => true
  | .lone .. => false

/-- Whether a bundle holds SIGCHK, which is lone only (06 R134). -/
def Bundle.isSigchk : Bundle → Bool
  | .lone _ _ (.sigchk _) => true
  | _ => false

/-- Whether an instruction meets every deferred fault of its strand (07 R148). -/
def Instr.endsStrand : Instr → Bool
  | .taskend | .halt | .haltKeep _ | .sync _ | .syncr .. => true
  | _ => false

end Sys2Proof

namespace Sys2Proof.Machine

/-- Whether a guard holds (02 R29). -/
def State.guardTrue (s : State) (g : Guard) : Bool := s.rp g.p != g.neg

/-- The register code of TVAL (02 R44). -/
def RegName.code : RegName → Nat
  | .x r => r.toNat
  | .p r => 0x10 + r.toNat

/-- TVAL of a trap that several registers of a bundle call for: the code of the lowest. DESIGN CHOICE: 02 R44 gives the code of one
register and does not say of which (log entry 64). -/
def lowestCode (l : List RegName) : Option Word := (leastBy id (l.map RegName.code)).map word

/-- The registers that a slot reads, its guard among them (02 R29). -/
def State.slotReads (s : State) (sl : Slot) : List RegName := .p sl.guard.p :: s.readsOf sl.i

/-- The registers that a slot writes; ERET writes x12-x15 (02 R29, 17 R388). -/
def State.slotWrites (s : State) (sl : Slot) : List RegName :=
  match sl.i with
  | .eret => [.x 12, .x 13, .x 14, .x 15]
  | i => s.writesOf i

/-- The registers that a slot names (02 R43). -/
def State.slotNames (s : State) (sl : Slot) : List RegName := s.slotReads sl ++ s.slotWrites sl

/-- The write-conflict trap (02 R30): a register that both slots name as a destination, p0 apart. -/
def conflict : List Slot → Option Word
  | [c, a] => lowestCode (c.i.dests.filter fun r => r != .p 0 && a.i.dests.contains r)
  | _ => none

/-- The stall-shadow traps of one slot (02 R42). DESIGN CHOICE: a slot that both reads and writes in a shadow raises 0x020; the two are
of one class and the spec does not say which comes first (log entry 64). -/
def State.shadowTrap (s : State) (st : Strand) (sl : Slot) : Option (Nat × Word) :=
  let shadow (l : List RegName) : List RegName := l.filter fun r => st.flight.any fun f => f.reg == r
  match lowestCode (shadow (s.slotReads sl)) with
  | some v => some (0x020, v)
  | none => (lowestCode (shadow (s.slotWrites sl))).map fun v => (0x021, v)

/-- A trap of the lowest class, the C slot's on equal classes (02 R31). -/
def worstTrap : List (Option (Nat × Word)) → Option (Nat × Word)
  | [] => none
  | none :: l => worstTrap l
  | some t :: l =>
    match worstTrap l with
    | none => some t
    | some u => if u.1 / 32 < t.1 / 32 then some u else some t

/-- The issue in progress of a strand's bundle: what the bundle reads (02 R28). -/
def State.beginIssue (s : State) (k n : Nat) (paired : Bool) : State :=
  let st := s.strand k n
  { s with cur := { s.cur with
      tile := k, slot := n, pc := st.pc, paired := paired, askip := st.askip, fold := st.sig, probing := false,
      waits := false, trap := none, x := st.x, pred := st.pred, pend := st.pend, pendP := st.pendP } }

/-- What one slot finds at issue: whether its own conditions hold it back, and its trap (06 R114, 02 R31). DESIGN CHOICE: a slot whose guard
is false asks nothing of a unit or a queue, so that a guarded divide does not wait for a full divide unit (05 R91, log entry 74). -/
def State.probe (s : State) (sl : Slot) : Bool × Option (Nat × Word) :=
  if !s.guardTrue sl.guard then (false, none)
  else match exec sl.i { s with cur := { s.cur with probing := true } } with
    | .next t => (t.cur.waits, t.cur.trap)
    | _ => (false, none)

/-- Where a strand stands before its next bundle. -/
inductive Ready where
  | waits
  | early (c : Early)
  | fetchFault (cause : Nat)
  | missing (pa : Nat)
  | met (i : Nat)
  | trap (cause : Nat) (tval : Word)
  | go (w : Words) (b : Bundle)
  deriving DecidableEq, Repr

/-- The offending word of a class-0 trap: word 0 for slot 0, word 1 for slot 1 (03 R62). -/
def offending (w : Words) (cause : Nat) : Word := if cause < 0x10 then w.w0.setWidth 64 else w.w1.setWidth 64

/-- The checks of a decoded bundle in their order (02 R43, 07 R148, 03 R63, 02 R42, R31). -/
def State.readySlots (s : State) (k n : Nat) (w : Words) (b : Bundle) : Ready :=
  let st := s.strand k n
  let slots := b.slots (decide (w.w1 = emptyA) || st.askip)
  let s := s.beginIssue k n b.isPaired
  let named := slots.flatMap s.slotNames
  let probes := slots.map s.probe
  if named.any st.pending then .waits
  else match st.metFault named (slots.any fun sl => sl.i.endsStrand) with
    | some i => .met i
    | none =>
      match conflict slots with
      | some v => .trap 0x022 v
      | none =>
        match (if st.chk then worstTrap (slots.map fun sl => s.shadowTrap st sl) else none) with
        | some t => .trap t.1 t.2
        | none =>
          if probes.any (·.1) then .waits
          else match worstTrap (probes.map (·.2)) with
            | some t => .trap t.1 t.2
            | none => .go w b

/-- Where a strand stands: the causes due before any bundle, its fetch, its decoding, and the checks of the bundle. DESIGN CHOICE: an
encoding trap is raised at once, whatever registers the bundle's other slot waits for or meets a deferred fault on; the spec
does not order the two (log entry 64). -/
noncomputable def State.ready (s : State) (k n : Nat) (old : List Stale) : Ready :=
  let st := s.strand k n
  if !s.mayIssue k n then .waits
  else match st.early with
    | some c => .early c
    | none =>
      match s.fetch k old st.pc with
      | .fault c => .fetchFault c
      | .missing pa => .missing pa
      | .held => .waits
      | .bytes l =>
        let w := Words.ofBytes l
        match decodeBundle w with
        | .error c => .trap c (offending w c)
        | .ok b => s.readySlots k n w b

/-- Run one slot (02 R29). -/
def runSlot (o : Out) (sl : Slot) : Out :=
  match o with
  | .next s => if s.guardTrue sl.guard then exec sl.i s else .next s
  | o => o

/-- The strand as its bundle issues: the pc at the next bundle, ASKIP cleared, the bundle folded into SIG unless SIGCHK
holds it, it issues again under ASKIP, or a handler runs (06 R126, 02 R31), and the stall count running (R40). -/
def Strand.issued (st : Strand) (cyc : Nat) (w : Words) (b : Bundle) : Strand :=
  { st with
    pc := st.pc + 8
    sstat := setField st.sstat 10 10 0
    sig := if b.isSigchk || (st.askip && b.isPaired) || !st.handling.isEmpty then st.sig else sigFold st.sig w.bytes
    last := some cyc
    fetched := none
    readyAt := cyc + max b.stallCount 1 }

/-- The engine commands that the A slot queued follow the accesses of the C slot (02 R28). -/
def State.orderEngines (s0 s : State) : State :=
  let n := s.cur.slot
  let g0 := (s0.tile s.cur.tile).eng
  let fenced := s.me.fenced
  let late (old : List Cmd) (c : Cmd) : Cmd :=
    if c.slot = n && !old.any (fun d => d.id = c.id) then { c with mark := s.nextReq, fmark := fenced } else c
  s.modEng s.cur.tile fun g => { g with mq := g.mq.map (late g0.mq), vcq := g.vcq.map (late g0.vcq) }

/-- Issue a bundle: the A slot takes effect, then the C slot; both read what stood before either (02 R28, R31). -/
def State.issue (s : State) (k n : Nat) (w : Words) (b : Bundle) : Out :=
  let slots := b.slots (decide (w.w1 = emptyA) || (s.strand k n).askip)
  let s0 := (s.beginIssue k n b.isPaired).modStrand k n fun st => st.issued s.cyc w b
  match slots.reverse.foldl runSlot (.next s0) with
  | .next t => .next ((if b.isPaired then s0.orderEngines t else t).modStrand k n fun st => st.advance (max b.stallCount 1))
  | o => o

/-- Whether a strand is eligible (06 R114): its bundle issues, or traps as it does. -/
def Ready.eligible : Ready → Bool
  | .trap .. | .go .. | .missing _ => true
  | _ => false

/-- What a strand takes before its next bundle, without a turn of the issue stage: a cause that is due, the fault of its fetch, a deferred
fault that its bundle meets (06 R117, 07 R148, 17 R387). -/
noncomputable def State.beforeBundle (s : State) (k n : Nat) (old : Bool) : State :=
  match s.ready k n (s.staleFor old) with
  | .early (.held i) => s.takeHeld k n i
  | .early (.fault i) | .met i => s.takeFault k n i
  | .fetchFault c =>
    let st := s.strand k n
    (if c = 0x142 then s.castAbort k c else s).takeTrap k n ⟨c, st.pc, st.pc, st.askip, .none⟩
  | _ => s

/-- The turn of an eligible strand. A bundle that issues, or traps as it does, is what the issue stage chose, and `u` is U after it (06
R115). -/
noncomputable def State.turnOf (s : State) (k n u : Nat) (old : Bool) : Out :=
  let chosen : State := s.modCore k fun c => { c with u := u }
  match s.ready k n (s.staleFor old) with
  | .waits | .early _ | .fetchFault _ | .met _ => .next s
  | .missing pa => .fault (.noMemory pa)
  | .trap c v =>
    let s := chosen.modStrand k n fun st => { st with last := some s.cyc, fetched := none }
    .next (((if uncorrectable c then s.castAbort k c else s).beginIssue k n false).trapAtIssue c v)
  | .go w b => chosen.issue k n w b

/-! ### The issue stage (06 R114-R116) -/

/-- Cycles pass up to a later one, and with them the fabric clock's grains of 4 ns: a cycle lasts 40 / STEP ns (14 R305,
18 Table 18.6). -/
def State.passTo (s : State) (c : Nat) : State :=
  { s with cyc := c, gclk := s.gclk + (10 * c / s.clkstep - 10 * s.cyc / s.clkstep) }

/-- The first cycle from `c` on in which tiles issue: D of every 16 (18 R429; the spec does not say which, log entry 4). -/
def dutyCycle (d c : Nat) : Nat := if c % 16 < d then c else c + (16 - c % 16)

/-- The cycle of a tile's next turn: the first in which its issue stage is free and which the duty does not withhold; where none of its
strands could issue then for its stall count, the first in which one can (02 R40, 06 R114). -/
def State.turnCycle (s : State) (k : Nat) : Nat :=
  let c := dutyCycle s.duty (max s.cyc (s.tile k).nextIssue)
  let ready := ((List.range 16).filter fun n => s.mayIssue k n).map fun n => (s.strand k n).readyAt
  match leastBy id ready with
  | some r => if r ≤ c then c else dutyCycle s.duty r
  | none => c

/-- Whether the bundle of a slot counts as fetched (06 R114): its bit in `late` is clear, or the bundle was fetched before. -/
def State.isFetched (s : State) (k late n : Nat) : Bool := !late.testBit n || (s.strand k n).fetched == some (s.strand k n).pc

/-- Whether a slot is eligible in this cycle (06 R114). -/
noncomputable def State.contends (s : State) (k n : Nat) (old : List Stale) : Bool :=
  decide ((s.strand k n).readyAt ≤ s.cyc) && (s.ready k n old).eligible

/-- The strand whose latest issue is earliest; one that has not issued counts as earliest, ties go to the lower slot
(06 R115). -/
def State.oldest (s : State) (k : Nat) (l : List Nat) : Option Nat :=
  leastBy (fun n => match (s.strand k n).last with
    | none => 0
    | some c => c + 1) l

/-- The slot that a tile's issue stage chooses, and U afterwards (06 R115). -/
def State.choose (s : State) (k : Nat) (eligible : List Nat) : Option (Nat × Nat) :=
  let u := (s.tile k).core.u
  let eu := eligible.filter fun n => (s.strand k n).urg
  let en := eligible.filter fun n => !(s.strand k n).urg
  if eu ≠ [] ∧ (en = [] ∨ u < 3) then (s.oldest k eu).map fun n => (n, if en = [] then u else u + 1)
  else (s.oldest k en).map fun n => (n, 0)

/-- The eligible slots of a tile; the next bundles of those whose bits are set in `late` have not been fetched yet, unless they were before. -/
noncomputable def State.contenders (s : State) (k late : Nat) (old : List Stale) : List Nat :=
  (List.range 16).filter fun n => s.isFetched k late n && s.contends k n old

/-- The strands of a tile whose bundles are fetched and whose stall count has elapsed take what is due before those bundles. -/
noncomputable def State.takeCauses (s : State) (k late : Nat) (old : Bool) : State :=
  (List.range 16).foldl (fun s n => if s.isFetched k late n && decide ((s.strand k n).readyAt ≤ s.cyc) then s.beforeBundle k n old else s) s

/-- The bundles of eligible slots are fetched. -/
def State.keepFetched (s : State) (k : Nat) (l : List Nat) : State :=
  l.foldl (fun s n => s.modStrand k n fun st => { st with fetched := some st.pc }) s

/-- Whether a tile has a strand with a fetched bundle that is eligible in a cycle before one. -/
noncomputable def State.issuesBefore (s : State) (k c : Nat) : Bool :=
  (List.range 16).any fun n =>
    let at' := dutyCycle s.duty (max (max s.cyc (s.tile k).nextIssue) (s.strand k n).readyAt)
    decide (at' < c) && s.isFetched k 0xFFFF n && ((s.passTo at').ready k n []).eligible

/-- Whether the cycles up to a turn may pass: no other tile leaves a cycle without an issue in which it has an eligible strand (06 R115,
R116). -/
noncomputable def State.mayPass (s : State) (k c : Nat) : Bool := s.tiles.all fun t => t.1 == k || !s.issuesBefore t.1 c

/-- The turn of a tile's issue stage: in the cycle that it comes in, what R115 chooses; the stage is free again in the next. -/
noncomputable def State.issueTurn (s : State) (k late : Nat) (old : Bool) : Out :=
  if !s.mayPass k (s.turnCycle k) then .next s
  else
    let s := s.passTo (s.turnCycle k)
    let s := (s.modTile k fun t => { t with nextIssue := s.cyc + 1 }).takeCauses k late old
    let l := s.contenders k late (s.staleFor old)
    let s := s.keepFetched k l
    match s.choose k l with
    | some (n, u) => s.turnOf k n u old
    | none => .next s

/-- An operation of another agent takes place. A deferred fault is taken only where its strand's next bundle meets it. -/
noncomputable def State.happen (s : State) (op : Instr) (ev : Ev) : Out :=
  let s := { s with missing := none, cur := { s.cur with ev := ev, probing := false } }
  match op with
  | .deferredFaultTrap =>
    match s.ready ev.tile ev.slot (s.staleFor ev.ok) with
    | .met i => exec .deferredFaultTrap { s with cur := { s.cur with ev := { ev with a := i } } }
    | _ => .next s
  | op => if op.space = none then exec op s else .next s

end Sys2Proof.Machine
end

