-- ==== Sys2Proof/Machine/Settle.lean ====
section
/-! DEFINITION. What follows a change of the state at once: monitors, sleepers whose condition holds, nodes of a barrier that may
send, link events, the end of the boot (09 R203, 15 R336, R343, 17 R390, 13 R285-R291, 14 R323, 18 R424). -/

namespace Sys2Proof.Machine

/-- Strands that sleep in IDLE wake when something they wait for holds (17 R390). -/
def State.wakeIdle (s : State) (k : Nat) : State :=
  if !(s.tile k).runs then s
  else (List.range 16).foldl (fun s n =>
    if (s.strand k n).st == .live && (s.strand k n).sleep == .idle && s.idleDue k n then s.modStrand k n Strand.wake else s) s

/-- Sleepers of a tile: RECV and TGET in their issue order, and IDLE; and held messages whose slack is exhausted (15 R335). -/
def State.settleTile (s : State) (k : Nat) : State := (((s.serveRecv k 16).serveTget k 16).wakeIdle k).exhaustHeld k

/-- The nodes of a partition's barrier on this device that may have something to send (13 R285, R287, R291). -/
def State.settleBarrier (s : State) (id : Nat) : State :=
  let p := s.part id
  let s := p.tiles.foldl (fun s k =>
    if (s.tile k).lost then s.castLost id k
    else if (s.tile k).cast then s.tryArrive id (.tile k)
    else s) s
  let s := p.dies.foldl (fun s d => s.tryArrive id (.die d)) s
  let s := s.tryArrive id .device
  let s := p.bar.applied.foldl (fun s n => s.tryDone id n) s
  (p.dies.foldl (fun s d => s.tryDone id (.die d)) s).tryDone id .device

/-- The partitions that are resident. -/
def State.residents (s : State) : List Nat := (s.parts.filter fun p => p.2.valid).map (·.1)

/-- What follows at once. -/
def State.settle (s : State) : State :=
  let s := (List.range 4).foldl State.deliverLink s.serveMonitors.exhaustWaiting.releaseHost
  let s := s.tiles.foldl (fun s p => s.settleTile p.1) s
  (s.residents.foldl State.settleBarrier s).advanceBoot

end Sys2Proof.Machine
end

