-- ==== Sys2Proof/Machine/Sched.lean ====
section
/-! DEFINITION. What the machine does when the agenda names nothing (log entry 4): by turns an operation of the hardware that is
due, and the bundle that 06 R115 chooses on a tile. -/

namespace Sys2Proof.Machine

/-- Whether some strand of a tile has something to do in this cycle: a bundle to issue, or a cause or a trap to take before it. -/
noncomputable def State.stirs (s : State) (k : Nat) : Bool :=
  (List.range 16).any fun n => decide ((s.strand k n).readyAt ≤ s.cyc) && s.ready k n [] != .waits

/-- The turn of one tile in the present cycle, where its issue stage is free, the duty does not withhold the cycle and some slot has
something to do. -/
noncomputable def State.tileTurn (s : State) (k : Nat) : Option Out :=
  if (s.tile k).nextIssue ≤ s.cyc ∧ s.withheld = false ∧ s.stirs k then some (s.issueTurn k 0 false) else none

/-- The first tile of a list that has something to do takes its turn. -/
noncomputable def State.firstTurn (s : State) : List Nat → Option Out
  | [] => none
  | k :: l =>
    match ({ s with turn := k }).tileTurn k with
    | some o => some o
    | none => s.firstTurn l

/-- The tiles in the order of their turns, after the one that had the last. -/
def State.turnOrder (s : State) : List Nat :=
  let keys := s.tiles.map (·.1)
  (keys.filter fun k => decide (s.turn < k)) ++ keys.filter fun k => decide (k ≤ s.turn)

/-! ### Operations of the hardware that may be due -/

/-- An operation on a tile. -/
def onTile (op : Instr) (k : Nat) : Instr × Ev := (op, { Ev.zero with tile := k })

/-- An operation on an entry of a tile. -/
def onEntry (op : Instr) (k a : Nat) : Instr × Ev := (op, { Ev.zero with tile := k, a := a })

/-- An operation on a numbered item of a tile. -/
def onItem (op : Instr) (k id a : Nat) : Instr × Ev := (op, { Ev.zero with tile := k, id := id, a := a })

/-- An operation on a strand. -/
def onStrand (op : Instr) (k n : Nat) : Instr × Ev := (op, { Ev.zero with tile := k, slot := n })

/-- An operation on something numbered. -/
def onId (op : Instr) (id : Nat) : Instr × Ev := (op, { Ev.zero with id := id })

/-- An operation on something that `a` names. -/
def onA (op : Instr) (a : Nat) : Instr × Ev := (op, { Ev.zero with a := a })

/-- An operation on a partition. -/
def onPart (op : Instr) (id : Nat) : Instr × Ev := (op, { Ev.zero with part := id })

/-- An operation at a node of a partition's barrier. -/
def onNode (op : Instr) (id : Nat) (n : BarNode) : Instr × Ev := (op, { Ev.zero with part := id, node := n })

/-- What may happen next to a packet of another device that ends here, by its OP: barrier packets, stones, a moved context, and what the
combining tree sends (14 Tables 14.2, 14.3). -/
def letterOps (id : Nat) (hdr : BitVec 128) (l : List Byte) : List (Instr × Ev) :=
  let e : Ev := { Ev.zero with part := headerField hdr 15 0, id := id, ok := true }
  match headerField hdr 31 24 with
  | 0xF3 =>
    [(.arriveReceipt, e), (.doneReceipt, e), (.commitApply, { e with node := .parent }), (.abortApply, { e with node := .parent }),
      (.openReceipt, { e with node := .device })]
  | 0xFA => [(.stonesArrival, e)]
  | 0x18 => [(.moveatArrival, { e with ctx := some (Strand.ofContext (memWrite [] 0 (l.take 256)) 0 Strand.free) })]
  | 0x85 | 0x86 => [(.treeContributionCombine, e)]
  | _ => []

/-- What may happen next to a request. -/
def Req.dueOps (r : Req) : List (Instr × Ev) :=
  match r.stage, r.op with
  | .port, _ => [onId .packetGrant r.id]
  | .wire, _ => [onId .packetGrant r.id, onId .packetArrival r.id]
  | .forward, _ => [onId .packetGrant r.id, onId .packetArrival r.id, onId .forwardedAccess r.id]
  | .reply, _ => [.packetGrant, .packetArrival, .replyArrival, .rejectNoticeArrival, .pathLostNotice].map fun op => onId op r.id
  | .xlate, _ => [onId .translationWalk r.id]
  | .target, .message _ => [onId .messageArrival r.id]
  | .target, .token .. => [onId .tokenArrival r.id]
  | .target, .count .. => [onId .counterArrival r.id]
  | .target, .contribute .. => [onId .treeContributionCombine r.id]
  | .target, .waitv .. => [onId .waitvMonitorFree r.id]
  | .target, .panel .. => [onId .rotbPanelArrival r.id]
  | .target, .transit hdr l => onId .packetGrant r.id :: letterOps r.id hdr l
  | .target, _ => [onId .remoteAccessService r.id]
  | .waiting, .message _ => [onId .messageAccept r.id]
  | .waiting, .lrw => [onId .reservationGrant r.id]
  | .waiting, _ => []
  | .cut, _ => [onId .pathLostNotice r.id]
  | .lost, _ | .outside, _ | .back, _ => []

/-- What may happen next on a tile. -/
def State.tileOps (s : State) (k : Nat) : List (Instr × Ev) :=
  let t := s.tile k
  (List.range 16).flatMap (fun n => [onStrand .yieldWake k n, onStrand .waitrWake k n, onStrand .trapEntry k n]) ++
    t.eng.ownLoads.map (fun l => onItem .ownTlmLoadReturn k l.id 0) ++
    [.divideComplete, .vectorCommandStart, .vectorCommandComplete, .matrixCommandStart, .matrixCommandComplete, .keepCopyComplete,
      .copyChunkStart, .inputFetchStart, .pageFetchStart, .taskPop, .triggerFire, .stealRequest, .stealBackoffExpiry,
      .repartitionStart, .repartitionHistogramResult, .repartitionItemArrival, .repartitionComplete, .gangStopArrival,
      .tileArrive].map (fun op => onTile op k) ++
    t.eng.xfers.flatMap (fun x => onItem .copyTransferEnd k x.key 0 :: x.flight.map fun c => onItem .copyChunkAck k x.key c.no) ++
    t.eng.collq.map (fun c => onItem .collectiveComplete k c.id 0) ++
    (List.range 64).map (fun g => onEntry .treeResultDelivery k g) ++
    (List.range t.outgoing.length).map (fun i => onEntry .heldMessageSend k i) ++
    (List.range 32).flatMap (fun b => [onEntry .bankRetentionEntry k b, onEntry .bankWake k b]) ++
    [onItem .messageAccept k s.nextReq 0]

/-- The nodes of a partition at which a decision is applied and OPEN received. -/
def State.barrierNodes (s : State) (p : Part) : List BarNode :=
  (s.liveTiles p).map .tile ++ s.stations.map .station ++ p.dies.map .die ++ [.device]

/-- What may happen next in a partition. -/
def State.partOps (s : State) (id : Nat) : List (Instr × Ev) :=
  let p := s.part id
  let msg (m : BarMsg) : List (Instr × Ev) :=
    [(.arriveReceipt, { Ev.zero with part := id, id := m.id }), (.doneReceipt, { Ev.zero with part := id, id := m.id })]
  p.bar.flight.flatMap msg ++ [onPart .rootDecide id] ++
    (if p.bar.commit.isSome then
      (s.barrierNodes p).flatMap fun n => [onNode .commitApply id n, onNode .abortApply id n] ++ (if n = .device then [] else [onNode .openReceipt id n])
    else []) ++
    p.rounds.map (fun r => (.treeRoundComplete, { Ev.zero with part := id, a := r.group, b := r.round })) ++
    [.saveFirkin, .sliceTimerExpiry, .preemptDeadlineExpiry, .launchStart, .gangResume].map (fun op => onPart op id)

/-- What may happen next in the device: its boot (the image comes with DISCOVERY_FLOOD from outside, log entry 7), requests, tiles,
partitions, and what is in flight. -/
def State.dueOps (s : State) : List (Instr × Ev) :=
  (if s.phase < 4 ∧ s.bootErr = 0 then [(.deviceReset, { Ev.zero with op := if s.phase = 0 then 0 else 1 })] else []) ++
    (List.range 4).flatMap (fun d => [onA .discoveryTimeout d, onA .mapInstallRequest d]) ++
    s.reqs.flatMap Req.dueOps ++
    s.tiles.flatMap (fun t => s.tileOps t.1) ++
    s.residents.flatMap s.partOps ++
    s.holders.map (fun h => onA .reservationRevokeTimeout h.word) ++
    s.moving.map (fun m => onId .moveatArrival m.id) ++
    s.steals.flatMap (fun q => [onId .stealRequestService q.id, onId .stealReply q.id]) ++
    s.xinvs.map (fun x => onId .xinvComplete x.id) ++
    s.stones.map (fun q => onId .stonesArrival q.1) ++
    s.regions.map (fun g => onA .entryMakeResident g.1) ++
    s.links.map (fun l => onA .linkCommandComplete l.1) ++
    [onA .pwrbalWrite 0, onA .dutyRecompute 0]

/-- Whether an operation changes something now, or stops. -/
noncomputable def State.acts (s : State) (q : Instr × Ev) : Bool :=
  match s.happen q.1 q.2 with
  | .next t => decide ({ t with cur := s.cur } ≠ s)
  | _ => true

/-- The next operation of the hardware: the first that acts, in an order that turns with the cycle so that none waits for ever on
those before it. -/
noncomputable def State.hardwareTurn (s : State) : Option Out :=
  let l := s.dueOps
  let r := s.cyc % l.length
  ((l.drop r ++ l.take r).find? s.acts).map fun q => s.happen q.1 q.2

/-- What happens when the agenda is empty: by turns the strands and the hardware, until in this cycle no tile has a turn left; then a
cycle passes. -/
noncomputable def State.unplanned (s : State) : Out :=
  let strands : Option Out := ({ s with alternate := false }).firstTurn s.turnOrder
  let now : Option Out := ({ s with alternate := true }).hardwareTurn
  let later : Option Out := (({ s with alternate := true }).passTo (s.cyc + 1)).hardwareTurn
  match (if s.alternate then strands <|> later else now <|> strands) with
  | some o => o
  | none => .next (({ s with alternate := true }).passTo (s.cyc + 1))

end Sys2Proof.Machine
end

