-- ==== Sys2Proof/Machine/Step.lean ====
section
/-! DEFINITION. One step of the machine: the next choice of the agenda, or what happens without one; and the placing of one
instruction where the next step fetches it. -/

namespace Sys2Proof.Machine

/-- What the next choice does: that of the agenda, or without one the machine's own (log entry 4). -/
noncomputable def State.choice (s : State) : Host.Outcome State Fault Refusal :=
  match s.agenda with
  | .issue k late old :: rest => ({ s with agenda := rest }).begin.issueTurn k late old
  | .event op ev :: rest => ({ s with agenda := rest }).begin.happen op ev
  | [] => s.begin.unplanned

/-- What follows a choice at once. -/
def settled (o : Host.Outcome State Fault Refusal) : Host.Outcome State Fault Refusal :=
  match o with
  | .next s => .next s.settle
  | o => o

/-- One step. -/
noncomputable def step (s : State) : Host.Outcome State Fault Refusal := settled s.choice

/-- The state with one instruction stored where the next step fetches it (log entry 7): slot 0 of the boot tile is live at
device privilege, and the step that follows is the turn of that tile, on which only slot 0 has a bundle. -/
noncomputable def State.withFetchWord (s : State) (_nbits w : Nat) : State :=
  let s := (s.modTile 0 fun t => { t with nextIssue := 0 }).modStrand 0 0 fun st =>
    { st with st := .live, sleep := .awake, pc := 0, sstat := setField st.sstat 9 8 2, readyAt := 0, faults := [], held := [] }
  { s with
    hbm := memWrite s.hbm 0 (tableBundle w).bytes
    hbmBad := s.hbmBad.filter fun b => b != 0
    agenda := [.issue 0 0xFFFE false] }

end Sys2Proof.Machine
end

