-- ==== Sys2Proof/Safety.lean ====
section
/-! DEFINITION. What counts as a safe run, and the terms in which the statements speak: the value that a later bundle reads from a
register, what an instruction leaves alone, and the results that the rules give for operands. -/

namespace Sys2Proof.Machine

/-! ### Runs -/

/-- The state after `n` steps, if none of them faults or refuses. -/
noncomputable def State.after : Nat → State → Option State
  | 0, s => some s
  | n + 1, s =>
    match step s with
    | .next t => State.after n t
    | _ => none

/-- A run of `n` steps is safe when no step reaches an address without memory. -/
def State.safeFor (s : State) (n : Nat) : Prop := ∃ t, s.after n = some t

/-! ### The form of memory -/

/-- The memory of the device and of its tiles, and of the tiles that save images hold, is in its canonical form. -/
def State.memoryCanonical (s : State) : Prop :=
  Memory.wf s.hbm = true ∧ (∀ p ∈ s.tiles, Memory.wf p.2.tlm = true) ∧ ∀ f ∈ s.firkins, ∀ p ∈ f.2.tiles, Memory.wf p.2.tlm = true

/-! ### Registers as later bundles read them -/

/-- The value of a general register once every result in flight is visible (02 R40-R42). -/
def Strand.xv (st : Strand) (r : Reg) : Word := vget st.endShadows.x r.toNat 0

/-- The value of a predicate once every result in flight is visible; p0 reads 1 (02 R37). -/
def Strand.pv (st : Strand) (p : PredReg) : Bool := p == 0 || st.endShadows.pred.getLsbD p.toNat

/-- A strand without its registers. -/
def Strand.bare (st : Strand) : Strand := { st with x := Strand.free.x, pred := 1, flight := [] }

/-! ### What stays as it was -/

/-- A state without one of its strands. -/
def State.apart (s : State) (k n : Nat) : State := s.modStrand k n fun _ => Strand.free

/-- A state without the control part of a tile. -/
def State.sansCore (s : State) (k : Nat) : State := s.modCore k fun _ => TileCore.reset

/-- A state without the engines of a tile. -/
def State.sansEng (s : State) (k : Nat) : State := s.modEng k fun _ => TileEng.reset

/-- A state without one of its tiles. -/
def State.sansTile (s : State) (k : Nat) : State := s.setTile k Tile.reset

/-- A state without one of its partitions. -/
def State.sansPart (s : State) (id : Nat) : State := s.modPart id fun _ => Part.reset

/-- Every byte of memory that a tile or the device holds reads as before. -/
def SameMemory (s t : State) : Prop :=
  (∀ k a, (t.tile k).byte a = (s.tile k).byte a) ∧ ∀ a, memByte t.hbm a = memByte s.hbm a

/-- Every byte of memory reads as before, but for `n` bytes from offset `a` of the TLM of tile `k`. -/
def MemoryBut (s t : State) (k a n : Nat) : Prop :=
  (∀ j b, (j = k → b < a ∨ a + n ≤ b) → (t.tile j).byte b = (s.tile j).byte b) ∧ ∀ b, memByte t.hbm b = memByte s.hbm b

/-- Every byte of memory reads as before, but for those of the TLM of tile `k` at offsets that `out` does not leave out. -/
def MemoryOutside (s t : State) (k : Nat) (out : Nat → Prop) : Prop :=
  (∀ j b, (j = k → out b) → (t.tile j).byte b = (s.tile j).byte b) ∧ ∀ b, memByte t.hbm b = memByte s.hbm b

/-- Of the whole state only the issuing strand differs: what is not a register of it is that of `b`, and of its registers only those
that are listed. -/
def OnlyRegsAnd (s t : State) (b : Strand) (xs : List Reg) (ps : List PredReg) : Prop :=
  t.apart s.cur.tile s.cur.slot = s.apart s.cur.tile s.cur.slot ∧ t.me.bare = b.bare ∧
    (∀ r, r ∉ xs → t.me.xv r = s.me.xv r) ∧ (∀ p, p ∉ ps → t.me.pv p = s.me.pv p) ∧ SameMemory s t

/-- Of the whole state only the issuing strand's registers differ, and of those only the ones that are listed. -/
def OnlyRegs (s t : State) (xs : List Reg) (ps : List PredReg) : Prop := OnlyRegsAnd s t s.me xs ps

/-- Of the whole state only the strand in slot `n` of tile `k` differs, which is `st`. -/
def OnlyStrand (s t : State) (k n : Nat) (st : Strand) : Prop :=
  t.strand k n = st ∧ t.apart k n = s.apart k n ∧ SameMemory s t

/-- Of the whole state only the issuing strand differs, which is `st`. -/
def OnlyMe (s t : State) (st : Strand) : Prop := OnlyStrand s t s.cur.tile s.cur.slot st

/-- Of the whole state only the control part of tile `k` differs, which is `c`; the words of the deque control area follow it. -/
def OnlyCore (s t : State) (k : Nat) (c : TileCore) : Prop :=
  (t.tile k).core = c ∧ t.sansCore k = s.sansCore k ∧ MemoryBut s t k 0x100 0x100

/-- Of the whole state only the engines of tile `k` differ, which are `g`. -/
def OnlyEng (s t : State) (k : Nat) (g : TileEng) : Prop :=
  (t.tile k).eng = g ∧ t.sansEng k = s.sansEng k ∧ SameMemory s t

/-- Of the whole state only the strand in slot `n` of tile `k` and that tile's engines differ: `st` and `g`. -/
def OnlyCommand (s t : State) (k n : Nat) (st : Strand) (g : TileEng) : Prop :=
  t.strand k n = st ∧ (t.tile k).eng = g ∧ (t.apart k n).sansEng k = (s.apart k n).sansEng k ∧ SameMemory s t

/-- A state without the requests in flight and the number of tile `k`'s next packet. -/
def State.sansSent (s : State) (k : Nat) : State := { s with reqs := [], nextReq := 0 }.modTile k fun w => { w with seq := 0 }

/-- Whether a packet is cargo that tile `k` sends for a goal (14 Tables 14.2, 14.3). -/
def Req.isCargo (r : Req) (s : State) (k : Nat) (c : Cargo) (code job flits slack : Nat) (goal : Point) : Prop :=
  r.op = .cargo c code job flits goal ∧ r.sdev = s.devId ∧ r.tile = k ∧ r.place = .tile k ∧ r.moving = false ∧ r.sv = false ∧
    r.slack = slack ∧ r.stamp = s.gclk ∧ r.xh = false

/-- Data of `flits` flits have left tile `k` as cargo for a goal, in packets of at most 5 flits (14 R310, R311). -/
def Shipped (s t : State) (k : Nat) (slot : Option Nat) (c : Cargo) (code job flits slack : Nat) (goal : Point) : Prop :=
  ∃ l, t.reqs = s.reqs ++ l ∧
    l.map (·.op) = (List.range (max 1 (ceilDiv flits 5))).map (fun i => ReqOp.cargo c code job (max 1 (min 5 (flits - 5 * i))) goal) ∧
    ∀ x ∈ l, x.tile = k ∧ x.sv = slot.isSome ∧ x.slot = slot.getD 0 ∧ x.slack = slack

/-- Whether only what reads observe differs (09 R190): the notes of memory and what strands have seen. -/
def OnlyObserved (s t : State) : Prop :=
  { t with tiles := s.tiles, notes := s.notes } = s ∧
    ∀ k, { t.tile k with core := (s.tile k).core } = s.tile k ∧ { (t.tile k).core with slots := (s.tile k).core.slots } = (s.tile k).core ∧
      ∀ n, { t.strand k n with seen := (s.strand k n).seen } = s.strand k n

/-- Nothing of an engine's step has happened but that it sent packets and that banks in retention wake. -/
def OnlyAsked (s t : State) : Prop :=
  SameMemory s t ∧ t.hbm = s.hbm ∧ t.parts = s.parts ∧ t.holders = s.holders ∧
    ∀ k, { t.tile k with touched := (s.tile k).touched, seq := (s.tile k).seq } = s.tile k

/-- Of the whole state only tile `k` differs, which is `w`. -/
def OnlyTile (s t : State) (k : Nat) (w : Tile) : Prop :=
  t.tile k = w ∧ t.sansTile k = s.sansTile k ∧ ∀ a, memByte t.hbm a = memByte s.hbm a

/-! ### Results of scalar instructions (05) -/

/-- The number that a list of bits spells, lowest first. -/
def bitsValue : List Bool → Nat
  | [] => 0
  | b :: l => (if b then 1 else 0) + 2 * bitsValue l

/-- The destination and the result of the integer, logic, shift and move instructions, in integer arithmetic (05 Tables 5.2-5.4, R103). -/
def intResult (s : State) : Instr → Option (Reg × Word)
  | .add d a b => some (d, BitVec.ofInt 64 ((s.rx a).toInt + (s.rx b).toInt))
  | .sub d a b => some (d, BitVec.ofInt 64 ((s.rx a).toInt - (s.rx b).toInt))
  | .addi d a i => some (d, BitVec.ofInt 64 ((s.rx a).toInt + i.toInt))
  | .mul d a b => some (d, BitVec.ofInt 64 ((s.rx a).toInt * (s.rx b).toInt))
  | .muli d a i => some (d, BitVec.ofInt 64 ((s.rx a).toInt * i.toInt))
  | .mulhS d a b => some (d, BitVec.ofInt 64 ((s.rx a).toInt * (s.rx b).toInt / 2 ^ 64))
  | .mulhZ d a b => some (d, BitVec.ofNat 64 ((s.rx a).toNat * (s.rx b).toNat / 2 ^ 64))
  | .and d a b => some (d, BitVec.ofNat 64 ((s.rx a).toNat &&& (s.rx b).toNat))
  | .or d a b => some (d, BitVec.ofNat 64 ((s.rx a).toNat ||| (s.rx b).toNat))
  | .xor d a b => some (d, BitVec.ofNat 64 ((s.rx a).toNat ^^^ (s.rx b).toNat))
  | .andn d a b => some (d, s.rx a - (s.rx a &&& s.rx b))
  | .andi d a i => some (d, s.rx a &&& BitVec.ofInt 64 i.toInt)
  | .ori d a i => some (d, s.rx a ||| BitVec.ofInt 64 i.toInt)
  | .xori d a i => some (d, s.rx a ^^^ BitVec.ofInt 64 i.toInt)
  | .shl d a b => some (d, BitVec.ofNat 64 ((s.rx a).toNat * 2 ^ ((s.rx b).toNat % 64)))
  | .shli d a n => some (d, BitVec.ofNat 64 ((s.rx a).toNat * 2 ^ n.toNat))
  | .shrZ d a b => some (d, BitVec.ofNat 64 ((s.rx a).toNat / 2 ^ ((s.rx b).toNat % 64)))
  | .shriZ d a n => some (d, BitVec.ofNat 64 ((s.rx a).toNat / 2 ^ n.toNat))
  | .shrS d a b => some (d, BitVec.ofInt 64 ((s.rx a).toInt / 2 ^ ((s.rx b).toNat % 64)))
  | .shriS d a n => some (d, BitVec.ofInt 64 ((s.rx a).toInt / 2 ^ n.toNat))
  | .rot d a b => some (d, (s.rx a).rotateLeft ((s.rx b).toNat % 64))
  | .roti d a n => some (d, (s.rx a).rotateLeft n.toNat)
  | .minS d a b => some (d, BitVec.ofInt 64 (min (s.rx a).toInt (s.rx b).toInt))
  | .minZ d a b => some (d, BitVec.ofNat 64 (min (s.rx a).toNat (s.rx b).toNat))
  | .maxS d a b => some (d, BitVec.ofInt 64 (max (s.rx a).toInt (s.rx b).toInt))
  | .maxZ d a b => some (d, BitVec.ofNat 64 (max (s.rx a).toNat (s.rx b).toNat))
  | .abs d a => some (d, BitVec.ofNat 64 (s.rx a).toInt.natAbs)
  | .clz d a => some (d, BitVec.ofNat 64 (64 - (if s.rx a = 0 then 0 else (s.rx a).toNat.log2 + 1)))
  | .ctz d a => some (d, BitVec.ofNat 64 ((List.range 64).takeWhile fun i => !(s.rx a).getLsbD i).length)
  | .popc d a => some (d, BitVec.ofNat 64 ((List.range 64).filter fun i => (s.rx a).getLsbD i).length)
  | .bswap d a => some (d, BitVec.ofNat 64 (bitsValue ((List.range 64).map fun i => (s.rx a).getLsbD (8 * (7 - i / 8) + i % 8))))
  | .bextZ d a p w => some (d, BitVec.ofNat 64 ((s.rx a).toNat / 2 ^ p.toNat % 2 ^ (w.toNat + 1)))
  | .bextS d a p w =>
    some (d, BitVec.ofInt 64 (((s.rx a).toNat / 2 ^ p.toNat % 2 ^ (w.toNat + 1) : Nat) -
      (if (s.rx a).getLsbD (p.toNat + w.toNat) then 2 ^ (w.toNat + 1) else 0)))
  | .bins d a p w =>
    some (d, BitVec.ofNat 64 (bitsValue ((List.range 64).map fun i =>
      if p.toNat ≤ i ∧ i ≤ p.toNat + w.toNat then (s.rx a).getLsbD (i - p.toNat) else (s.rx d).getLsbD i)))
  | .sext8 d a => some (d, BitVec.ofInt 64 ((s.rx a).setWidth 8).toInt)
  | .sext16 d a => some (d, BitVec.ofInt 64 ((s.rx a).setWidth 16).toInt)
  | .sext32 d a => some (d, BitVec.ofInt 64 ((s.rx a).setWidth 32).toInt)
  | .movi d i => some (d, BitVec.ofInt 64 i.toInt)
  | .movk d n i =>
    some (d, BitVec.ofNat 64 (bitsValue ((List.range 64).map fun j =>
      if j / 16 = n.toNat then i.getLsbD (j % 16) else (s.rx d).getLsbD j)))
  | .movx d i => some (d, i ++ (s.rx d).setWidth 32)
  | .sel d a b c => some (d, if c = 0 ∨ s.cur.pred.getLsbD c.toNat then s.rx a else s.rx b)
  | .pget d a .fmt => some (d, BitVec.ofNat 64 ((s.rx a).toNat / 2 ^ 60))
  | .pget d a .blk => some (d, BitVec.ofNat 64 ((s.rx a).toNat / 2 ^ 57 % 8))
  | .pget d a .space => some (d, BitVec.ofNat 64 ((s.rx a).toNat / 2 ^ 55 % 4))
  | .pget d a .id => some (d, BitVec.ofNat 64 (ptrId (s.rx a)))
  | .pget d a .loc => some (d, BitVec.ofNat 64 (ptrLoc (s.rx a)))
  | .slkget d k => some (d, (vget s.me.k k.toNat 0xFFF).setWidth 64)
  | _ => none

/-- The latency of a fixed-latency result (02 Table 2.6). -/
def latency : Instr → Nat
  | .mul .. | .muli .. | .mulhS .. | .mulhZ .. => 3
  | .fadd .. | .fsub .. | .fmul .. | .fmin .. | .fmax .. | .fcmpEq .. | .fcmpLt .. | .fcmpLe .. | .fcmpUn .. | .fsgnAbs .. | .fsgnNeg ..
  | .fsgnCopy .. | .fclass .. | .fcvtF32S32 .. | .fcvtF32Z32 .. | .fcvtS32F32Rz .. | .fcvtS32F32Rn .. | .fcvtBf16F32Rn ..
  | .fcvtBf16F32Sr .. | .fcvtF32Bf16 .. | .fcvtF16 .. => 4
  | .ffma .. | .ffms .. | .fnma .. | .fnms .. => 5
  | _ => 1

/-- The destination and the result of the compares and the predicate logic (05 Table 5.5, R98, R106). -/
def predResult (s : State) : Instr → Option (PredReg × Bool)
  | .cmpEq d a b => some (d, decide ((s.rx a).toNat = (s.rx b).toNat))
  | .cmpNe d a b => some (d, decide ((s.rx a).toNat ≠ (s.rx b).toNat))
  | .cmpLtS d a b => some (d, decide ((s.rx a).toInt < (s.rx b).toInt))
  | .cmpLtZ d a b => some (d, decide ((s.rx a).toNat < (s.rx b).toNat))
  | .cmpLeS d a b => some (d, decide ((s.rx a).toInt ≤ (s.rx b).toInt))
  | .cmpLeZ d a b => some (d, decide ((s.rx a).toNat ≤ (s.rx b).toNat))
  | .cmpiEq d a i => some (d, decide ((s.rx a).toInt = i.toInt))
  | .cmpiNe d a i => some (d, decide ((s.rx a).toInt ≠ i.toInt))
  | .cmpiLtS d a i => some (d, decide ((s.rx a).toInt < i.toInt))
  | .cmpiLtZ d a i => some (d, decide ((s.rx a).toNat < i.toNat))
  | .cmpiLeS d a i => some (d, decide ((s.rx a).toInt ≤ i.toInt))
  | .pand d a b => some (d, s.rp a && s.rp b)
  | .por d a b => some (d, s.rp a || s.rp b)
  | .pxor d a b => some (d, xor (s.rp a) (s.rp b))
  | .pandn d a b => some (d, s.rp a && !s.rp b)
  | .pmov d a => some (d, s.rp a)
  | .fcmpEq d a b => some (d, Num.eq (fp32 (s.rx a)) (fp32 (s.rx b)))
  | .fcmpLt d a b => some (d, Num.lt (fp32 (s.rx a)) (fp32 (s.rx b)))
  | .fcmpLe d a b => some (d, Num.lt (fp32 (s.rx a)) (fp32 (s.rx b)) || Num.eq (fp32 (s.rx a)) (fp32 (s.rx b)))
  | .fcmpUn d a b => some (d, (fp32 (s.rx a)).isNaN || (fp32 (s.rx b)).isNaN)
  | _ => none

/-- Whether an FP32 operand is a NaN, by its encoding (04 R70). -/
def isNan32 (w : Word) : Bool := w.toNat / 2 ^ 23 % 256 == 255 && w.toNat % 2 ^ 23 != 0

/-- An FP32 operand with another sign; a NaN gives the canonical one (05 R107). -/
def signed32 (w : Word) (neg : Bool) : Word :=
  if isNan32 w then 0x7FC00000 else BitVec.ofNat 64 (w.toNat % 2 ^ 31 + if neg then 2 ^ 31 else 0)

/-- The number of an FP32 operand's class (05 R107), from its exponent and mantissa. -/
def class32 (w : Word) : Nat :=
  let neg := w.getLsbD 31
  match w.toNat / 2 ^ 23 % 256, w.toNat % 2 ^ 23 with
  | 255, 0 => if neg then 0 else 7
  | 255, _ => 8
  | 0, 0 => if neg then 3 else 4
  | 0, _ => if neg then 2 else 5
  | _, _ => if neg then 1 else 6

/-- The destination and the result of the FP32 instructions that take no divide unit (05 Tables 5.6 and 5.7, R104-R109). -/
def floatResult (s : State) : Instr → Option (Reg × Word)
  | .fsgnAbs d a => some (d, signed32 (s.rx a) false)
  | .fsgnNeg d a => some (d, signed32 (s.rx a) (!(s.rx a).getLsbD 31))
  | .fsgnCopy d a b => some (d, signed32 (s.rx a) ((s.rx b).getLsbD 31))
  | .fclass d a => some (d, BitVec.ofNat 64 (2 ^ class32 (s.rx a)))
  | .fadd d a b => some (d, word (roundFp32 ((fp32 (s.rx a)).add (fp32 (s.rx b)))))
  | .fsub d a b => some (d, word (roundFp32 ((fp32 (s.rx a)).add (fp32 (s.rx b)).neg)))
  | .fmul d a b => some (d, word (roundFp32 ((fp32 (s.rx a)).mul (fp32 (s.rx b)))))
  | .ffma d a b c => some (d, word (roundFp32 (((fp32 (s.rx a)).mul (fp32 (s.rx b))).add (fp32 (s.rx c)))))
  | .ffms d a b c => some (d, word (roundFp32 (((fp32 (s.rx a)).mul (fp32 (s.rx b))).add (fp32 (s.rx c)).neg)))
  | .fnma d a b c => some (d, word (roundFp32 (((fp32 (s.rx a)).neg.mul (fp32 (s.rx b))).add (fp32 (s.rx c)))))
  | .fnms d a b c => some (d, word (roundFp32 (((fp32 (s.rx a)).neg.mul (fp32 (s.rx b))).add (fp32 (s.rx c)).neg)))
  | .fmin d a b =>
    some (d, if isNan32 (s.rx a) && isNan32 (s.rx b) then 0x7FC00000
      else if isNan32 (s.rx a) || (!isNan32 (s.rx b) && Num.below (fp32 (s.rx b)) (fp32 (s.rx a))) then
        ((s.rx b).setWidth 32).setWidth 64
      else ((s.rx a).setWidth 32).setWidth 64)
  | .fmax d a b =>
    some (d, if isNan32 (s.rx a) && isNan32 (s.rx b) then 0x7FC00000
      else if isNan32 (s.rx a) || (!isNan32 (s.rx b) && Num.below (fp32 (s.rx a)) (fp32 (s.rx b))) then
        ((s.rx b).setWidth 32).setWidth 64
      else ((s.rx a).setWidth 32).setWidth 64)
  | .fcvtF32S32 d a => some (d, word (roundFp32 (.ofInt ((s.rx a).setWidth 32).toInt)))
  | .fcvtF32Z32 d a => some (d, word (roundFp32 (.ofInt ((s.rx a).setWidth 32).toNat)))
  | .fcvtS32F32Rz d a => some (d, BitVec.ofInt 64 (roundToInt (fp32 (s.rx a)) .s32 .rz 0))
  | .fcvtS32F32Rn d a => some (d, BitVec.ofInt 64 (roundToInt (fp32 (s.rx a)) .s32 .rn 0))
  | .fcvtBf16F32Rn d a sat => some (d, word (roundToFormat (fp32 (s.rx a)) .bf16 .rn sat 0))
  | .fcvtBf16F32Sr d a b sat =>
    some (d, word (roundToFormat (fp32 (s.rx a)) .bf16 .sr sat
      (randomWord (s.seedOf s.cur.tile) (s.rx b) (s.ssnumOf s.cur.tile))))
  | .fcvtF32Bf16 d a => some (d, word (roundFp32 (Format.bf16.decode ((s.rx a).setWidth 16).toNat)))
  | .fcvtF16 d a .toF16 => some (d, word (roundToFormat (fp32 (s.rx a)) .fp16 .rn false 0))
  | .fcvtF16 d a .toF16Sat => some (d, word (roundToFormat (fp32 (s.rx a)) .fp16 .rn true 0))
  | .fcvtF16 d a .toF32 => some (d, word (roundFp32 (Format.fp16.decode ((s.rx a).setWidth 16).toNat)))
  | _ => none

/-- The destination and the result of the instructions that the divide unit performs (05 R91, R93, R104). -/
def divideResult (s : State) : Instr → Option (Reg × Word)
  | .divS d a b => some (d, BitVec.ofInt 64 (if s.rx b = 0 then -1 else (s.rx a).toInt.tdiv (s.rx b).toInt))
  | .divZ d a b => some (d, if s.rx b = 0 then BitVec.allOnes 64 else BitVec.ofNat 64 ((s.rx a).toNat / (s.rx b).toNat))
  | .remS d a b => some (d, BitVec.ofInt 64 (if s.rx b = 0 then (s.rx a).toInt else (s.rx a).toInt.tmod (s.rx b).toInt))
  | .remZ d a b => some (d, BitVec.ofNat 64 (if s.rx b = 0 then (s.rx a).toNat else (s.rx a).toNat % (s.rx b).toNat))
  | .fdiv d a b => some (d, word (roundFp32 ((fp32 (s.rx a)).div (fp32 (s.rx b)))))
  | .fsqrt d a => some (d, word (roundFp32 (fp32 (s.rx a)).sqrt))
  | _ => none

/-- The cycles for which an instruction occupies the divide unit (05 R91). -/
def divideCycles : Instr → Nat
  | .fdiv .. => 16
  | .fsqrt .. => 20
  | _ => 40

/-! ### Results of the pointer instructions (05 R99-R103) -/

/-- A requirement of R99: what a pointer instruction writes, or the cause with which it traps. -/
def need (c : Nat) (ok : Bool) (r : Nat ⊕ Word) : Nat ⊕ Word := if ok then r else .inl c

/-- Check(P) of R99. -/
def State.checked (s : State) (p : Word) (r : Nat ⊕ Word) : Nat ⊕ Word :=
  match s.pointerCause p with
  | some c => .inl c
  | none => r

/-- A pointer whose location advances by a signed byte count (05 R101). -/
def State.advanced (s : State) (p : Word) (n : Int) : Nat ⊕ Word :=
  s.checked p (need 0x046 (decide (0 ≤ (ptrLoc p : Int) + n) && decide ((ptrLoc p : Int) + n < locLimit (ptrSpace p)))
    (.inr (BitVec.ofInt 64 (p.toNat + n))))

/-- A pointer with a field of `len` bits from bit `lo` replaced (05 R103). -/
def withBits (p : Word) (lo len v : Nat) : Word :=
  BitVec.ofNat 64 (p.toNat / 2 ^ (lo + len) * 2 ^ (lo + len) + v * 2 ^ lo + p.toNat % 2 ^ lo)

/-- A pointer built from its parts (05 R100). -/
def State.built (s : State) (a c : Word) (space idLow id top : Nat) : Nat ⊕ Word :=
  let p := BitVec.ofNat 64 (c.toNat % 16 * 2 ^ 60 + c.toNat / 16 % 8 * 2 ^ 57 + space * 2 ^ 55 + id * 2 ^ idLow + a.toNat)
  need 0x047 (decide (a.toNat < locLimit space) && decide (id < top)) (s.checked p (.inr p))

/-- A pointer with a field replaced, checked before and after (05 R103). -/
def State.replaced (s : State) (p b : Word) (lo len : Nat) : Nat ⊕ Word :=
  let q := withBits p lo len b.toNat
  s.checked p (need 0x047 (decide (b.toNat < 2 ^ len)) (s.checked q (.inr q)))

/-- What a pointer instruction that writes one register does: the destination, the value of xa, and the result or the cause. -/
def pointerResult (s : State) : Instr → Option (Reg × Word × (Nat ⊕ Word))
  | .pmk d a c .ver => some (d, s.rx a, s.built (s.rx a) (s.rx c) 0 48 0 1)
  | .pmk d a c .imm => some (d, s.rx a, s.built (s.rx a) (s.rx c) 2 48 0 1)
  | .pmk d a c (.tlm b) => some (d, s.rx a, s.built (s.rx a) (s.rx c) 1 43 (s.rx b).toNat (2 ^ 12))
  | .pmk d a c (.peer b) => some (d, s.rx a, s.built (s.rx a) (s.rx c) 3 41 (s.rx b).toNat (2 ^ 14))
  | .padd d a b => some (d, s.rx a, s.advanced (s.rx a) (s.rx b).toInt)
  | .paddi d a i => some (d, s.rx a, s.advanced (s.rx a) i.toInt)
  | .pset d a b .fmt => some (d, s.rx a, s.replaced (s.rx a) (s.rx b) 60 4)
  | .pset d a b .blk => some (d, s.rx a, s.replaced (s.rx a) (s.rx b) 57 3)
  | .pset d a b .id =>
    some (d, s.rx a,
      if ptrSpace (s.rx a) = 1 then s.replaced (s.rx a) (s.rx b) 43 12
      else if ptrSpace (s.rx a) = 3 then s.replaced (s.rx a) (s.rx b) 41 14
      else s.checked (s.rx a) (.inl 0x047))
  | .pset d a b .loc => some (d, s.rx a, s.replaced (s.rx a) (s.rx b) 0 (locTop (ptrSpace (s.rx a)) + 1))
  | .pidx (.one d a) b =>
    let f := ptrFmt (s.rx a)
    some (d, s.rx a, s.checked (s.rx a) (need 0x048 ((s.rx b).toInt % f.granElems == 0)
      (s.advanced (s.rx a) ((s.rx b).toInt / f.granElems * f.granBytes))))
  | _ => none

/-! ### Control transfers (06 Table 6.8) -/

/-- Whether a control transfer is taken, its target, and the register that it writes (06 R127). -/
def branch (s : State) : Instr → Option (Bool × Word × Option (Reg × Word))
  | .br a => some (true, s.rx a, none)
  | .brl a => some (true, s.rx a, some (15, s.cur.pc + 8))
  | .ret => some (true, s.rx 15, none)
  | .bri o => some (true, BitVec.ofInt 64 (s.cur.pc.toNat + 8 * o.toInt), none)
  | .brli o => some (true, BitVec.ofInt 64 (s.cur.pc.toNat + 8 * o.toInt), some (15, s.cur.pc + 8))
  | .loop a o => some (decide (s.rx a ≠ 1), BitVec.ofInt 64 (s.cur.pc.toNat + 8 * o.toInt), some (a, s.rx a - 1))
  | .beq a b o => some (decide (s.rx a = s.rx b), BitVec.ofInt 64 (s.cur.pc.toNat + 8 * o.toInt), none)
  | .bne a b o => some (decide (s.rx a ≠ s.rx b), BitVec.ofInt 64 (s.cur.pc.toNat + 8 * o.toInt), none)
  | .bltS a b o => some (decide ((s.rx a).toInt < (s.rx b).toInt), BitVec.ofInt 64 (s.cur.pc.toNat + 8 * o.toInt), none)
  | .bltZ a b o => some (decide ((s.rx a).toNat < (s.rx b).toNat), BitVec.ofInt 64 (s.cur.pc.toNat + 8 * o.toInt), none)
  | .bgeS a b o => some (decide ((s.rx b).toInt ≤ (s.rx a).toInt), BitVec.ofInt 64 (s.cur.pc.toNat + 8 * o.toInt), none)
  | .bgeZ a b o => some (decide ((s.rx b).toNat ≤ (s.rx a).toNat), BitVec.ofInt 64 (s.cur.pc.toNat + 8 * o.toInt), none)
  | _ => none

/-! ### Accesses (07, 08, 09) -/

/-- A load as its instruction gives it: the access, how its bytes become values, and its destinations (07 R154-R158, 09 R201). -/
def loadOf (s : State) : Instr → Option (Access × LoadKind × List RegName)
  | .ldS8 d m => some (⟨0x20, d, 1, true, m, false⟩, .sign, [.x d])
  | .ldZ8 d m => some (⟨0x21, d, 1, true, m, false⟩, .zero, [.x d])
  | .ldS16 d m => some (⟨0x22, d, 2, true, m, false⟩, .sign, [.x d])
  | .ldZ16 d m => some (⟨0x23, d, 2, true, m, false⟩, .zero, [.x d])
  | .ldS32 d m => some (⟨0x24, d, 4, true, m, false⟩, .sign, [.x d])
  | .ldZ32 d m => some (⟨0x25, d, 4, true, m, false⟩, .zero, [.x d])
  | .ld64 d m => some (⟨0x26, d, 8, true, m, false⟩, .zero, [.x d])
  | .ldp d m => some (⟨0x2B, d.even, 16, true, m, false⟩, .pair, [.x d.even, .x d.odd])
  | .ldf d m =>
    some (⟨0x2D, d, max ((ptrFmt (s.rx m.base)).bits / 8) 1, elemOk (s.rx m.base), m, false⟩, .elem (ptrFmt (s.rx m.base)), [.x d])
  | .ld64Pi d m => some (⟨0x30, d, 8, true, m, true⟩, .zero, [.x d])
  | .ldfPi d m =>
    some (⟨0x32, d, max ((ptrFmt (s.rx m.base)).bits / 8) 1, elemOk (s.rx m.base), m, true⟩, .elem (ptrFmt (s.rx m.base)), [.x d])
  | .lda32 d m => some (⟨0x38, d, 4, true, m, false⟩, .zero, [.x d])
  | .lda64 d m => some (⟨0x39, d, 8, true, m, false⟩, .zero, [.x d])
  | _ => none

/-- A store as its instruction gives it: the access, the bytes, and whether it is a release at device scope (07 R154-R158, 09 R201). -/
def storeOf (s : State) : Instr → Option (Access × List Byte × Bool)
  | .st8 d m => some (⟨0x27, d, 1, true, m, false⟩, toBytes 1 (s.rx d).toNat, false)
  | .st16 d m => some (⟨0x28, d, 2, true, m, false⟩, toBytes 2 (s.rx d).toNat, false)
  | .st32 d m => some (⟨0x29, d, 4, true, m, false⟩, toBytes 4 (s.rx d).toNat, false)
  | .st64 d m => some (⟨0x2A, d, 8, true, m, false⟩, toBytes 8 (s.rx d).toNat, false)
  | .stp d m => some (⟨0x2C, d.even, 16, true, m, false⟩, toBytes 8 (s.rx d.even).toNat ++ toBytes 8 (s.rx d.odd).toNat, false)
  | .stf d m =>
    some (⟨0x2E, d, max ((ptrFmt (s.rx m.base)).bits / 8) 1, elemOk (s.rx m.base), m, false⟩,
      storeElem (ptrFmt (s.rx m.base)) (s.rx d), false)
  | .st64Pi d m => some (⟨0x31, d, 8, true, m, true⟩, toBytes 8 (s.rx d).toNat, false)
  | .stfPi d m =>
    some (⟨0x33, d, max ((ptrFmt (s.rx m.base)).bits / 8) 1, elemOk (s.rx m.base), m, true⟩,
      storeElem (ptrFmt (s.rx m.base)) (s.rx d), false)
  | .stl32 d m => some (⟨0x3A, d, 4, true, m, false⟩, toBytes 4 (s.rx d).toNat, true)
  | .stl64 d m => some (⟨0x3B, d, 8, true, m, false⟩, toBytes 8 (s.rx d).toNat, true)
  | _ => none

/-- The signed byte count of an access's memory operand. -/
def State.stride (s : State) (a : Access) : Int := s.dispOf a.mem a.size

/-- The pointer of an access: the base, advanced by the displacement in the forms without a base update (07 R153, R158). -/
def State.reach (s : State) (a : Access) : Word :=
  if a.pi then s.rx a.mem.base else ptrAdd (s.rx a.mem.base) (s.stride a)

/-- The first local check that an access fails, with its TVAL (07 R147). -/
def State.refusal (s : State) (a : Access) (write : Bool) : Option (Nat × Word) :=
  s.accessCause s.cur.tile s.priv (s.rx a.mem.base) (if a.pi then 0 else s.stride a) (s.stride a) a.size write a.fmtOk

/-- The base register of a .pi form after its update; another register as it stands. -/
def State.updated (s : State) (a : Access) (r : Reg) : Word :=
  if a.pi = true ∧ r = a.mem.base then ptrAdd (s.rx a.mem.base) (s.stride a) else s.me.xv r

/-- Whether a request is the one that an access with an operation, a pointer and destinations makes (14 Table 14.1). -/
def Req.isFor (r : Req) (s : State) (op : ReqOp) (w : Word) (size : Nat) (k : SlackReg) (dests : List RegName) : Prop :=
  r.id = s.nextReq ∧ r.op = op ∧ r.sdev = s.devId ∧ r.tile = s.cur.tile ∧ r.slot = s.cur.slot ∧ r.sv = true ∧
    r.seq = (s.tile s.cur.tile).seq ∧ r.part = (s.partOf s.cur.tile).getD 0xFFFF ∧ r.space = ptrSpace w ∧ r.loc = ptrLoc w ∧
    r.size = size ∧ r.ptr = w ∧ r.slack = (vget s.me.k k.toNat 0xFFF).toNat ∧ r.xh = false ∧
    r.stage = (if ownTlm s.cur.tile w then .target else .port) ∧ r.place = .tile s.cur.tile ∧ r.moving = false ∧ r.stamp = s.gclk ∧
    r.ten = s.tenOf (s.partOf s.cur.tile) ∧ r.performed = false ∧ r.reply = .none ∧
    r.dests = dests ∧ r.epc = s.cur.pc ∧ (ptrSpace w = 1 → r.ttile = targetTile s.cur.tile w) ∧
    r.dev = if ptrSpace w = 3 then ptrDev w else s.devId

/-- Of the whole state only the issuing strand, its tile's sequence number and the request that it made differ. -/
def OnlyRequest (s t : State) (r : Req) (st : Strand) : Prop :=
  t.reqs = s.reqs ++ [r] ∧ t.nextReq = s.nextReq + 1 ∧ t.me = st ∧ SameMemory s t ∧
    ({ t with reqs := s.reqs, nextReq := s.nextReq }.apart s.cur.tile s.cur.slot).modTile s.cur.tile
        (fun w => { w with seq := (s.tile s.cur.tile).seq, touched := (s.tile s.cur.tile).touched }) =
      (s.apart s.cur.tile s.cur.slot).modTile s.cur.tile fun w => w

/-- A read-modify-write, compare or reduction as its instruction gives it: the operation, the pointer, the size, the slack class and
the destinations (08 R171-R173). -/
def atomicOf (s : State) : Instr → Option (ReqOp × Word × Nat × SlackReg × List RegName)
  | .amoAdd d a b k => some (.amo .add (s.rx b), s.rx a, 8, k, [.x d])
  | .amoAnd d a b k => some (.amo .and (s.rx b), s.rx a, 8, k, [.x d])
  | .amoOr d a b k => some (.amo .or (s.rx b), s.rx a, 8, k, [.x d])
  | .amoXor d a b k => some (.amo .xor (s.rx b), s.rx a, 8, k, [.x d])
  | .amoMinS d a b k => some (.amo .minS (s.rx b), s.rx a, 8, k, [.x d])
  | .amoMaxS d a b k => some (.amo .maxS (s.rx b), s.rx a, 8, k, [.x d])
  | .amoMinZ d a b k => some (.amo .minZ (s.rx b), s.rx a, 8, k, [.x d])
  | .amoMaxZ d a b k => some (.amo .maxZ (s.rx b), s.rx a, 8, k, [.x d])
  | .amoSwap d a b k => some (.amo .swap (s.rx b), s.rx a, 8, k, [.x d])
  | .amoAdd32 d a b k => some (.amo .add (s.rx b), s.rx a, 4, k, [.x d])
  | .amoSwap32 d a b k => some (.amo .swap (s.rx b), s.rx a, 4, k, [.x d])
  | .amoFaddF32 d a b k => some (.amo .fadd (s.rx b), s.rx a, 4, k, [.x d])
  | .cas32 d a b k => some (.cas (s.rx b.even) (s.rx b.odd), s.rx a, 4, k, [.x d])
  | .cas64 d a b k => some (.cas (s.rx b.even) (s.rx b.odd), s.rx a, 8, k, [.x d])
  | .redAddS64 a b k => some (.red .addS64 (s.rx b), s.rx a, 8, k, [])
  | .redAddF32 a b k => some (.red .addF32 (s.rx b), s.rx a, 4, k, [])
  | .redAddBf16 a b k => some (.red .addBf16 (s.rx b), s.rx a, 2, k, [])
  | .redAddBf16Sr a b k => some (.red .addBf16Sr (s.rx b), s.rx a, 2, k, [])
  | .redMinS64 a b k => some (.red .minS64 (s.rx b), s.rx a, 8, k, [])
  | .redMaxS64 a b k => some (.red .maxS64 (s.rx b), s.rx a, 8, k, [])
  | .redMaxF32 a b k => some (.red .maxF32 (s.rx b), s.rx a, 4, k, [])
  | .redOr64 a b k => some (.red .or64 (s.rx b), s.rx a, 8, k, [])
  | _ => none

/-- A wait for a value as its instruction gives it (09 R202). -/
def waitOf (s : State) : Instr → Option (ReqOp × Word × Nat × SlackReg × Reg)
  | .waitvEq d a b k => some (.waitv .eq (s.rx b), s.rx a, 8, k, d)
  | .waitvNe d a b k => some (.waitv .ne (s.rx b), s.rx a, 8, k, d)
  | .waitvGeS d a b k => some (.waitv .geS (s.rx b), s.rx a, 8, k, d)
  | .waitvEq32 d a b k => some (.waitv .eq (s.rx b), s.rx a, 4, k, d)
  | _ => none

/-- The use of a reservation as its instruction gives it (08 R169, R170). -/
def releaseOf (s : State) : Instr → Option (ReqOp × PredReg × Word × Nat × SlackReg)
  | .sch32 p a b k => some (.sch (s.rx b), p, s.rx a, 4, k)
  | .sch64 p a b k => some (.sch (s.rx b), p, s.rx a, 8, k)
  | .rlsv p a k => some (.rlsv, p, s.rx a, 8, k)
  | _ => none

/-! ### Memory as accesses find it (07 R139-R143) -/

/-- The pending version of a byte that a tile wrote in the superstep (07 R141). -/
def State.pending (s : State) (id rank a : Nat) : Option Byte := (assoc (s.part id).versions rank).bind fun o => assoc o a

/-- The held delta of a byte of tile `k` that another tile wrote in the superstep (07 R139). -/
def State.delta (s : State) (k rank a : Nat) : Option Byte := (assoc (s.tile k).deltas rank).bind fun o => assoc o a

/-- The bytes `l` from `a` on. -/
def placed (a : Nat) (l : List Byte) (b : Nat) : Option Byte := if a ≤ b then l[b - a]? else none

/-- Whether a packet has arrived where it stands, so that it may be taken there: none of its VC is before it on the wire (14 R307). -/
def State.atEnd (s : State) (r : Req) : Prop := r.moving = false ∨ s.overtakes r = false

/-- XEV after an exhausted answer (14 R318). -/
def Req.counted32 (r : Req) (n : Nat) : Nat := if r.xh = true ∧ r.counted = false then min (n + 1) 0xFFFFFFFF else n

/-- A strand after the answer of one of its requests was counted: an exhausted one is held as a cause with SSTAT.XTRAP (14 R318). -/
def Strand.afterCount (st : Strand) (r : Req) (xev : Nat) : Strand :=
  if r.xh = true ∧ r.counted = false ∧ st.xtrap = true ∧ st.st = .live then
    { st with held := st.held ++ [⟨0x100, word (r.counted32 xev)⟩] }
  else st

/-- A strand's reservation table after an answer (08 R166, R168-R170). -/
def Strand.afterResv (st : Strand) (r : Req) (a : Reply) : Strand :=
  let word := r.loc / 8
  match r.op, a with
  | .lrw, .value _ => { st with resv := st.resv.map fun v => if v.word = word then { v with held := true } else v }
  | .lrw, .fault _ => { st with resv := st.resv.filter fun v => v.word != word }
  | .sch _, _ | .rlsv, _ => { st with resv := st.resv.filter fun v => v.word != word }
  | _, _ => st

/-! ### Engine commands (11, 12) -/

/-- A matrix instruction as it issues: the check that it fails first, if any, and the command that it queues (11 R228, R241, R243-R252). -/
def matrixOf (s : State) (i : Instr) : Option (Option (Nat × Word) × Cmd) :=
  let fails (f : Option Format) (p : RegPair) : Option (Nat × Word) := s.operandCause f (s.scaledPair p).1 (s.scaledPair p).2
  let away (p : RegPair) : Option (Nat × Word) := operandHome s.cur.tile (s.scaledPair p).1 (s.scaledPair p).2
  let mma (f : Format) (d : Reg) (a b : RegPair) (c : Reg) : Option (Option (Nat × Word) × Cmd) :=
    some (fails (some f) a <|> fails (some f) b <|>
        (if ptrBlk (s.rx a.even) = ptrBlk (s.rx b.even) then none else some (0x045, s.rx b.even)) <|> away a <|> away b,
      s.captured i d (s.scaledPair a) (s.scaledPair b) (s.rx c) 0)
  let mmal (f : Format) (d : Reg) (a : RegPair) (c : Reg) : Option (Option (Nat × Word) × Cmd) :=
    some (fails (some f) a <|> away a, s.captured i d (s.scaledPair a) (0, 0) (s.rx c) 0)
  match i with
  | .mcfg d a => some (s.mcfgCause (s.rx a), s.captured i d (s.rx a, 0) (0, 0) 0 0)
  | .mzero d c => some (none, s.captured i d (0, 0) (0, 0) (s.rx c) 0)
  | .latb d a c => some (fails none a <|> away a, s.captured i d (0, 0) (s.scaledPair a) (s.rx c) 0)
  | .rotb d k => some (none, s.captured i d (0, 0) (0, 0) 0 (vget s.me.k k.toNat 0xFFF).toNat)
  | .mst d a c k _ => some (s.cellsCause (s.rx a), s.captured i d (s.rx a, 0) (0, 0) (s.rx c) (vget s.me.k k.toNat 0xFFF).toNat)
  | .mldc d a c k => some (s.cellsCause (s.rx a), s.captured i d (s.rx a, 0) (0, 0) (s.rx c) (vget s.me.k k.toNat 0xFFF).toNat)
  | .mscl d a c _ => some (none, s.captured i d (s.rx a, 0) (0, 0) (s.rx c) 0)
  | .mmaE4m3 d a b c _ => mma .e4m3 d a b c
  | .mmaE5m2 d a b c _ => mma .e5m2 d a b c
  | .mmaE3m2 d a b c _ => mma .e3m2 d a b c
  | .mmaE2m3 d a b c _ => mma .e2m3 d a b c
  | .mmaE2m1 d a b c _ => mma .e2m1 d a b c
  | .mmaBf16 d a b c _ => mma .bf16 d a b c
  | .mmaF16 d a b c _ => mma .fp16 d a b c
  | .mmaS8 d a b c _ => mma .s8 d a b c
  | .mmalE4m3 d a c _ => mmal .e4m3 d a c
  | .mmalE5m2 d a c _ => mmal .e5m2 d a c
  | .mmalE3m2 d a c _ => mmal .e3m2 d a c
  | .mmalE2m3 d a c _ => mmal .e2m3 d a c
  | .mmalE2m1 d a c _ => mmal .e2m1 d a c
  | .mmalBf16 d a c _ => mmal .bf16 d a c
  | .mmalF16 d a c _ => mmal .fp16 d a c
  | .mmalS8 d a c _ => mmal .s8 d a c
  | _ => none

/-- A vector instruction as it issues: its register, whether RM may be other than 0, the value that MSK must have, a failed check of its
parameter, its pointer operands in the order of the checks, and the words that it captures for ra, rb and rc. -/
structure VecForm where
  rd    : Reg
  rm    : Bool
  msk   : Option Bool
  param : Option (Nat × Word)
  ptrs  : List VecPtr
  a     : Word × Word
  b     : Word × Word
  c     : Word × Word

/-- The vector instructions (12 R258-R274, Table 12.2). -/
def vectorOf (s : State) (i : Instr) : Option VecForm :=
  let unary (d a : Reg) (b : RegPair) (rm : Bool) (c : Word) : Option VecForm :=
    some ⟨d, rm, none, none, [plainPtr (s.rx a) numeric, pairPtr (s.scaledPair b)], (s.rx a, 0), s.scaledPair b, (c, 0)⟩
  let binary (d a : Reg) (b : RegPair) (src : VSrc) (msk : Option Bool) (dst : Format → Bool) : Option VecForm :=
    match src with
    | .array c => some ⟨d, false, msk, none, [plainPtr (s.rx a) dst, pairPtr (s.scaledPair b), pairPtr (s.scaledPair c)], (s.rx a, 0),
        s.scaledPair b, s.scaledPair c⟩
    | .sf c | .si c =>
      some ⟨d, false, msk, none, [plainPtr (s.rx a) dst, pairPtr (s.scaledPair b)], (s.rx a, 0), s.scaledPair b, (s.rx c, 0)⟩
  let bits (d a b : Reg) (src : VBits) : Option VecForm :=
    let wide (f : Format) : Bool := f.bits == (ptrFmt (s.rx a)).bits
    match src with
    | .array c => some ⟨d, false, none, none, [plainPtr (s.rx a) wide, plainPtr (s.rx b) wide, plainPtr (s.rx c) wide], (s.rx a, 0),
        (s.rx b, 0), (s.rx c, 0)⟩
    | .sb c => some ⟨d, false, none, none, [plainPtr (s.rx a) wide, plainPtr (s.rx b) wide], (s.rx a, 0), (s.rx b, 0), (s.rx c, 0)⟩
  let shift (d a b c : Reg) : Option VecForm :=
    some ⟨d, false, none, none, [plainPtr (s.rx a) fun f => f == ptrFmt (s.rx b), plainPtr (s.rx b) integral], (s.rx a, 0),
      (s.rx b, 0), (s.rx c, 0)⟩
  let table (d a : Reg) (b : RegPair) (c : Reg) : Option VecForm :=
    some ⟨d, false, none, none, [plainPtr (s.rx a) numeric, pairPtr (s.scaledPair b), plainPtr (s.rx c) indexFmt], (s.rx a, 0),
      s.scaledPair b, (s.rx c, 0)⟩
  match i with
  | .vadd d a b src | .vsub d a b src | .vmul d a b src | .vfma d a b src | .vmin d a b src | .vmax d a b src | .vdiv d a b src =>
    binary d a b src none numeric
  | .vcmpEq d a b src | .vcmpLt d a b src | .vcmpLe d a b src => binary d a b src none fun f => f == .raw
  | .vsel d a b src => binary d a b src (some true) numeric
  | .vabs d a b | .vneg d a b | .vamax d a b | .vexp2 d a b | .vsqrt d a b | .vrsq d a b => unary d a b false 0
  | .vcvt d a b | .vsum d a b | .vscan d a b _ => unary d a b true 0
  | .vclamp d a b c => unary d a b false (s.rx c)
  | .vdq d a b c => unary d a b true (s.rx c)
  | .vdot d a b c => some ⟨d, true, none, none, [plainPtr (s.rx a) numeric, pairPtr (s.scaledPair b), pairPtr (s.scaledPair c)],
      (s.rx a, 0), s.scaledPair b, s.scaledPair c⟩
  | .vqnt d a b c => some ⟨d, true, none, none, [pairPtr (s.scaledPair a), pairPtr (s.scaledPair b)], s.scaledPair a, s.scaledPair b,
      (s.rx c, 0)⟩
  | .vmxs d a b => some ⟨d, false, some false, none,
      [⟨(s.scaledPair a).1, (s.scaledPair a).2, (ptrFmt (s.rx a.even)).scalable && ptrBlk (s.rx a.even) != 0⟩, pairPtr (s.scaledPair b)],
      s.scaledPair a, s.scaledPair b, (0, 0)⟩
  | .vfill d a (.fp32 c) | .vfill d a (.si c) | .viota d a c =>
    some ⟨d, false, none, none, [plainPtr (s.rx a) numeric], (s.rx a, 0), (0, 0), (s.rx c, 0)⟩
  | .vgath d a b c | .vscat d a b c => table d a b c
  | .vsortk d a b none => some ⟨d, false, some false, none,
      [plainPtr (s.rx a) fun f => f == ptrFmt (s.rx b), plainPtr (s.rx b) fun f => numeric f && f.bits % 8 == 0], (s.rx a, 0), (s.rx b, 0),
      (0, 0)⟩
  | .vsortk d a b (some c) => some ⟨d, false, some false, none,
      [plainPtr (s.rx a) fun f => f == ptrFmt (s.rx b), plainPtr (s.rx b) fun f => numeric f && f.bits % 8 == 0,
        plainPtr (s.rx c) fun f => f == .z32], (s.rx a, 0), (s.rx b, 0), (s.rx c, 0)⟩
  | .vhist d a b c _ => some ⟨d, false, none,
      if fieldOf (s.rx c) 63 28 ≠ 0 ∨ fieldOf (s.rx c) 15 6 ≠ 0 then some (0x0C2, s.rx c) else none,
      [plainPtr (s.rx a) fun f => f == .z32 || f == .s64, plainPtr (s.rx b) fun f => f == .raw || integral f], (s.rx a, 0), (s.rx b, 0),
      (s.rx c, 0)⟩
  | .vand d a b src | .vor d a b src | .vxor d a b src | .vandn d a b src => bits d a b src
  | .vshl d a b c | .vshrZ d a b c | .vshrS d a b c => shift d a b c
  | _ => none

/-- The check of a vector instruction's form that fails first (12 R258, R259): the control word, the parameter, the pointers, their
alignment. -/
def VecForm.fails (s : State) (v : VecForm) : Option (Nat × Word) :=
  ctlCause (s.rx v.rd) v.rm v.msk <|> v.param <|> firstCause s.vecPtrCause v.ptrs <|> firstCause alignCause v.ptrs

/-! ### What engine commands compute (11, 12) -/

/-- A command of engine 2 or 3 of tile `k` has ended: its status word stands in its register, which is pending no more, no other register of
a strand of the tile differs, and the tile's engines are `g`. -/
def Cmd.ends (c : Cmd) (s t : State) (k : Nat) (g : TileEng) (code engine count : Nat) : Prop :=
  (t.tile k).eng = g ∧ (t.strand k c.slot).xv c.rd = statusWord c.id code engine count ∧ (t.strand k c.slot).pending (.x c.rd) = false ∧
    ∀ n, (∀ r, n ≠ c.slot ∨ r ≠ c.rd → (t.strand k n).xv r = (s.strand k n).xv r) ∧ ∀ p, (t.strand k n).pv p = (s.strand k n).pv p

/-- The bits of element `i` of `width` bits at a pointer into a tile's TLM (04 R71, 12 R260). -/
def Tile.bitsAt (t : Tile) (p : Word) (width i : Nat) : Nat :=
  ofBytes (t.bytes (ptrLoc p + i * width / 8) 9) / 2 ^ (i * width % 8) % 2 ^ width

/-- The exact value of element `i` of an operand in a tile's TLM, with its scale (04 R76). -/
def Tile.numAt (t : Tile) (p q : Word) (i : Nat) : Num :=
  let v := (ptrFmt p).decode (t.bitsAt p (ptrFmt p).bits i)
  if ptrBlk p = 0 then v else applyScale v (t.byte (ptrLoc q + i / 2 ^ (ptrBlk p + 2)))

/-- The active elements of a vector command in ascending order; VSEL is done for every element (12 R262). -/
def Cmd.lanes (c : Cmd) (t : Tile) : List Nat :=
  (List.range (vecN c.ctl)).filter fun i => c.isSelect || !vecMsk c.ctl || (t.byte (vecMoff c.ctl + i / 8)).getLsbD (i % 8)

/-- Narrow for element `i` of a command (12 R261). -/
def Cmd.encode (c : Cmd) (s : State) (k : Nat) (i : Word) (v : Num) : Nat :=
  narrowTo (ptrFmt c.a) (vecRnd c.ctl) (vecSat c.ctl) (if vecRm c.ctl = 2 then randomWord (s.seedOf k) (c.a + 2 * i) (s.ssnumOf k) else 0) v

/-- The exact sum of some elements' terms in a cleared accumulator (12 R269). -/
def sumOf (l : List Num) : Num := (l.foldl (fun (a : Acc) x => a.add x.bounded) Acc.clear).value

/-- The largest magnitude of some values, NaN if one is NaN (12 R268, R269). -/
def amaxOf (l : List Num) : Num := l.foldl (fun m x => if m.isNaN || x.isNaN then .nan else m.maxOf x.abs) Num.zero

/-- The index that element `i` of a table command names (12 R271). -/
def Cmd.index (c : Cmd) (t : Tile) (i : Nat) : Int := ((t.numAt c.c 0 i).int?).getD 0

/-- The encoding of element `i` of the result of a command that streams, over sources in its own tile's TLM (12 Table 12.3, R261, R262,
R266, R267, R269-R271, R274). -/
def Cmd.result (c : Cmd) (s : State) (k i : Nat) : Option Nat :=
  let t := s.tile k
  let a := t.numAt c.b c.bq i
  let put (v : Num) : Option Nat := some (c.encode s k (word i) v)
  let second (src : VSrc) : Num := match src with
    | .array _ => t.numAt c.c c.cq i
    | .sf _ => fp32 c.c
    | .si _ => .ofInt c.c.toInt
  let n := (ptrFmt c.a).bits
  let logic (src : VBits) (f : Nat → Nat → Nat) : Option Nat := match src with
    | .array _ => if (ptrFmt c.b).bits = n ∧ (ptrFmt c.c).bits = n then some (f (t.bitsAt c.b n i) (t.bitsAt c.c n i)) else none
    | .sb _ => if (ptrFmt c.b).bits = n then some (f (t.bitsAt c.b n i) (c.c.toNat % 2 ^ n)) else none
  let on (b : Bool) : Option Nat := some (if b then 1 else 0)
  let m := (ptrFmt c.b).bits
  let key := t.bitsAt c.b m i
  let by' := fieldOf c.c 6 0
  let before (j : Nat) : List Num := ((c.lanes t).filter (· < j)).map (t.numAt c.b c.bq)
  match c.op with
  | .vadd _ _ _ src => put (a.add (second src))
  | .vsub _ _ _ src => put (a.add (second src).neg)
  | .vmul _ _ _ src => put (a.mul (second src))
  | .vfma _ _ _ src => if ptrBlk c.a = 0 then put ((a.mul (second src)).add (t.numAt c.a 0 i)) else none
  | .vmin _ _ _ src => put (a.minOf (second src))
  | .vmax _ _ _ src => put (a.maxOf (second src))
  | .vdiv _ _ _ src => put (a.div (second src))
  | .vcmpEq _ _ _ src => on (Num.eq a (second src))
  | .vcmpLt _ _ _ src => on (Num.lt a (second src))
  | .vcmpLe _ _ _ src => on (Num.lt a (second src) || Num.eq a (second src))
  | .vsel _ _ _ src => put (if !vecMsk c.ctl || (t.byte (vecMoff c.ctl + i / 8)).getLsbD (i % 8) then a else second src)
  | .vabs .. => put a.abs
  | .vneg .. => put a.neg
  | .vclamp .. => put ((a.maxOf (fp32 c.c)).minOf (fp32 (c.c >>> 32)))
  | .vcvt .. => put a
  | .vqnt .. => put (a.div ((fp32 c.c).mul (if ptrBlk c.a = 0 then .ofInt 1 else applyScale (.ofInt 1) (t.byte (ptrLoc c.aq + i / 2 ^ (ptrBlk c.a + 2))))))
  | .vdq .. => put (a.mul (fp32 c.c))
  | .vscan _ _ _ ex => put (sumOf (before (if ex then i else i + 1)))
  | .vexp2 .. => some (exp2To (ptrFmt c.a) (vecSat c.ctl) a)
  | .vsqrt .. => put a.sqrt
  | .vrsq .. => put a.rsqrt
  | .vfill _ _ (.fp32 _) => put (fp32 c.c)
  | .vfill _ _ (.si _) => put (.ofInt c.c.toInt)
  | .viota .. => put (.ofInt ((c.c.setWidth 32).toInt + i * ((c.c >>> 32).setWidth 32).toInt))
  | .vgath .. => if ptrBlk c.c = 0 then put (t.numAt c.b c.bq (c.index t i).toNat) else none
  | .vand _ _ _ src => logic src fun x y => x &&& y
  | .vor _ _ _ src => logic src fun x y => x ||| y
  | .vxor _ _ _ src => logic src fun x y => x ^^^ y
  | .vandn _ _ _ src => logic src fun x y => x &&& (2 ^ n - 1 - y)
  | .vshl .. => some (key * 2 ^ by' % 2 ^ m)
  | .vshrZ .. => some (key / 2 ^ by')
  | .vshrS .. => some (BitVec.ofInt m ((BitVec.ofNat m key).toInt / 2 ^ by')).toNat
  | _ => none

/-- The value of a reduction (12 R269). -/
def Cmd.reduced (c : Cmd) (t : Tile) : Option Num :=
  let a := t.numAt c.b c.bq
  match c.op with
  | .vsum .. => some (sumOf ((c.lanes t).map a))
  | .vdot .. => some (sumOf ((c.lanes t).map fun i => (a i).mul (t.numAt c.c c.cq i)))
  | .vamax .. => some (amaxOf ((c.lanes t).map a))
  | _ => none

/-- The first byte and the number of bytes that element `i` of `width` bits touches. -/
def bytesOf (p : Word) (width i : Nat) : Nat × Nat := (ptrLoc p + i * width / 8, (i * width % 8 + width + 7) / 8)

/-- Whether bytes of a pointer lie in the TLM of tile `k` where a strand of a privilege may access them, in banks that are not in
retention, and apart from some ranges. -/
def State.reachable (s : State) (k priv : Nat) (p : Word) (write : Bool) (at' : Nat × Nat) (others : List (Nat × Nat)) : Prop :=
  ownTlm k p = true ∧ tlmMay priv write at'.1 at'.2 = true ∧ (s.tile k).asleep at'.1 at'.2 = false ∧ (write = true → 0x1000 ≤ at'.1) ∧
    ∀ o ∈ others, at'.1 + at'.2 ≤ o.1 ∨ o.1 + o.2 ≤ at'.1

/-- Whether a vector command of tile `k` finds the ranges of its start check in its own tile's TLM, awake, without uncorrectable words and
outside what hardware keeps, each range that it writes apart from its other ranges, with room for the undo copies. -/
def State.vecAtHome (s : State) (k : Nat) (c : Cmd) : Prop :=
  let w := s.tile k
  let size (r : Word × Int × Bool) : Nat := (r.2.1 + 1).toNat
  c.vecCheck = none ∧ w.asleepAny (c.vecOwn k) = false ∧ w.bad = [] ∧ Memory.wf w.tlm = true ∧ (∀ r ∈ s.reqs, r.stage ≠ .waiting) ∧
    (∀ r ∈ c.vecRanges, ownTlm k r.1 = true ∧ (r.2.2 = true → 0x1000 ≤ ptrLoc r.1)) ∧
    (c.vecRanges.Pairwise fun r q => (r.2.2 || q.2.2) = true → ptrLoc r.1 + size r ≤ ptrLoc q.1 ∨ ptrLoc q.1 + size q ≤ ptrLoc r.1) ∧
    w.undo.length + ((c.vecRanges.filter (·.2.2)).map fun r => (w.newGranules (s.scratchFrom k) (ptrLoc r.1) (size r)).length).sum ≤ 2048

end Sys2Proof.Machine
end

