-- ==== Sys2Proof/Certificates/Slice0/Obligations.lean ====
section
/-! DEFINITION. The statements about the machine: what each instruction and operation does and leaves alone, what it answers, and the
rules that hold of every step. A statement about an instruction that issues speaks of a state whose `cur` names the issuing strand
and what its bundle reads (02 R28); one about another agent's operation speaks of what `cur.ev` names. A statement in parts joins the
parts that stand before it, each a definition under Claims. -/

open Sys2Proof Sys2Proof.Machine

/-! ### Scalar instructions (02, 05) -/

/-- 05 R93-R96, R103, 14 R328: each integer, logic, shift and move instruction, PGET and SLKGET answers a next state in which its
destination holds the value that the tables give, as a result of the latency of 02 Table 2.6, and nothing else has changed. -/
def Obligations.IntegerResults : Prop :=
  ∀ (s : State) (i : Instr) (d : Reg) (v : Word), s.cur.slot < 16 → intResult s i = some (d, v) →
    ∃ t, exec i s = .next t ∧ t.me.xv d = v ∧ t.me = s.me.result (latency i) (.x d) v ∧ OnlyRegs s t [d] []

/-- 05 R97, R98, R106: each compare and predicate instruction answers a next state in which its destination holds the result, where p0
still reads 1, as a result of the latency of 02 Table 2.6, and nothing else has changed. -/
def Claims.PredicateResults : Prop :=
  ∀ (s : State) (i : Instr) (d : PredReg) (v : Bool), s.cur.slot < 16 → predResult s i = some (d, v) →
    ∃ t, exec i s = .next t ∧ t.me.pv d = (d == 0 || v) ∧ t.me = s.me.result (latency i) (.p d) (predWord v) ∧ OnlyRegs s t [] [d]

/-- 05 R104-R109: each FP32 instruction outside the divide unit answers a next state in which its destination holds the result, rounded
once, as a result of the latency of 02 Table 2.6, and nothing else has changed. -/
def Claims.FloatResults : Prop :=
  ∀ (s : State) (i : Instr) (d : Reg) (v : Word), s.cur.slot < 16 → floatResult s i = some (d, v) →
    ∃ t, exec i s = .next t ∧ t.me.xv d = v ∧ t.me = s.me.result (latency i) (.x d) v ∧ OnlyRegs s t [d] []

/-- The statements above as one: PredicateResults, FloatResults. -/
def Obligations.PredicateAndFloatResults : Prop :=
  Claims.PredicateResults ∧ Claims.FloatResults

/-- 02 R41, R42: a fixed-latency result is read by bundles at a distance of its latency or more, whatever earlier results are still in
flight, which never overwrite it; bundles at a lesser distance read what the register or the predicate would hold without it. -/
def Claims.FixedLatencyVisible : Prop :=
  ∀ (st : Strand) (lat d : Nat) (v : Word),
    (lat ≤ d → 1 ≤ d → ∀ e,
      (∀ r, vget (((st.result lat (.x r) v).advance d).advance e).x r.toNat 0 = v) ∧
      ∀ p, p ≠ 0 → (((st.result lat (.p p) v).advance d).advance e).pred.getLsbD p.toNat = bitOf v 0) ∧
    (d < lat → 1 < lat → ∀ r,
      ((st.result lat r v).advance d).x = (st.advance d).x ∧ ((st.result lat r v).advance d).pred = (st.advance d).pred)

/-- 02 R42, R43: a variable-latency result that arrives is in its register at once and for good, the register is no longer pending, and
no other register or pending bit changes. -/
def Claims.VariableResultsLand : Prop :=
  ∀ (st : Strand) (r : Reg) (v : Word),
    vget (st.land (.x r) v).x r.toNat 0 = v ∧ (st.land (.x r) v).xv r = v ∧ (st.land (.x r) v).pending (.x r) = false ∧
      (∀ q, q ≠ r → (st.land (.x r) v).xv q = st.xv q ∧ (st.land (.x r) v).pending (.x q) = st.pending (.x q)) ∧
      (∀ p, (st.land (.x r) v).pv p = st.pv p ∧ (st.land (.x r) v).pending (.p p) = st.pending (.p p))

/-- The statements above as one: FixedLatencyVisible, VariableResultsLand. -/
def Obligations.ResultsBecomeVisible : Prop :=
  Claims.FixedLatencyVisible ∧ Claims.VariableResultsLand

/-- 05 R91, R93, R104: DIV, REM, FDIV and FSQRT enter the divide unit with their value, their destination pending; they end 40, 16 or
20 cycles after the operation before them, or after they enter an idle unit; while 16 operations are held the bundle waits. -/
def Claims.DivideUnitTakes : Prop :=
  ∀ (s : State) (i : Instr) (d : Reg) (v : Word), s.cur.slot < 16 → divideResult s i = some (d, v) →
    let g := (s.tile s.cur.tile).eng
    let idle := max s.cyc ((g.divq.getLast?.map fun q => q.due).getD 0)
    (g.divq.length < 16 → ∃ t, exec i s = .next t ∧
      OnlyCommand s t s.cur.tile s.cur.slot (s.me.mark (.x d))
        { g with divq := g.divq ++ [⟨s.cur.slot, d, v, idle + divideCycles i⟩] }) ∧
    (16 ≤ g.divq.length → exec i s = .next s.hold)

/-- 05 R91: DIVIDE_COMPLETE ends the oldest operation of the unit, once its cycles are over, and writes its result, no longer pending, in
a strand that lives; what it left for a slot that is not live is discarded. -/
def Claims.DivideUnitEnds : Prop :=
  ∀ (s : State) (d : DivOp) (l : List DivOp), (s.tile s.cur.ev.tile).eng.divq = d :: l → d.slot < 16 → d.due ≤ s.cyc →
    ∃ t, exec .divideComplete s = .next t ∧
      OnlyCommand s t s.cur.ev.tile d.slot
        (if (s.strand s.cur.ev.tile d.slot).st = .live then (s.strand s.cur.ev.tile d.slot).land (.x d.rd) d.val
         else s.strand s.cur.ev.tile d.slot)
        { (s.tile s.cur.ev.tile).eng with divq := l }

/-- The statements above as one: DivideUnitTakes, DivideUnitEnds. -/
def Obligations.DivideUnit : Prop :=
  Claims.DivideUnitTakes ∧ Claims.DivideUnitEnds

/-- 05 R99-R103: PMK, PADD, PADDI, PSET and PIDX on single registers answer a next state in which the destination holds the pointer and
nothing else has changed, where every requirement holds; else they trap with the cause of the first that fails and TVAL = xa. -/
def Claims.PointerResults : Prop :=
  ∀ (s : State) (i : Instr) (d : Reg) (a p : Word) (c : Nat), s.cur.slot < 16 →
    (pointerResult s i = some (d, a, .inr p) → ∃ t, exec i s = .next t ∧ t.me.xv d = p ∧ OnlyRegs s t [d] []) ∧
      (pointerResult s i = some (d, a, .inl c) → exec i s = .next (s.trapAtIssue c a))

/-- 05 R102: PIDX on a pair whose pointer has BLK = 0 does what it does on the even registers alone; where the pointer is scaled, it
advances by the elements and the scale pointer by one byte a block, and the first requirement that fails traps with TVAL = xa. -/
def Claims.ScaledPairsAdvance : Prop :=
  ∀ (s : State) (d a : RegPair) (b : Reg), s.cur.slot < 16 →
    let p := s.rx a.even
    let q := s.rx a.odd
    let n := (s.rx b).toInt
    let f := ptrFmt p
    let len : Int := 2 ^ (ptrBlk p + 2)
    let low := s.checked p (need 0x048 (n % f.granElems == 0) (s.advanced p (n / f.granElems * f.granBytes)))
    let scale := s.checked q (need 0x048 (n % len == 0) (s.advanced q (n / len)))
    (ptrBlk p = 0 → exec (.pidx (.pair d a) b) s = exec (.pidx (.one d.even a.even) b) s) ∧
    (∀ c, low = .inl c → exec (.pidx (.pair d a) b) s = .next (s.trapAtIssue c p)) ∧
    (ptrBlk p ≠ 0 → ∀ p', low = .inr p' →
      (∀ c, scale = .inl c → exec (.pidx (.pair d a) b) s = .next (s.trapAtIssue c p)) ∧
      ∀ q', scale = .inr q' → ∃ t, exec (.pidx (.pair d a) b) s = .next t ∧
        t.me.xv d.even = p' ∧ t.me.xv d.odd = q' ∧ OnlyRegs s t [d.even, d.odd] [])

/-- The statements above as one: PointerResults, ScaledPairsAdvance. -/
def Obligations.PointerInstructions : Prop :=
  Claims.PointerResults ∧ Claims.ScaledPairsAdvance

/-! ### Control (06) -/

/-- 06 R127: a control transfer whose target is aligned sets the pc to the target when it is taken, else to the next bundle, writes its
register, and changes nothing else; one that is taken to a misaligned target traps after issue with 0x081. -/
def Obligations.ControlTransfers : Prop :=
  ∀ (s : State) (i : Instr) (taken : Bool) (target : Word) (wr : Option (Reg × Word)), s.cur.slot < 16 →
    branch s i = some (taken, target, wr) →
    ((taken = true → target.toNat % 8 = 0) → ∃ t, exec i s = .next t ∧ t.me.pc = (if taken then target else s.cur.pc + 8) ∧
      (∀ r v, wr = some (r, v) → t.me.xv r = v) ∧
      OnlyRegsAnd s t { s.me with pc := if taken then target else s.cur.pc + 8 } (wr.toList.map (·.1)) []) ∧
    (taken = true → target.toNat % 8 ≠ 0 → exec i s = .next (s.trapAfter 0x081 target))

/-- 06 R128, R131, R132, 17 R390: NOP does nothing; YIELD sleeps for 16 cycles; WAITR answers the named registers that are not pending,
or sleeps while all of them are; IDLE goes on when something is due and sleeps otherwise. A strand that sleeps stays at its bundle. -/
def Claims.SleepingBundles : Prop :=
  ∀ (s : State) (xa xd : Reg), s.cur.slot < 16 →
    let mask : BitVec 16 := (s.rx xa).setWidth 16
    let here := mask &&& ~~~s.cur.pend
    exec .nop s = .next s ∧
    (∃ t, exec .yield s = .next t ∧ OnlyMe s t { s.me with sleep := .yield (s.cyc + 16), pc := s.cur.pc }) ∧
    (mask = 0 ∨ here ≠ 0 → ∃ t, exec (.waitr xa xd) s = .next t ∧ t.me.xv xd = here.setWidth 64 ∧ OnlyRegs s t [xd] []) ∧
    (mask ≠ 0 → here = 0 → ∃ t, exec (.waitr xa xd) s = .next t ∧ OnlyMe s t { s.me with sleep := .waitr xd mask, pc := s.cur.pc }) ∧
    (s.idleDue s.cur.tile s.cur.slot = true → exec .idle s = .next s) ∧
    (s.idleDue s.cur.tile s.cur.slot = false → ∃ t, exec .idle s = .next t ∧ OnlyMe s t { s.me with sleep := .idle, pc := s.cur.pc })

/-- 06 R128, R132: YIELD_WAKE and WAITR_WAKE wake a strand past its bundle, once 16 cycles have passed or a named register is no longer
pending; WAITR then writes the mask of those. -/
def Claims.SleepersWake : Prop :=
  ∀ (s : State) (till : Nat) (xd : Reg) (mask : BitVec 16), s.cur.ev.slot < 16 →
    let k := s.cur.ev.tile
    let n := s.cur.ev.slot
    let st := s.strand k n
    let here := mask &&& ~~~st.pend
    (st.sleep = .yield till → till ≤ s.cyc → ∃ t, exec .yieldWake s = .next t ∧
      OnlyStrand s t k n { st with sleep := .awake, pc := st.pc + 8 }) ∧
    (st.sleep = .waitr xd mask → here ≠ 0 → ∃ t, exec .waitrWake s = .next t ∧ (t.strand k n).xv xd = here.setWidth 64 ∧
      t.apart k n = s.apart k n ∧ (t.strand k n).bare = { st.bare with sleep := .awake, pc := st.pc + 8 } ∧
      (∀ r, r ≠ xd → (t.strand k n).xv r = st.xv r) ∧ (∀ p, (t.strand k n).pv p = st.pv p) ∧ SameMemory s t)

/-- The statements above as one: SleepingBundles, SleepersWake. -/
def Obligations.SleepingAndWaking : Prop :=
  Claims.SleepingBundles ∧ Claims.SleepersWake

/-- 06 R123, R131: JOIN and LEAVE set and clear the strand's bit of the set that bits 5:0 of xa name; LEAVE of a set of which it is no
member changes nothing; one that leaves only arrived members behind completes the set's barrier. -/
def Claims.MembershipChanges : Prop :=
  ∀ (s : State) (xa : Reg), s.cur.slot < 16 →
    let k := s.cur.tile
    let n := s.cur.slot
    let c := (s.tile k).core
    let i := (s.rx xa).toNat % 64
    let m := vget c.sets i ⟨0, 0⟩
    let bit := 1#16 <<< n
    let rest : MemberSet := ⟨m.members &&& ~~~bit, m.arrived &&& ~~~bit⟩
    (∃ t, exec (.join xa) s = .next t ∧ OnlyCore s t k { c with sets := vset c.sets i ⟨m.members ||| bit, m.arrived⟩ }) ∧
    (m.members &&& bit = 0 → ∃ t, exec (.leave xa) s = .next t ∧ OnlyCore s t k c) ∧
    (m.members &&& bit ≠ 0 → (rest.members ≠ rest.arrived ∨ rest.members = 0) →
      ∃ t, exec (.leave xa) s = .next t ∧ OnlyCore s t k { c with sets := vset c.sets i rest }) ∧
    (m.members &&& bit ≠ 0 → rest.members = rest.arrived → rest.members ≠ 0 →
      ∃ t, exec (.leave xa) s = .next t ∧ OnlyCore s t k
        { c with
          sets := vset c.sets i ⟨rest.members, 0⟩
          slots := c.slots.map fun st => if st.sleep = .gbar i then st.wake else st })

/-- 06 R123, R131: GBAR of a set of which the strand is no member traps with 0x120; else the strand arrives. While a member is missing it
sleeps; the last arrival clears the arrivals and wakes every strand of the tile that sleeps in the set, its own past the bundle. -/
def Claims.BarrierOfASet : Prop :=
  ∀ (s : State) (xa : Reg), s.cur.slot < 16 → s.cur.probing = false →
    let k := s.cur.tile
    let n := s.cur.slot
    let i := (s.rx xa).toNat % 64
    let m := vget (s.tile k).core.sets i ⟨0, 0⟩
    let bit := 1#16 <<< n
    (m.members &&& bit = 0 → exec (.gbar xa) s = .next (s.trapAtIssue 0x120 (s.rx xa))) ∧
    (m.members &&& bit ≠ 0 → ∃ t, exec (.gbar xa) s = .next t ∧ t.sansCore k = s.sansCore k ∧ SameMemory s t ∧
      { (t.tile k).core with slots := (s.tile k).core.slots, sets := (s.tile k).core.sets } = (s.tile k).core ∧
      (∀ j, j ≠ i → vget (t.tile k).core.sets j ⟨0, 0⟩ = vget (s.tile k).core.sets j ⟨0, 0⟩) ∧
      (m.arrived ||| bit ≠ m.members →
        vget (t.tile k).core.sets i ⟨0, 0⟩ = ⟨m.members, m.arrived ||| bit⟩ ∧
        t.me = { s.me with sleep := .gbar i, pc := s.cur.pc } ∧ ∀ j, j ≠ n → t.strand k j = s.strand k j) ∧
      (m.arrived ||| bit = m.members →
        vget (t.tile k).core.sets i ⟨0, 0⟩ = ⟨m.members, 0⟩ ∧
        t.me = { s.me with sleep := .awake, pc := s.cur.pc + 8 } ∧
        ∀ j, j ≠ n → t.strand k j = if (s.strand k j).sleep = .gbar i then (s.strand k j).wake else s.strand k j))

/-- The statements above as one: MembershipChanges, BarrierOfASet. -/
def Obligations.BarriersOfSets : Prop :=
  Claims.MembershipChanges ∧ Claims.BarrierOfASet

/-- 02 R28, 06 R129: while a register of the strand was pending as the bundle began, HALT, HALT.keep and TASKEND wait; else the strand
ends: its slot is free and holds no work of it, its registers as they stood (22 R454), it is a member of no set, it holds no
reservation, and the registers and pcs of the tile's other strands that sleep in no set stay. TASKEND counts the task; HALT.keep keeps
the slot and its banks, and with 4 entries in use it replaces the oldest. The model's choices: what its bundle's other slot left in the
engines runs on without it (log entry 59), and the later faults of its accesses are dropped (log entry 17). -/
def Obligations.StrandsEnd : Prop :=
  ∀ (s : State) (i : Instr) (xa : Reg), s.cur.slot < 16 → i = .halt ∨ i = .taskend ∨ i = .haltKeep xa →
    let k := s.cur.tile
    let n := s.cur.slot
    let c := (s.tile k).core
    ((s.cur.pend ≠ 0 ∨ s.cur.pendP ≠ 0) → exec i s = .next s.hold) ∧
    (s.cur.pend = 0 → s.cur.pendP = 0 → c.keeps.length ≤ 4 → ∃ t, exec i s = .next t ∧
      (s.me.sleep = .awake → t.me = { s.me.endShadows with
        st := if i = .haltKeep xa then .kept else .free, move := none, banks := 0, pend := 0, pendP := 0, handling := [],
        fetched := none, faults := [], held := [], resv := [], seen := [], prior := [] }) ∧
      (∀ j, j < 64 → (vget (t.tile k).core.sets j ⟨0, 0⟩).members.getLsbD n = false) ∧
      t.holders = s.holders.filter (fun h => !(decide (h.tile = k) && decide (h.slot = n))) ∧
      (t.tile k).core.dqDone = (if i = .taskend then (c.dqDone + 1) % 2 ^ 64 else c.dqDone) ∧
      (t.tile k).core.keeps = (if i = .haltKeep xa then c.keeps.drop (c.keeps.length - 3) ++ [⟨s.me.banks, s.rx xa, n⟩] else c.keeps) ∧
      (∀ j, j ≠ n → (∀ q, (s.strand k j).sleep ≠ .gbar q) →
        { t.strand k j with st := (s.strand k j).st } = s.strand k j) ∧
      t.reqs = s.reqs.map (fun (r : Req) =>
        if r.sdev = s.devId ∧ r.tile = k ∧ r.slot = n ∧ r.sv = true then { r with posted := false } else r) ∧
      (t.tile k).eng = (s.tile k).eng.orphan n ∧ MemoryBut s t k 0x100 0x100 ∧ t.parts = s.parts)

/-- 06 R134, 13 R282, Table 13.5: SIGCHK with the accumulated signature starts it again and changes nothing else; another value traps with
0x140, EPC at the next bundle, and TVAL holding the expected value above the accumulated one. On a tile of a partition the cause is
recorded, and with SSPOL.SIGVOTE the tile votes abort. -/
def Obligations.SignatureChecks : Prop :=
  ∀ (s : State) (sig : BitVec 16), s.cur.slot < 16 →
    let k := s.cur.tile
    let again := s.modMe fun st => { st with sig := 0xFFFF }
    let trap : TrapInfo := ⟨0x140, s.cur.pc + 8, word (sig.toNat * 2 ^ 16 + s.me.sig.toNat), false, .none⟩
    (s.me.sig = sig → ∃ t, exec (.sigchk sig) s = .next t ∧ OnlyMe s t { s.me with sig := 0xFFFF }) ∧
    (s.me.sig ≠ sig → s.partOf k = none → exec (.sigchk sig) s = .next (again.takeTrap k s.cur.slot trap)) ∧
    (∀ id, s.me.sig ≠ sig → s.partOf k = some id →
      let votes := s.versioned k = true ∧ bitOf (s.part id).sspol 1 = true
      ∃ t, exec (.sigchk sig) s = .next t ∧ 0x140 ∈ (t.tile k).causes ∧ (votes → (t.tile k).vote = true) ∧
        t = (if votes then again.modTile k fun w => { w with vote := true } else again).takeTrap k s.cur.slot trap)

/-- 06 R130, 17 R407, R465: SPAWN of a valid record pushes it at the bottom of the tile's deque, counts it and answers the depth; a full
deque answers 0 and counts that; a record that is not valid traps with 0x0C5, a pointer that fails its checks with their cause, and an
uncorrectable record with 0x141. -/
def Claims.SpawnPushes : Prop :=
  ∀ (s : State) (xa xd : Reg), s.cur.slot < 16 →
    let k := s.cur.tile
    let w := s.rx xa
    let c := (s.tile k).core
    let r := taskOf (s.recordWord k (ptrLoc w))
    let own := s.ownCause k s.priv w 128 8 false
    let fine := own = none ∧ badRange (s.tile k).bad (ptrLoc w) 128 = false
    (∀ e, own = some e → exec (.spawn xa xd) s = .next (if e = 0x04A then s.trapAtIssue e w else s.trapAfter e w)) ∧
    (own = none → badRange (s.tile k).bad (ptrLoc w) 128 = true →
      exec (.spawn xa xd) s = .next ((s.castAbort k 0x141).trapAfter 0x141 w)) ∧
    (fine → taskValid r = false → exec (.spawn xa xd) s = .next (s.trapAtIssue 0x0C5 w)) ∧
    (fine → taskValid r = true → ∃ t, exec (.spawn xa xd) s = .next t ∧
      t.me.xv xd = (if c.deque.length < 64 then BitVec.ofNat 64 (c.deque.length + 1) else 0) ∧ t.me.pending (.x xd) = false ∧
      (t.tile k).core.deque = (if c.deque.length < 64 then r :: c.deque else c.deque) ∧
      (t.tile k).core.dqSpawn = (if c.deque.length < 64 then (c.dqSpawn + 1) % 2 ^ 64 else c.dqSpawn) ∧
      (t.tile k).core.dqFull = (if c.deque.length < 64 then c.dqFull else (c.dqFull + 1) % 2 ^ 64) ∧
      (∀ q, q ≠ xd → t.me.xv q = s.me.xv q) ∧ (∀ p, t.me.pv p = s.me.pv p) ∧ (∀ j, j ≠ s.cur.slot → t.strand k j = s.strand k j) ∧
      (t.tile k).eng = (s.tile k).eng ∧ t.sansTile k = s.sansTile k ∧ MemoryBut s t k 0x100 0x100)

/-- 06 R113: TASK_POP of a tile that has not arrived (the model's choice, log entry 75) starts the bottom record, once its inputs are ready, in the lowest free slot, at most one in a cycle: pc, the arguments in x0-x5, the first
failed status in x6, the flags in x7, the stack in x13, this tile's TLM in x14, user privilege, and the set of the flags joined. -/
def Claims.TasksStart : Prop :=
  ∀ (s : State) (task : Task) (rest : List Task) (n : Nat) (free : List Nat),
    let k := s.cur.ev.tile
    let c := (s.tile k).core
    c.deque = task :: rest → c.freeSlots = n :: free → task.ready = true → (s.tile k).runs = true →
    (s.tile k).arrived = false → (s.tile k).nextPop ≤ s.cyc → ∃ t, exec .taskPop s = .next t ∧ (t.tile k).nextPop = s.cyc + 1 ∧ (t.tile k).core.deque = rest ∧
      (let st := t.strand k n;
        st.st = .live ∧ st.sleep = .awake ∧ st.pc = task.pc ∧ st.pred = 1 ∧ st.pend = 0 ∧ st.flight = [] ∧ st.sig = 0xFFFF ∧
          st.k = s.ktabOf k ∧ st.sstat = (if bitOf task.flags 12 then 1 else 0) ∧
          (∀ i, i < 6 → vget st.x i 0 = task.args.getD i 0) ∧ vget st.x 6 0 = task.failed ∧ vget st.x 7 0 = task.flags ∧
          vget st.x 13 0 = (s.tile k).stack n ∧ vget st.x 14 0 = 0x00FFF80000000000 ∧
          ∀ i, (8 ≤ i ∧ i < 13) ∨ i = 15 → vget st.x i 0 = 0) ∧
      (∀ j, j < 64 → vget (t.tile k).core.sets j ⟨0, 0⟩ =
        if bitOf task.flags 30 = true ∧ j = fieldOf task.flags 29 24 then
          ⟨(vget c.sets j ⟨0, 0⟩).members ||| (1#16 <<< n), (vget c.sets j ⟨0, 0⟩).arrived⟩ else vget c.sets j ⟨0, 0⟩) ∧
      (∀ j, j ≠ n → { t.strand k j with st := (s.strand k j).st } = s.strand k j) ∧
      (t.tile k).eng = (s.tile k).eng ∧ t.sansTile k = s.sansTile k ∧
      { t.tile k with core := (s.tile k).core, nextPop := (s.tile k).nextPop } = s.tile k ∧ MemoryBut s t k 0x100 0x100

/-- The statements above as one: SpawnPushes, TasksStart. -/
def Obligations.TasksSpawnAndStart : Prop :=
  Claims.SpawnPushes ∧ Claims.TasksStart

/-- 06 R133: MOVEAT to a tile of the strand's partition ends an outstanding request, marks its destination pending and records the
request; the id 0xFFF only ends the outstanding one, whose destination reads 0; any other target traps with 0x065. -/
def Claims.MovesAreRequested : Prop :=
  ∀ (s : State) (xa xd : Reg) (q : SlackReg), s.cur.slot < 16 →
    let dev := fieldOf (s.rx xa) 25 12
    let tile := fieldOf (s.rx xa) 11 0
    let st := match s.me.move with
      | some m => { s.me.land (.x m.rd) 0 with move := none }
      | none => s.me
    (tile = 0xFFF → ∃ t, exec (.moveat xa xd q) s = .next t ∧ OnlyMe s t st) ∧
    (tile ≠ 0xFFF → s.inPartition s.cur.tile dev tile = true → ∃ t, exec (.moveat xa xd q) s = .next t ∧
      OnlyMe s t { st.mark (.x xd) with move := some ⟨xd, dev, tile, q⟩ }) ∧
    (tile ≠ 0xFFF → s.inPartition s.cur.tile dev tile = false →
      exec (.moveat xa xd q) s = .next (s.trapAtIssue 0x065 0))

/-- 06 R133, 13 R288: a context that moves, once its message is there, arrives in the lowest free slot of its tile, its request answered with
the device and the tile, and one without a free slot waits; so does a context of another device that is bound for the tile at this
commit. -/
def Claims.MovesArrive : Prop :=
  ∀ (s : State) (q : MoveReq) (n : Nat) (free : List Nat),
    let found := s.moving.find? fun m => m.id == s.cur.ev.id
    let settled (t : State) (k : Nat) (ctx : Strand) : Prop :=
      let st := t.strand k n;
      st.xv q.rd = word (2 ^ 63 + s.devId * 2 ^ 12 + k) ∧ st.pending (.x q.rd) = false ∧ st.move = none ∧ st.pc = ctx.pc ∧
        st.sstat = ctx.sstat ∧ st.st = ctx.st ∧ ∀ r, r ≠ q.rd → st.xv r = ctx.xv r
    (∀ m, found = some m → m.ctx.move = some q → s.landed m.id = true → (s.tile m.dst).core.freeSlots = n :: free →
      ∃ t, exec .moveatArrival s = .next t ∧ t.moving = s.moving.filter (fun r => r.id != m.id) ∧
        t.reqs = s.reqs.filter (fun r => !r.carriesJob m.id) ∧ settled t m.dst m.ctx ∧
        { t with moving := s.moving, reqs := s.reqs }.apart m.dst n = s.apart m.dst n ∧ SameMemory s t) ∧
    (∀ m, found = some m → s.landed m.id = false ∨ (s.tile m.dst).core.freeSlots = [] → exec .moveatArrival s = .next s) ∧
    (∀ k ctx c, found = none → s.mailedContext = some (k, ctx) → ctx.move = some q → (s.tile k).coming = c + 1 →
      (s.tile k).core.freeSlots = n :: free → ∃ t, exec .moveatArrival s = .next t ∧ (t.tile k).coming = c ∧
        t.reqs = s.reqs.filter (fun r => r.id != s.cur.ev.id) ∧ settled t k ctx ∧ SameMemory s t)

/-- The statements above as one: MovesAreRequested, MovesArrive. -/
def Obligations.StrandsMove : Prop :=
  Claims.MovesAreRequested ∧ Claims.MovesArrive

/-- 06 R122: an idle tile of a partition asks the next victim of its spiral by a steal packet, and after a whole spiral it rests for 256
grains; the rest over, the search starts again from ring 1. -/
def Claims.StealsAreAsked : Prop :=
  ∀ (s : State) (id : Nat),
    let k := s.cur.ev.tile
    let c := (s.tile k).core
    let next := ((s.part id).victims k).find? fun v =>
      decide (c.steal.ring < v.1) || (v.1 == c.steal.ring && decide (c.steal.idx ≤ v.2.1))
    (s.partOf k = some id → (s.part id).stealOff = false → (s.tile k).arrived = false → (s.tile k).idle = true → (s.tile k).runs = true →
      c.steal.asking = false → c.steal.backoff = .none →
      (next = none → ∃ t, exec .stealRequest s = .next t ∧ OnlyCore s t k { c with steal := ⟨1, 0, false, some (s.gclk + 256)⟩ }) ∧
      ∀ v, next = some v → ∃ t r, exec .stealRequest s = .next t ∧ t.steals = s.steals ++ [⟨s.nextReq, k, v.2.2, none⟩] ∧
        r.isCargo s k .steal 0xF4 s.nextReq 1 4095 (.tile v.2.2) ∧ t.reqs = s.reqs ++ [r] ∧ t.nextReq = s.nextReq + 2 ∧
        OnlyCore (s.sansSent k) ({ t with steals := s.steals }.sansSent k) k { c with steal := ⟨v.1, v.2.1 + 1, true, none⟩ }) ∧
    ∀ g, c.steal.backoff = some g → g ≤ s.gclk →
      ∃ t, exec .stealBackoffExpiry s = .next t ∧ OnlyCore s t k { c with steal := ⟨1, 0, false, none⟩ }

/-- 06 R119, R122: a victim gives up the topmost record that may be taken, or answers that it has none; the record is pushed at the bottom
of the thief's deque and counted, and the answer without one lets the search go on. The model's choices (log entry 23): a victim that
has applied an abort answers after OPEN, one whose partition has STEALOFF set gives no record, a record waits while 64 are held there, and
its search starts again from ring 1. -/
def Claims.StealsAreAnswered : Prop :=
  ∀ (s : State) (q : StealPacket),
    let v := (s.tile q.victim).core
    let c := (s.tile q.thief).core
    let got := if s.gives q.victim then v.deque.reverse.find? Task.stealable else none
    let closed := ∃ id, s.partOf q.victim = some id ∧ s.discards id (.tile q.victim) = true
    let asked := s.steals.find? (fun r => r.id == s.cur.ev.id && r.reply.isNone) = some q
    let answered := s.steals.find? (fun r => r.id == s.cur.ev.id && s.landed r.id) = some q
    let taken (t : State) : Prop :=
      t.steals = s.steals.filter (fun r => r.id != q.id) ∧ t.reqs = s.reqs.filter fun r => !r.carriesJob q.id
    (asked → s.landed q.id = false ∨ closed → exec .stealRequestService s = .next s) ∧
    (asked → s.landed q.id = true → ¬closed → ∃ t r, exec .stealRequestService s = .next t ∧
      t.steals = s.steals.map (fun r => if r.id = q.id then { r with reply := some got } else r) ∧
      r.isCargo s q.victim .stolen 0xF5 q.id (if got.isSome then 2 else 1) 4095 (.tile q.thief) ∧
      t.reqs = s.reqs.filter (fun r => !r.carriesJob q.id) ++ [r] ∧
      OnlyCore (s.sansSent q.victim) ({ t with steals := s.steals }.sansSent q.victim) q.victim
        (match got with
        | some w => { v with deque := (v.deque.reverse.erase w).reverse, dqLost := (v.dqLost + 1) % 2 ^ 64 }
        | none => v)) ∧
    (answered → q.reply = some none → ∃ t, exec .stealReply s = .next t ∧ taken t ∧
      OnlyCore s { t with steals := s.steals, reqs := s.reqs } q.thief { c with steal := { c.steal with asking := false } }) ∧
    ∀ w, answered → q.reply = some (some w) →
      (64 ≤ c.deque.length → exec .stealReply s = .next s) ∧
      (c.deque.length < 64 → ∃ t, exec .stealReply s = .next t ∧ taken t ∧
        OnlyCore s { t with steals := s.steals, reqs := s.reqs } q.thief
          { c with deque := w :: c.deque, dqGain := (c.dqGain + 1) % 2 ^ 64, steal := ⟨1, 0, false, none⟩ })

/-- The statements above as one: StealsAreAsked, StealsAreAnswered. -/
def Obligations.TasksAreStolen : Prop :=
  Claims.StealsAreAsked ∧ Claims.StealsAreAnswered

/-- 06 R125: a bank other than 0 that no live strand and no keep entry uses, and that no engine command or input fetch addresses, enters
retention 4,096 cycles after its latest access; one that is addressed does not; it is awake again 64 cycles after the access that
wakes it. -/
def Obligations.BankPower : Prop :=
  ∀ (s : State) (c : Nat),
    let k := s.cur.ev.tile
    let b := s.cur.ev.a
    let t := s.tile k
    (0 < b → b < 32 → t.retained.getLsbD b = false → assoc t.touched b = some c → c + 4096 ≤ s.cyc → s.bankAddressed k b = false →
      (∀ n, n < 16 → (s.strand k n).st = .live → (s.strand k n).banks.getLsbD b = false) →
      (∀ e ∈ t.core.keeps, e.banks.getLsbD b = false) →
      ∃ u, exec .bankRetentionEntry s = .next u ∧
        OnlyTile s u k { t with retained := t.retained ||| (1#32 <<< b), touched := assocDrop t.touched b }) ∧
    (s.bankAddressed k b = true → exec .bankRetentionEntry s = .next s) ∧
    (t.retained.getLsbD b = true → assoc t.touched b = some c → c + 64 ≤ s.cyc →
      ∃ u, exec .bankWake s = .next u ∧ OnlyTile s u k { t with retained := t.retained &&& ~~~(1#32 <<< b) })

/-- 07 R148, 09 R199, R200: a FENCE whose earlier items have reached the point that its class and scope call for, and with a release class
one whose posted accesses have all been answered, issues; its number is recorded (R193), and a release orders the stores in transit
that the strand made or read before its later writes (R190); one whose items have not, or whose XINVs are outstanding under .inv, waits. -/
def Obligations.FencesWait : Prop :=
  ∀ (s : State) (inv : Bool) (ord : FenceOrd) (scope : Scope), s.cur.slot < 16 →
    let ready := (ord = .acq ∧ (scope = .strand ∨ s.acquired = true)) ∨
      (ord ≠ .acq ∧ s.reported = true ∧ (scope = .strand ∨ s.released scope = true))
    let stores := s.reqs.filter fun r =>
      r.inTransit && !r.performed && (s.isMine s.cur.tile s.cur.slot r || s.me.seen.contains r.id)
    (ready → (inv = true → s.xinvOpen = false) → ∃ t, exec (.fence inv ord scope) s = .next t ∧
      OnlyMe s t { s.me with
        fenced := s.nextReq
        prior := if ord = .acq then s.me.prior else s.inFlight s.me.prior ++ stores.map fun r => (r.id, scopeCode scope) }) ∧
    (¬ready ∨ (inv = true ∧ s.xinvOpen = true) → exec (.fence inv ord scope) s = .next s.hold)

/-! ### Memory (07, 08, 09) -/

/-- 07 R147: a load or a store whose local check fails traps after issue with the cause and TVAL of the first that fails. -/
def Claims.AccessChecks : Prop :=
  ∀ (s : State) (i : Instr) (c : Nat) (v : Word),
    (∀ a kind dests, loadOf s i = some (a, kind, dests) → s.refusal a false = some (c, v) → exec i s = .next (s.trapAfter c v)) ∧
    (∀ a data, storeOf s i = some (a, data, false) → s.refusal a true = some (c, v) → exec i s = .next (s.trapAfter c v)) ∧
    (∀ a data, storeOf s i = some (a, data, true) → s.released .device = true → s.refusal a true = some (c, v) →
      exec i s = .next (s.trapAfter c v))

/-- 07 R151, R154-R158, 09 R201: a load from this tile's TLM binds its values at issue, with every earlier store of the tile; its
destinations are pending, its data return 4 cycles later and no sooner than 68 after a bank in retention began to wake, a .pi form advances its base, and no byte of
memory changes. While an atomic of the strand to those bytes is to be performed it waits. -/
def Claims.OwnLoadsBind : Prop :=
  ∀ (s : State) (i : Instr) (a : Access) (kind : LoadKind) (dests : List RegName), s.cur.slot < 16 →
    loadOf s i = some (a, kind, dests) → s.refusal a false = none → ownTlm s.cur.tile (s.reach a) = true →
    let k := s.cur.tile
    let loc := ptrLoc (s.reach a)
    let bank := loc / 0x4000
    (s.ownOrder loc a.size = true → exec i s = .next s.hold) ∧ (s.ownOrder loc a.size = false →
    badRange (s.tile k).bad loc a.size = false →
    ∃ t, exec i s = .next t ∧
      (t.tile k).eng = { (s.tile k).eng with
        ownLoads := (s.tile k).eng.ownLoads ++ [⟨s.nextReq, s.cur.slot, dests.zip (loadValues kind ((s.tile k).bytes loc a.size)),
          bank, if (s.tile k).retained.getLsbD bank then max ((assoc (s.tile k).touched bank).getD s.cyc + 68) (s.cyc + 4)
            else s.cyc + 4⟩] } ∧
      (∀ r, t.me.pending r = (s.me.pending r || dests.contains r)) ∧ (∀ r, t.me.xv r = s.updated a r) ∧ (∀ p, t.me.pv p = s.me.pv p) ∧
      t.me.pc = s.me.pc ∧ (∀ j, j ≠ s.cur.slot → t.strand k j = s.strand k j) ∧
      { t with nextReq := s.nextReq }.sansTile k = s.sansTile k ∧ SameMemory s t)

/-- 07 R151: the data of a load from this tile's TLM return 4 cycles later at the earliest, once its bank is awake: its destinations
hold the values bound at issue and are no longer pending. -/
def Claims.OwnLoadsReturn : Prop :=
  ∀ (s : State) (l : OwnLoad), l.slot < 16 → (s.tile s.cur.ev.tile).eng.ownLoads.find? (fun q => q.id == s.cur.ev.id) = some l →
    l.due ≤ s.cyc → (s.tile s.cur.ev.tile).retained.getLsbD l.bank = false →
    ∃ t, exec .ownTlmLoadReturn s = .next t ∧
      OnlyCommand s t s.cur.ev.tile l.slot (l.dests.foldl (fun st d => st.land d.1 d.2) (s.strand s.cur.ev.tile l.slot))
        { (s.tile s.cur.ev.tile).eng with ownLoads := (s.tile s.cur.ev.tile).eng.ownLoads.filter fun q => q.id != l.id }

/-- The statements above as one: OwnLoadsBind, OwnLoadsReturn. -/
def Obligations.OwnLoads : Prop :=
  Claims.OwnLoadsBind ∧ Claims.OwnLoadsReturn

/-- 07 R148, R149: a load from elsewhere makes one request with its slack class, its destinations pending; a blocking one sleeps at its
bundle until the reply, a non-blocking .pi form advances its base at issue. Without room it waits. No byte of memory changes. -/
def Claims.RemoteLoadsAsk : Prop :=
  ∀ (s : State) (i : Instr) (a : Access) (kind : LoadKind) (dests : List RegName), s.cur.slot < 16 →
    loadOf s i = some (a, kind, dests) → s.refusal a false = none → ownTlm s.cur.tile (s.reach a) = false →
    ∃ r : Req, r.isFor s (.load kind) (s.reach a) a.size a.mem.sc dests ∧ r.blocking = !a.mem.nb ∧ r.posted = false ∧
      r.base = (if a.pi && !a.mem.nb then some (a.mem.base, ptrAdd (s.rx a.mem.base) (s.stride a)) else none) ∧
      (s.roomFor r = false → exec i s = .next s.hold) ∧
      (s.roomFor r = true → ∃ t, exec i s = .next t ∧ OnlyRequest s t r t.me ∧
        (∀ q, t.me.pending q = (s.me.pending q || dests.contains q)) ∧ (∀ p, t.me.pv p = s.me.pv p) ∧
        (∀ q, t.me.xv q = if a.mem.nb then s.updated a q else s.me.xv q) ∧
        t.me.sleep = (if a.mem.nb then s.me.sleep else .request s.nextReq) ∧ t.me.pc = if a.mem.nb then s.me.pc else s.cur.pc)

/-- 07 R138, R147, R154-R158: a store to this tile's TLM, where the undo area has room, puts its bytes at the location of its pointer,
and every other byte of memory reads as before; a .pi form advances its base. While an atomic of the strand to those bytes is to be performed
it waits. -/
def Claims.OwnStoresWrite : Prop :=
  ∀ (s : State) (i : Instr) (a : Access) (data : List Byte) (rel : Bool), s.cur.slot < 16 → storeOf s i = some (a, data, rel) →
    (rel = true → s.released .device = true) → s.refusal a true = none → ownTlm s.cur.tile (s.reach a) = true →
    let k := s.cur.tile
    let w := s.tile k
    let loc := ptrLoc (s.reach a)
    (s.ownOrder loc a.size = true → exec i s = .next s.hold) ∧ (s.ownOrder loc a.size = false →
    Memory.wf w.tlm = true → partlyBad w.bad loc a.size = false →
    w.undo.length + (w.newGranules (s.scratchFrom k) loc a.size).length ≤ 2048 →
    ∃ t, exec i s = .next t ∧ (∀ n, n < a.size → (t.tile k).byte (loc + n) = data.getD n 0) ∧ MemoryBut s t k loc a.size ∧
      (∀ r, t.me.xv r = s.updated a r) ∧ (∀ p, t.me.pv p = s.me.pv p) ∧ t.me.pend = s.me.pend ∧ t.me.pc = s.me.pc ∧
      (∀ j, j ≠ s.cur.slot → t.strand k j = s.strand k j) ∧ (t.tile k).eng = w.eng ∧
      { t with notes := s.notes }.sansTile k = s.sansTile k)

/-- 07 R138: before the first write of a superstep to a 64-byte granule below SCRBASE its old contents are kept, and no later write
changes them. -/
def Claims.UndoKeepsOldContents : Prop :=
  ∀ (w : Tile) (scr a g : Nat) (l : List Byte), 64 * g < scr → a / 64 ≤ g → g ≤ (a + l.length - 1) / 64 → l ≠ [] →
    assoc (w.write scr a l).undo g = match assoc w.undo g with
      | some old => some old
      | none => some (w.bytes (64 * g) 64)

/-- The statements above as one: OwnStoresWrite, UndoKeepsOldContents. -/
def Obligations.OwnStores : Prop :=
  Claims.OwnStoresWrite ∧ Claims.UndoKeepsOldContents

/-- 07 R148, R149, 09 R201: a store to elsewhere makes one request with its bytes; a blocking one sleeps at its bundle until the reply,
a non-blocking one is posted. Without room it waits, as does a release whose earlier items are not performed at device scope. -/
def Claims.RemoteStoresAsk : Prop :=
  ∀ (s : State) (i : Instr) (a : Access) (data : List Byte) (rel : Bool), s.cur.slot < 16 → storeOf s i = some (a, data, rel) →
    (rel = true → s.released .device = false → exec i s = .next s.hold) ∧
    ((rel = true → s.released .device = true) → s.refusal a true = none → ownTlm s.cur.tile (s.reach a) = false →
      ∃ r : Req, r.isFor s (.store data) (s.reach a) a.size a.mem.sc [] ∧ r.blocking = !a.mem.nb ∧ r.posted = a.mem.nb ∧
        (s.roomFor r = false → exec i s = .next s.hold) ∧
        (s.roomFor r = true → ∃ t, exec i s = .next t ∧ OnlyRequest s t r t.me ∧ (∀ q, t.me.pending q = s.me.pending q) ∧
          (∀ p, t.me.pv p = s.me.pv p) ∧ (∀ q, t.me.xv q = if a.mem.nb then s.updated a q else s.me.xv q) ∧
          t.me.sleep = (if a.mem.nb then s.me.sleep else .request s.nextReq) ∧ t.me.pc = if a.mem.nb then s.me.pc else s.cur.pc))

/-- The statements above as one: RemoteLoadsAsk, RemoteStoresAsk. -/
def Obligations.RemoteAccessesAsk : Prop :=
  Claims.RemoteLoadsAsk ∧ Claims.RemoteStoresAsk

/-- 07 R157: PREF within this tile's TLM wakes the bank and elsewhere sends a request without data. It is dropped where a check other than
that of the pointer fails or a limit of R149 is reached, and changes no register and no byte of memory. -/
def Claims.PrefetchesChangeNoData : Prop :=
  ∀ (s : State) (m : MemOp), s.cur.slot < 16 →
    let k := s.cur.tile
    let base := s.rx m.base
    let n := s.dispOf m 64
    let e := ptrAdd base n
    let drops := locOk base n = false ∨ ptrLoc e % 64 ≠ 0 ∨ (s.permitCause k s.priv e 64 false).isSome = true ∨
      64 ≤ s.strandOutstanding k s.cur.slot ∨ 256 ≤ s.outstanding k
    (∀ c, s.pointerCause base = some c → exec (.pref m) s = .next (s.trapAfter c base)) ∧
    (s.pointerCause base = none → drops → exec (.pref m) s = .next s) ∧
    (s.pointerCause base = none → ¬drops → ownTlm k e = true → ∃ t, exec (.pref m) s = .next t ∧ t.me = s.me ∧
      (t.tile k).core = (s.tile k).core ∧ t.sansTile k = s.sansTile k ∧ SameMemory s t ∧
      ((s.tile k).retained.getLsbD (ptrLoc e / 0x4000) = true → (assoc (t.tile k).touched (ptrLoc e / 0x4000)).isSome = true)) ∧
    (s.pointerCause base = none → ¬drops → ownTlm k e = false → ∃ r : Req, r.isFor s .pref e 64 m.sc [] ∧
      (s.toTarget k (s.targetOf r) < 1024 → ∃ t, exec (.pref m) s = .next t ∧ OnlyRequest s t r s.me) ∧
      (1024 ≤ s.toTarget k (s.targetOf r) → exec (.pref m) s = .next s.hold))

/-- The statements above as one: AccessChecks, PrefetchesChangeNoData. -/
def Obligations.AccessesAreChecked : Prop :=
  Claims.AccessChecks ∧ Claims.PrefetchesChangeNoData

/-- 08 R159-R162, R171-R173: an atomic or a reduction whose local check fails traps after issue with the first cause; else it makes one
request, its destination, if it has one, pending, and the strand goes on. Without room it waits. -/
def Claims.AtomicsAsk : Prop :=
  ∀ (s : State) (i : Instr) (op : ReqOp) (w : Word) (size : Nat) (k : SlackReg) (dests : List RegName), s.cur.slot < 16 →
    atomicOf s i = some (op, w, size, k, dests) →
    let check := s.atomicCause s.cur.tile s.priv w size true (if dests = [] then [0, 2, 3] else [1, 2])
    (∀ c, check = some c → exec i s = .next (s.trapAfter c w)) ∧
    (check = none → ∃ r : Req, r.isFor s op w size k dests ∧ r.blocking = false ∧ r.posted = dests.isEmpty ∧
      (s.roomFor r = false → exec i s = .next s.hold) ∧
      (s.roomFor r = true → ∃ t b, exec i s = .next t ∧
        OnlyRequest s t r { s.me with pend := (dests.foldl Strand.mark s.me).pend, banks := b }))

/-- 08 R162, R166, R168, 09 R202, R203: LRW and WAITV sleep at their bundle until their request is answered, the destination pending; LRW
enters the word in the strand's table first, and traps on a second entry of the word or a fifth entry. -/
def Claims.WaitsAsk : Prop :=
  ∀ (s : State) (i : Instr) (op : ReqOp) (w : Word) (size : Nat) (k : SlackReg) (d a : Reg), s.cur.slot < 16 →
    let table := s.me.resv ++ [⟨ptrLoc w / 8, size, false⟩]
    let lrw := op = .lrw ∧ w = s.rx a ∧ (i = .lrw32 d a k ∧ size = 4 ∨ i = .lrw64 d a k ∧ size = 8)
    let check := s.atomicCause s.cur.tile s.priv w size false (if op = .lrw then [2] else [1, 2])
    waitOf s i = some (op, w, size, k, d) ∨ lrw →
    (∀ c, check = some c → exec i s = .next (s.trapAfter c w)) ∧
    (lrw → check = none → (∃ v ∈ s.me.resv, v.word = ptrLoc w / 8) → exec i s = .next (s.trapAfter 0x0A1 w)) ∧
    (lrw → check = none → (∀ v ∈ s.me.resv, v.word ≠ ptrLoc w / 8) → 4 ≤ s.me.resv.length → exec i s = .next (s.trapAfter 0x0A2 w)) ∧
    (check = none → (lrw → s.me.resv.length < 4 ∧ ∀ v ∈ s.me.resv, v.word ≠ ptrLoc w / 8) →
      ∃ r : Req, r.isFor s op w size k [.x d] ∧ r.blocking = true ∧
        (s.roomFor r = false → exec i s = .next s.hold) ∧
        (s.roomFor r = true → ∃ t b, exec i s = .next t ∧ OnlyRequest s t r
          { s.me.mark (.x d) with
            sleep := .request s.nextReq, pc := s.cur.pc, banks := b, resv := if op = .lrw then table else s.me.resv }))

/-- 08 R169, R170: SCH and RLSV of a word that the strand's table does not hold write 0 to the predicate and send nothing; of one that it
holds they wait as a release at device scope and then make one request, the predicate pending. -/
def Claims.ReservationsAreUsed : Prop :=
  ∀ (s : State) (i : Instr) (op : ReqOp) (p : PredReg) (w : Word) (size : Nat) (k : SlackReg), s.cur.slot < 16 →
    releaseOf s i = some (op, p, w, size, k) →
    let check := s.atomicCause s.cur.tile s.priv w size true [2]
    let mine := ∃ v ∈ s.me.resv, v.word = ptrLoc w / 8
    (∀ c, check = some c → exec i s = .next (s.trapAfter c w)) ∧
    (check = none → ¬mine → ∃ t, exec i s = .next t ∧ OnlyMe s t (s.me.land (.p p) 0)) ∧
    (check = none → mine → s.released .device = false → exec i s = .next s.hold) ∧
    (check = none → mine → s.released .device = true → ∃ r : Req, r.isFor s op w size k [.p p] ∧ r.blocking = false ∧
      (s.roomFor r = false → exec i s = .next s.hold) ∧
      (s.roomFor r = true → ∃ t, exec i s = .next t ∧ OnlyRequest s t r (s.me.mark (.p p))))

/-- The statements above as one: AtomicsAsk, WaitsAsk, ReservationsAreUsed. -/
def Obligations.AtomicRequests : Prop :=
  Claims.AtomicsAsk ∧ Claims.WaitsAsk ∧ Claims.ReservationsAreUsed

/-! ### Requests in flight (07, 08, 09, 14) -/

/-- 14 R315: an output that is free grants the head of an input's queue: one of VC 0 where there is one; else, while one of the heads is
exhausted, an exhausted one; and otherwise none of them has less slack. -/
def Claims.ArbitersGrant : Prop :=
  ∀ (s : State) (steal : Bool) (p q : Point) (g : Req), s.granted steal p q = some g →
    let l := (s.outQueue p).filter fun r => r.onSteal == steal
    let heads := (s.heads l).filter fun r => (s.nextHop r).map (·.1) == some q && s.credit q r && !s.passedBy l r && s.mayLeave r
    g ∈ heads ∧ s.isFree (g.output p q) = true ∧ ((∃ h ∈ heads, h.vc = 0) → g.vc = 0) ∧
      ((∀ h ∈ heads, h.vc ≠ 0) → (∃ h ∈ heads, s.isSpent h = true) → s.isSpent g = true) ∧
      ((∀ h ∈ heads, h.vc ≠ 0 ∧ s.isSpent h = false) → ∀ h ∈ heads, s.current g ≤ s.current h)

/-- 09 R185, 14 R307, R314-R316, R318: PACKET_GRANT lets a packet leave its queue only where the arbiter of its output names it; then its
wait falls off its slack, at 0 it is marked exhausted and counted once, and the output is busy for its flits. On a port's output it
leaves the device, and what its source keeps waits for its answer. A read whose bytes its tile's port holds is answered there. Nothing
else changes. -/
def Claims.PortsGrant : Prop :=
  ∀ (s : State) (r : Req), s.req s.cur.ev.id = some r → r.moving = false →
    r.stage = .port ∨ r.stage = .wire ∨ r.stage = .forward ∨ r.stage = .reply →
    let left := r.slack - (s.gclk - r.stamp)
    let spent := left = 0 ∧ r.xh = false ∧ r.vc ≠ 0
    let gone := { r with slack := left, xh := if spent then true else r.xh, xhAt := if spent then r.spentAt else r.xhAt }
    (∀ l, s.portServes r = .all l → ∃ t q, exec .packetGrant s = .next t ∧ t.req s.cur.ev.id = some q ∧ q.stage = .reply ∧
      q.reply = .data l ∧ q.dests = r.dests ∧ SameMemory s t) ∧
    ∀ q c, s.portServes r = .free → s.goal r ≠ some r.place ∨ r.place.isPort = true → s.nextHop r = some (q, c) →
      let named := (s.granted r.onSteal r.place q).map (·.id) = some r.id
      let key := r.output r.place q
      let departs (t : State) : Prop :=
        (assoc t.xcnt r.place.code).getD 0 = (if spent then ((assoc s.xcnt r.place.code).getD 0 + 1) % 2 ^ 64
          else (assoc s.xcnt r.place.code).getD 0) ∧
        assoc t.outFree key = some (max ((assoc s.outFree key).getD 0) (10 * s.gclk) + r.occupies) ∧
        { t with reqs := s.reqs, xcnt := s.xcnt, lastIn := s.lastIn, outFree := s.outFree, out := s.out } = s
      (¬named → exec .packetGrant s = .next s) ∧
      (named → q ≠ .outside → ∃ t, exec .packetGrant s = .next t ∧ departs t ∧ t.out = s.out ∧
        t.reqs = s.reqs.filter (fun p => p.id != r.id) ++
          [{ gone with stage := if r.stage = .port then .wire else r.stage, place := q, came := r.place, moving := true, course := c }]) ∧
      ∀ l, named → q = .outside → r.place = .port l → ∃ t, exec .packetGrant s = .next t ∧ departs t ∧
        t.out = s.out ++ [.packet l (gone.header s.devId) gone] ∧
        t.reqs = if s.keeps r then
            s.reqs.map fun p => if p.id = r.id then { gone with stage := .outside, place := .outside, came := r.place } else p
          else s.reqs.filter fun p => p.id != r.id

/-- 07 R145, 14 R307, R309: PACKET_ARRIVAL puts a packet, in the order in which its VC left, into the queue of its next point, at the end of
its way with the tile or the station that it goes to; a point that does not admit its tenant discards it with a notice and counts
it. FORWARDED_ACCESS brings a translated request to its home. Nothing else changes but the bytes moved. -/
def Claims.PacketsArrive : Prop :=
  ∀ (s : State) (r : Req), s.req s.cur.ev.id = some r → r.moving = true → r.stage ≠ .cut →
    let joins (t : State) (q : Req) : Prop :=
      { t with moved := s.moved } = { s with reqs := s.reqs.filter (fun p => p.id != r.id) ++ [{ q with moving := false, stamp := s.gclk }] }
    let ends := s.goal r = some r.place ∧ r.place.isPort = false
    (s.overtakes r = true → exec .packetArrival s = .next s ∧ exec .forwardedAccess s = .next s) ∧
    (s.overtakes r = false → r.stage = .wire → s.admits r r.place = true → ∃ t, exec .packetArrival s = .next t ∧
      (¬ends → joins t r) ∧ (∀ n, ends → r.place = .station n → r.op.isAccess = true → joins t { r with stage := .xlate }) ∧
      (∀ n, ends → r.place = .tile n → joins t { r with stage := .target })) ∧
    (s.overtakes r = false → r.stage = .wire → s.admits r r.place = false → ∃ t q, exec .packetArrival s = .next t ∧
      t.req s.cur.ev.id = some q ∧ q.stage = .reply ∧ q.reply = .reject ∧ q.slack = 0 ∧ q.xh = true ∧ q.dests = r.dests ∧
      (assoc t.trej (s.routerOf r.place)).getD 0 = ((assoc s.trej (s.routerOf r.place)).getD 0 + 1) % 2 ^ 64 ∧
      { t with reqs := s.reqs, xcnt := s.xcnt, trej := s.trej, moved := s.moved } = s) ∧
    (s.overtakes r = false → r.stage = .forward ∨ r.stage = .reply → ¬ends → ∃ t, exec .packetArrival s = .next t ∧ joins t r) ∧
    (s.overtakes r = false → r.stage = .forward → s.goal r = some r.place → ∃ t, exec .forwardedAccess s = .next t ∧
      joins t { r with stage := .target })

/-- 07 R145, R146, 09 R185, R197, 13 R289: TRANSLATION_WALK of the request whose turn it is, which no store in transit serves, gives it its
physical address, or answers it with the cause of the walk; one that the station's window knows goes to the recorded home; a station
that has applied an abort answers with a discard. A walk that reaches an address without memory faults (the model's own, log entry 51).
Nothing but requests, XCNT and the windows changes. -/
def Claims.TranslationsWalk : Prop :=
  ∀ (s : State) (r : Req), s.req s.cur.ev.id = some r → r.stage = .xlate → (s.nextWalk r.place).map (·.id) = some r.id →
    let d := s.depart r
    let sent (a : Option Nat) : Prop := ∃ t, exec .translationWalk s = .next t ∧
      t.req s.cur.ev.id = some { d.2 with
        pa := a, stage := .forward, came := r.place, accepted := r.accepted <|> some s.nextReq, moving := false, stamp := s.gclk } ∧
      { t with reqs := s.reqs, xcnt := s.xcnt, windows := s.windows, nextReq := s.nextReq } = s
    let answered (a : Reply) : Prop := ∃ t q, exec .translationWalk s = .next t ∧ t.req s.cur.ev.id = some q ∧ q.stage = .reply ∧
      q.reply = a ∧ q.dests = r.dests ∧ { t with reqs := s.reqs, xcnt := s.xcnt } = s
    (s.discards r.part r.node = true → answered .discard) ∧
    (s.discards r.part r.node = false → r.immediateLoad = false →
      (∀ w, s.windowEntry r = some w → sent w.fwd) ∧
      (s.windowEntry r = none → r.op ≠ .pref → (∀ c v l e, r.op ≠ .mapt c v l e) →
        (∀ pa, s.translateReq r (s.staleFor s.cur.ev.ok) = .at pa → sent (some pa)) ∧
        (∀ c, s.translateReq r (s.staleFor s.cur.ev.ok) = .fault c → answered (.fault c)) ∧
        (∀ pa, s.translateReq r (s.staleFor s.cur.ev.ok) = .missing pa → exec .translationWalk s = .fault (.noMemory pa))) ∧
      (s.windowEntry r = none → r.op = .pref → answered .none) ∧
      (∀ c v l e, s.windowEntry r = none → r.op = .mapt c v l e →
        sent (if l = 0 ∨ 4 < l ∨ (s.part c).valid = false then none else s.maptHome c v l)))

/-- The statements above as one: ArbitersGrant, PortsGrant, PacketsArrive, TranslationsWalk. -/
def Obligations.RequestsTravel : Prop :=
  Claims.ArbitersGrant ∧ Claims.PortsGrant ∧ Claims.PacketsArrive ∧ Claims.TranslationsWalk

/-- 08 R163, 09 R185, R190, R197, 13 R289, log entry 51: REMOTE_ACCESS_SERVICE at a target performs the request whose turn it is at once
and answers it with what was performed, one that the target's window knows and that is no read with the recorded answer, without
performing it again; a pair may be performed half by half; a reservation or a condition that is not met waits there, and an access to a bank in retention wakes it first. Between
an abort's DECIDE and OPEN the target answers with a discard. An address without memory faults (the model's own, log entry 51). -/
def Claims.TargetsServe : Prop :=
  ∀ (s : State) (r : Req), s.req s.cur.ev.id = some r → r.stage = .target → r.op.isMemory = true →
    (s.nextService r.place).map (·.id) = some r.id →
    let d := s.depart r
    let dropped := s.discards r.part r.node && r.op.isUndone
    let run := exec .remoteAccessService s
    let answered (t : State) (a : Reply) : Prop :=
      ∃ q, t.req s.cur.ev.id = some q ∧ q.stage = .reply ∧ q.reply = a ∧ q.dests = r.dests
    (dropped = true → ∃ t, run = .next t ∧ answered t .discard ∧ { t with reqs := s.reqs, xcnt := s.xcnt } = s) ∧
    (dropped = false → s.belowScratch r = true → ∃ t, run = .next t ∧
      answered t (.fault 0x0A0) ∧ { t with reqs := s.reqs, xcnt := s.xcnt, windows := s.windows } = s) ∧
    (dropped = false → s.belowScratch r = false → r.inTile = true → (s.tile r.ttile).asleep r.loc r.size = true →
      run = .next (s.touchBanks r.ttile r.loc r.size)) ∧
    (dropped = false → s.belowScratch r = false → (r.inTile && (s.tile r.ttile).asleep r.loc r.size) = false →
      let u := if r.inTile then d.1.touchBanks r.ttile r.loc r.size else d.1
      let b := { u with lastIn := assocPut s.lastIn (outputKey r.place .outside + 2) r.came.code }
      let first := s.cur.ev.ok = true ∧ r.isPair = true ∧ r.half = [] ∧ s.windowEntry r = none
      let performs := (s.windowEntry r = none ∧ r.half = []) ∨ (s.windowEntry r ≠ none ∧ ∃ k, r.op = .load k)
      (first → ∀ v, s.serveHalf r = some v → v.missing = none → run = .next v) ∧
      (¬first ∨ s.serveHalf r = none →
        (∀ w, s.windowEntry r = some w → (∀ k, r.op ≠ .load k) → s.missing = none → ∃ t, run = .next t ∧
          answered t w.reply ∧ SameMemory s t) ∧
        (s.windowEntry r = none → r.half ≠ [] → ∀ u a, b.perform (d.2.halfOf false) = (u, some a) → u.missing = none →
          ∃ t, run = .next t ∧ answered t (match a with | .data l => .data (r.half ++ l) | a => a)) ∧
        (performs → ∀ u a, b.perform d.2 = (u, some a) → u.missing = none → ∃ t, run = .next t ∧
          answered t a ∧ OnlyObserved { u with reqs := t.reqs, xcnt := t.xcnt, windows := t.windows } t) ∧
        (performs → ∀ u a pa, b.perform d.2 = (u, some a) → u.missing = some pa →
          run = .fault (.noMemory pa)) ∧
        (performs → ∀ u, b.perform d.2 = (u, none) → ∃ t, run = .next t ∧
          { d.2 with stage := .waiting, granted := u.gclk, moving := false, stamp := u.gclk } ∈ t.reqs ∧ { t with reqs := u.reqs } = u)))

/-- 07 R141-R143, R151, 08 R171-R176, 13 R279: at a home station a read of a partition's tile returns its own pending version of a byte,
else the byte of memory. A write to space 00 or 11 makes pending versions alone; one to space 10 goes to memory at once and its old bytes
into the journal, and an atomic or the SCH of a holder there writes its new element so, the SCH or RLSV ending the reservation; a reduction to space 10 is resolved at once, one elsewhere is kept
for the commit, unless it conflicts. Without a free line, entry or accumulator the answer is the capacity cause. A write to space 10
of a byte that has a pending version of the same tile goes to that too (the model's choice, log entry 53). -/
def Claims.HomesPerform : Prop :=
  ∀ (s : State) (r : Req) (pa id : Nat), r.pa = some pa → (r.party s).part = some id → s.hbmBad = [] → Memory.wf s.hbm = true →
    let rank := r.sdev * 4096 + r.tile
    let at' := homeStation pa
    let byte (t : State) (a : Nat) : Byte := (t.pending id rank a).getD (memByte t.hbm a)
    let l := (List.range r.size).map fun i => byte s (pa + i)
    let reds := (s.part id).reds
    let others (t : State) : Prop := (∀ m a, m ≠ rank → t.pending id m a = s.pending id m a) ∧ t.tiles = s.tiles
    let journaled (t : State) (new : List Byte) : Prop := others t ∧
      (∀ a, memByte t.hbm a = (placed pa new a).getD (memByte s.hbm a)) ∧ (∀ a, byte t a = (placed pa new a).getD (byte s a)) ∧
      (t.part id).journal = ⟨pa, memBytes s.hbm pa new.length, []⟩ :: (s.part id).journal
    let answers (a : Reply) (e : State → Prop) : Prop := ∃ t, s.perform r = (t, some a) ∧ e t
    let room := s.journalUsed at' < 16384
    (∀ k, r.op = .load k → s.perform r = (s, some (.data l))) ∧
    (∀ new, r.op = .store new → r.space ≠ 2 →
      let fresh := ((List.range new.length).map fun i => (pa + i) / 64).eraseDups.filter fun n => !((s.part id).versionLines at').contains n
      (s.versionsUsed at' + fresh.length ≤ 131072 → answers .none fun t => others t ∧ t.hbm = s.hbm ∧
        (t.part id).journal = (s.part id).journal ∧ ∀ a, t.pending id rank a = (placed pa new a <|> s.pending id rank a)) ∧
      (131072 < s.versionsUsed at' + fresh.length → s.perform r = (s, some (.capacity 0x0E2)))) ∧
    (r.space = 2 →
      (∀ new, r.op = .store new → (room → answers .none fun t => journaled t new) ∧ (¬room → s.perform r = (s, some (.capacity 0x0E3)))) ∧
      (∀ f b, r.op = .amo f b → room → answers (.value (word (ofBytes l))) fun t =>
        journaled t (toBytes r.size (f.apply r.size (ofBytes l) b))) ∧
      (∀ old new, r.op = .cas old new → ofBytes l = old.toNat % 2 ^ (8 * r.size) → room → answers (.value (word (ofBytes l))) fun t =>
        journaled t (toBytes r.size new.toNat)) ∧
      (∀ old new, r.op = .cas old new → ofBytes l ≠ old.toNat % 2 ^ (8 * r.size) → s.perform r = (s, some (.value (word (ofBytes l))))) ∧
      (∀ v, r.op = .sch v → (s.holds r pa = false → s.perform r = (s, some (.value 0))) ∧
        (s.holds r pa = true → room → answers (.value 1) fun t => journaled t (toBytes r.size v.toNat) ∧
          t.holders = s.holders.filter fun h => h.word != pa / 8)) ∧
      (∀ op x, r.op = .red op x → room →
        let n := s.arrivals at'
        let rw := if op = .addBf16Sr then randomWord (s.part id).seed (word pa) n else 0
        answers .none fun t => journaled t (toBytes op.size (op.resolve (ofBytes l) [x] rw)) ∧
          t.arrivals at' = if op = .addBf16Sr then (n + 1) % 2 ^ 32 else n)) ∧
    (r.op = .rlsv → (s.holds r pa = false → s.perform r = (s, some (.value 0))) ∧
      (s.holds r pa = true → s.perform r = ({ s with holders := s.holders.filter fun h => h.word != pa / 8 }, some (.value 1)))) ∧
    (∀ op x, r.op = .red op x → r.space ≠ 2 →
      ((∃ e ∈ reds, e.pa = pa ∧ e.op = op) → answers .none fun t => t.hbm = s.hbm ∧ t.tiles = s.tiles ∧
        (t.part id).reds = reds.map fun e => if e.pa = pa ∧ e.op = op then { e with parts := e.parts ++ [x] } else e) ∧
      ((∀ e ∈ reds, ¬(e.pa = pa ∧ e.op = op)) → (∃ e ∈ reds, overlaps e.pa e.op.size pa op.size = true) →
        s.perform r = (s, some (.fault 0x0A3))) ∧
      ((∀ e ∈ reds, overlaps e.pa e.op.size pa op.size = false) →
        (s.redsUsed at' < 16384 → answers .none fun t => t.hbm = s.hbm ∧ t.tiles = s.tiles ∧ (t.part id).reds = reds ++ [⟨pa, op, [x]⟩]) ∧
        (16384 ≤ s.redsUsed at' → s.perform r = (s, some (.capacity 0x0E4)))))

/-- 07 R139, R142, 13 R279: a read of another tile's TLM returns the bytes that the reader's tile wrote there in the superstep, else the
committed ones; a write below SCRBASE is held as a delta and changes no byte that the target reads, unless the target holds too many;
one at or above it is performed at once. A lost tile answers 0x143, one of another tenant 0x101. -/
def Claims.OtherTilesPerform : Prop :=
  ∀ (s : State) (r : Req) (id : Nat), r.pa = none → ¬(r.ttile = r.tile ∧ r.sdev = s.devId) → (r.party s).part = some id →
    let k := r.ttile
    let w := s.tile k
    let scr := s.scratchFrom k
    let rank := r.sdev * 4096 + r.tile
    let fine := w.lost = false ∧ s.tenantOk (r.party s) k = true
    let clean := fine ∧ w.bad = [] ∧ w.undoBad = [] ∧ Memory.wf w.tlm = true
    (∀ c, (∃ f, r.op = .load f) ∨ (∃ l, r.op = .store l) → (w.lost = true ∧ c = 0x143) ∨ (w.lost = false ∧ s.tenantOk (r.party s) k = false ∧ c = 0x101) →
      s.perform r = (s, some (.fault c))) ∧
    (clean → ∀ f, r.op = .load f → s.perform r =
      (s, some (.data ((List.range r.size).map fun i => (s.delta k rank (r.loc + i)).getD (w.committed scr (r.loc + i)))))) ∧
    (clean → ∀ l, r.op = .store l → l ≠ [] → r.loc + l.length ≤ scr →
      let o := overWrite ((assoc w.deltas rank).getD []) r.loc l
      let count := { w with deltas := assocPut w.deltas rank o }.deltaCount
      (count ≤ 512 → ∃ t, s.perform r = (t, some .none) ∧ SameMemory s t ∧
        (∀ a, t.delta k rank a = (placed r.loc l a <|> s.delta k rank a)) ∧ (∀ m a, m ≠ rank → t.delta k m a = s.delta k m a) ∧
        t.sansTile k = s.sansTile k) ∧
      (512 < count → s.perform r = (s, some (.capacity 0x0E1)))) ∧
    (clean → ∀ l, r.op = .store l → scr ≤ r.loc → 0x1000 ≤ r.loc → scr % 64 = 0 → w.deltaCount ≤ 512 → ∃ t,
      s.perform r = (t, some .none) ∧ (∀ i, i < l.length → (t.tile k).byte (r.loc + i) = l.getD i 0) ∧ MemoryBut s t k r.loc l.length ∧
      (t.tile k).deltas = w.deltas ∧ t.sansTile k = s.sansTile k)

/-- 08 R171-R173, Table 8.4: in the scratch of a tile's TLM an atomic returns the old element and writes the new one, a CAS only where the
element equals the expected value; every other byte of memory stays. -/
def Claims.AtomicsPerform : Prop :=
  ∀ (s : State) (r : Req) (f : AmoOp) (b old new : Word), r.pa = none → r.ttile = r.tile → r.sdev = s.devId →
    r.size = 4 ∨ r.size = 8 → 0x1000 ≤ r.loc → s.scratchFrom r.tile ≤ r.loc → (s.tile r.tile).lost = false →
    s.tenantOk (r.party s) r.tile = true → assoc (s.tile r.tile).deltas (r.party s).rank = none → (s.tile r.tile).bad = [] → (s.tile r.tile).undoBad = [] →
    Memory.wf (s.tile r.tile).tlm = true → (s.tile r.tile).undo.length ≤ 2048 →
    s.scratchFrom r.tile % 64 = 0 →
    let v := ofBytes ((s.tile r.tile).bytes r.loc r.size)
    let write (t : State) (n : Nat) : Prop :=
      (t.tile r.tile).bytes r.loc r.size = toBytes r.size n ∧ MemoryBut s t r.tile r.loc r.size ∧ t.sansTile r.tile = s.sansTile r.tile
    (r.op = .amo f b → ∃ t, s.perform r = (t, some (.value (word v))) ∧ write t (f.apply r.size v b)) ∧
    (r.op = .cas old new → v = old.toNat % 2 ^ (8 * r.size) → ∃ t, s.perform r = (t, some (.value (word v))) ∧ write t new.toNat) ∧
    (r.op = .cas old new → v ≠ old.toNat % 2 ^ (8 * r.size) → s.perform r = (s, some (.value (word v))))

/-- The statements above as one: TargetsServe, AtomicsPerform, HomesPerform, OtherTilesPerform. -/
def Obligations.TargetsPerform : Prop :=
  Claims.TargetsServe ∧ Claims.AtomicsPerform ∧ Claims.HomesPerform ∧ Claims.OtherTilesPerform

/-- 07 R148, R158, 08 R162, R166-R170, 09 R203, 14 R318: REPLY_ARRIVAL of an acknowledgement, of data or of a value ends the request: an
exhausted one is counted against its strand, which with SSTAT.XTRAP holds 0x100; the reservation table is told; the destinations hold
what it brought and are no longer pending, a blocking form updates its base and wakes past its bundle, and nothing else changes. -/
def Claims.RepliesLand : Prop :=
  ∀ (s : State) (r : Req) (vals : List Word), r.slot < 16 → s.req s.cur.ev.id = some r → r.stage = .reply → r.sv = true →
    r.sdev = s.devId → s.goal r = some r.place → s.atEnd r → r.due ≤ s.cyc → r.cell = none → r.op.isOwn = false →
    s.discards r.part (.tile r.tile) = false →
    (∃ k l, r.op = .load k ∧ r.reply = .data l ∧ vals = loadValues k l) ∨ (∃ v, r.reply = .value v ∧ vals = [v]) ∨
      (r.reply = .none ∧ vals = []) →
    let xev := vget (s.tile r.tile).xev r.slot 0
    let told := ((s.strand r.tile r.slot).afterCount r xev).afterResv r r.reply
    let based := match r.base with
      | some (b, v) => told.put (.x b) v
      | none => told
    let landed := (r.dests.zip vals).foldl (fun st d => st.land d.1 d.2) based
    ∃ t, exec .replyArrival s = .next t ∧ t.reqs = s.reqs.filter (fun q => q.id != r.id) ∧
      (t.tile r.tile).xev = vset (s.tile r.tile).xev r.slot (r.counted32 xev) ∧
      OnlyStrand s ({ t with reqs := s.reqs }.modTile r.tile fun w => { w with xev := (s.tile r.tile).xev }) r.tile r.slot
        (if r.blocking then landed.wake else landed)

/-- 07 R148, 08 R168, 14 R309, R318: an access that ends with a fault frees its destinations and its reservation; a non-blocking one, and a
posted store or reduction, leaves the cause, its pointer and its registers with the strand, a blocking load or store traps at its
bundle; uncorrectable data (0x141, 0x142) and conflicting reductions (0x0A3) make the tile vote abort as well. A rejected access, whose
notice counts as an exhausted answer, ends so with 0x101. -/
def Claims.FaultsReturn : Prop :=
  ∀ (s : State) (r : Req) (c : Nat), r.slot < 16 → s.req s.cur.ev.id = some r → r.sv = true → r.cell = none → r.op.isOwn = false →
    s.discards r.part (.tile r.tile) = false →
    let here := r.stage = .reply ∧ r.sdev = s.devId ∧ s.goal r = some r.place ∧ s.atEnd r ∧ r.due ≤ s.cyc
    let rest := { s with reqs := s.reqs.filter fun q => q.id != r.id }
    let votes := c = 0x141 ∨ c = 0x142 ∨ c = 0x0A3
    let ends (o : Out) (q : Req) (c : Nat) (a : Reply) : Prop :=
      let xev := vget (s.tile r.tile).xev r.slot 0
      let freed := r.dests.foldl Strand.unmark (((s.strand r.tile r.slot).afterCount q xev).afterResv q a)
      let counted := (if q.xh = true ∧ q.counted = false then
          rest.modTile r.tile fun w => { w with xev := vset w.xev r.slot (q.counted32 xev) } else rest)
      let told := (if votes then counted.castAbort r.tile c else counted).modStrand r.tile r.slot
      (r.blocking = false → r.posted = true ∨ r.dests ≠ [] →
        o = .next (told fun _ => { freed with faults := freed.faults ++ [⟨r.dests, r.posted, c, r.ptr, r.acc⟩] })) ∧
      (r.blocking = true → o = .next ((told fun _ => { freed with sleep := .awake }).takeTrap r.tile r.slot
        ⟨c, r.epc, r.ptr, r.paired, .none⟩))
    (here → r.reply = .fault c → ends (exec .replyArrival s) r c (.fault c)) ∧
    ((here ∧ r.reply = .reject) ∨ (r.stage = .outside ∧ s.cur.ev.ok = true) → c = 0x101 →
      ends (exec .rejectNoticeArrival s) { r with xh := true } 0x101 .reject)

/-- The statements above as one: RepliesLand, FaultsReturn. -/
def Obligations.RepliesReturn : Prop :=
  Claims.RepliesLand ∧ Claims.FaultsReturn

/-- 08 R166-R168: RESERVATION_GRANT gives a word without a holder to the head of its queue and answers with the word, the grains that it
waited off its slack; a reservation is revoked once 4,096 grains have passed since its grant. -/
def Claims.ReservationsTurn : Prop :=
  ∀ (s : State) (r : Req) (pa : Nat) (l : List Byte), r.op = .lrw → r.pa = some pa → r.stage = .waiting →
    (s.req s.cur.ev.id = some r → s.holderOf (pa / 8) = none → s.targetRead r = .data l → s.discards r.part r.node = false →
      s.mustHold r = false → (s.reqs.find? fun q => q.awaits (pa / 8)).map (·.id) = some r.id →
      ∃ t q, exec .reservationGrant s = .next t ∧ t.holders = s.holders ++ [⟨pa / 8, r.tile, r.slot, s.gclk⟩] ∧
        t.req s.cur.ev.id = some q ∧ q.stage = .reply ∧ q.reply = .value (word (ofBytes l)) ∧ q.slack = r.slack - (s.gclk - r.granted) ∧
        OnlyObserved s { t with reqs := s.reqs, xcnt := s.xcnt, holders := s.holders, windows := s.windows }) ∧
    (∀ h, s.holderOf s.cur.ev.a = some h → h.since + 4096 ≤ s.gclk → ∃ t, exec .reservationRevokeTimeout s = .next t ∧
      t = { s with holders := s.holders.filter fun q => q.word != h.word })

/-- 09 R202-R204: a WAITV whose turn it is at a target with a monitor free is answered at once where its condition holds, and waits there
otherwise. -/
def Claims.MonitorsTake : Prop :=
  ∀ (s : State) (r : Req) (c : WaitCond) (b : Word) (l : List Byte), s.req s.cur.ev.id = some r → r.op = .waitv c b → r.stage = .target →
    (s.nextService r.place).map (·.id) = some r.id → s.belowScratch r = false → s.discards r.part r.node = false →
    (r.inTile && (s.tile r.ttile).asleep r.loc r.size) = false → s.windowEntry r = none → r.half = [] → s.missing = none →
    s.targetRead r = .data l →
    let but (t : State) : Prop := OnlyObserved (if r.inTile then s.touchBanks r.ttile r.loc r.size else s)
      { t with reqs := s.reqs, xcnt := s.xcnt, windows := s.windows, lastIn := s.lastIn }
    (c.holds r.size (ofBytes l) b = true → ∃ t q, exec .waitvMonitorFree s = .next t ∧ t.req s.cur.ev.id = some q ∧ q.stage = .reply ∧
      q.reply = .value (word (ofBytes l)) ∧ but t) ∧
    (c.holds r.size (ofBytes l) b = false → ∃ t q, exec .waitvMonitorFree s = .next t ∧ q ∈ t.reqs ∧ q.id = r.id ∧ q.stage = .waiting ∧
      q.granted = s.gclk ∧ but t)

/-- 09 R197, R198, 13 R289, 14 R318, R323: a request whose path was lost is sent again from its tile's port with the same sequence number
and the slack that it was issued with, and its notice counts once as an exhausted answer; an answer that was cut off is sent again from
where it was performed. A request that no path leads on is lost, and the tile's superstep votes abort with 0x102, unless the tile has
applied an abort, which ends the request. What is no request waits for a path (the model's choice, log entry 52). -/
def Claims.PathsLost : Prop :=
  ∀ (s : State) (r : Req), s.req s.cur.ev.id = some r → r.sdev = s.devId →
    let again := { r with
      stage := .port, place := .tile r.tile, came := .strand 0, reply := .none, slack := r.budget, xh := false, counted := true, pa := none
      half := [], course := none, performed := false, moving := false, stamp := s.gclk }
    (r.stage = .outside ∨ (r.stage = .reply ∧ r.reply = .pathLost ∧ s.goal r = some r.place ∧ s.atEnd r ∧ r.due ≤ s.cyc) →
      ∃ t, exec .pathLostNotice s = .next t ∧ t.reqs = s.reqs.filter (fun p => p.id != r.id) ++ [again] ∧ SameMemory s t ∧
        (r.sv = true → r.slot < 16 → vget (t.tile r.tile).xev r.slot 0 =
          { r with xh := true }.counted32 (vget (s.tile r.tile).xev r.slot 0))) ∧
    (r.stage = .cut →
      let p := match r.pa with
        | some pa => Point.station (homeStation pa)
        | none => .tile r.ttile
      exec .pathLostNotice s = .next { s with reqs := s.reqs.filter (fun p => p.id != r.id) ++
        [{ r with stage := .reply, place := p, came := p, moving := false, stamp := s.gclk }] }) ∧
    (r.stage = .port ∨ r.stage = .wire ∨ r.stage = .forward ∨ r.stage = .reply → r.moving = false → s.portServes r = .free →
      s.goal r ≠ some r.place ∨ r.place.isPort = true → s.nextHop r = none →
      (r.waits = true → exec .packetGrant s = .next s) ∧
      (r.waits = false → s.discards r.part (.tile r.tile) = true →
        exec .packetGrant s = .next { s with reqs := s.reqs.filter fun p => p.id != r.id }) ∧
      (r.waits = false → s.discards r.part (.tile r.tile) = false → ∃ t, exec .packetGrant s = .next t ∧
        t.req s.cur.ev.id = some { r with stage := .lost } ∧
        (s.versioned r.tile = true → s.isLate r.tile = false →
          (t.tile r.tile).vote = true ∧ (t.tile r.tile).causes = (s.tile r.tile).causes ++ [0x102])))

/-- The statements above as one: ReservationsTurn, MonitorsTake, PathsLost. -/
def Obligations.WaitersAtTargets : Prop :=
  Claims.ReservationsTurn ∧ Claims.MonitorsTake ∧ Claims.PathsLost

/-! ### The copy engine (10) -/

/-- 10 R205, R227: CPSRC, CPDST, CPSHP and CPSTR write two shadow registers of the strand each, the scale pointer as 0 where the pointer is
not scaled, and change nothing else. -/
def Claims.CopyRegistersAreWritten : Prop :=
  ∀ (s : State) (p : RegPair) (xa xb : Reg), s.cur.slot < 16 →
    let odd := if ptrBlk (s.rx p.even) = 0 then 0 else s.rx p.odd
    let shadow (t : State) (n : Nat) (a b : Word) : Prop := OnlyMe s t { s.me with copy := vset (vset s.me.copy n a) (n + 1) b }
    (∃ t, exec (.cpsrc p) s = .next t ∧ shadow t 0 (s.rx p.even) odd) ∧
    (∃ t, exec (.cpdst p) s = .next t ∧ shadow t 2 (s.rx p.even) odd) ∧
    (∃ t, exec (.cpshp xa xb) s = .next t ∧ shadow t 4 (s.rx xa) (s.rx xb)) ∧
    ∃ t, exec (.cpstr xa xb) s = .next t ∧ shadow t 6 (s.rx xa) (s.rx xb)

/-- 10 R209-R214: CPGO and CPGO.mc with an entry free and no check failed take the next transfer id, written to xi, and queue the shadow
words with xs pending; one of no bytes, of bad sizes or of a bad extent ends at once with DONE, ESIZE or EFAULT. Without an entry they
wait. -/
def Claims.TransfersAreQueued : Prop :=
  ∀ (s : State) (i : Instr) (why : CopyFor) (xi xs xm : Reg) (q : SlackReg), s.cur.slot < 16 →
    let g := (s.tile s.cur.tile).eng
    let w := s.me.copy
    let check := if i = .cpgo xi xs q then s.cpgoCause w w else s.cpgoCause (ownScale w) w <|> s.multicastCause s.cur.tile w (s.rx xm)
    (i = .cpgo xi xs q ∧ why = .cpgo) ∨
      (i = .cpgoMc xi xs xm q ∧ why = .multicast (fieldOf (s.rx xm) 5 0 + 1) (fieldOf (s.rx xm) 11 6 + 1)) →
    (g.commandRoom = false → exec i s = .next s.hold) ∧
    (g.commandRoom = true → ∀ c v, check = some (c, v) → exec i s = .next (s.trapAtIssue c v)) ∧
    (g.commandRoom = true → check = none → ∃ t, exec i s = .next t ∧
      (t.tile s.cur.tile).eng.txc = (g.txc + 1) % 2 ^ 64 ∧ (xi ≠ xs → t.me.xv xi = word g.txc) ∧
      (∀ r, r ≠ xi → r ≠ xs → t.me.xv r = s.me.xv r) ∧ (∀ p, t.me.pv p = s.me.pv p) ∧ SameMemory s t ∧
      (let quick := copyTotal w = 0 ∨ copySizeBad w = true ∨ copyExtentBad s.priv w = true
      (quick → t.me.pending (.x xs) = false ∧ (t.tile s.cur.tile).eng = { g with txc := (g.txc + 1) % 2 ^ 64 } ∧
        t.me.xv xs = statusWord g.txc (if copyTotal w = 0 then 0 else if copySizeBad w then 1 else 2) 1 0) ∧
      (¬quick → t.me.pending (.x xs) = true ∧ ∃ x : Xfer, (t.tile s.cur.tile).eng.xfers = g.xfers ++ [x] ∧ x.id = g.txc ∧ x.why = why ∧
        x.slot = s.cur.slot ∧ x.rd = some xs ∧ x.words = w ∧ x.total = copyTotal w ∧ x.started = 0 ∧
        x.slack = (vget s.me.k q.toNat 0xFFF).toNat ∧ vget (t.tile s.cur.tile).eng.vq (copyClass w) [] = vget g.vq (copyClass w) [] ++ [x.key])))

/-- The statements above as one: CopyRegistersAreWritten, TransfersAreQueued. -/
def Obligations.CopiesAreQueued : Prop :=
  Claims.CopyRegistersAreWritten ∧ Claims.TransfersAreQueued

/-- 10 R222: CPCAN completes on every operand: it answers 0 where no transfer has the id or every chunk has started, and otherwise answers 1
and cancels the transfer, which ends at once with ECANCEL where no chunk has started. -/
def Claims.CancelsComplete : Prop :=
  ∀ (s : State) (pd : PredReg) (xa : Reg), s.cur.slot < 16 →
    let k := s.cur.tile
    let g := (s.tile k).eng
    (g.byId (s.rx xa).toNat = none → ∃ t, exec (.cpcan pd xa) s = .next t ∧ OnlyMe s t (s.me.land (.p pd) 0)) ∧
    ∀ x, g.byId (s.rx xa).toNat = some x → x.slot < 16 →
      (x.started = x.total → ∃ t, exec (.cpcan pd xa) s = .next t ∧ OnlyMe s t (s.me.land (.p pd) 0)) ∧
      (x.started ≠ x.total → x.started ≠ 0 → ∃ t, exec (.cpcan pd xa) s = .next t ∧ OnlyCommand s t k s.cur.slot (s.me.land (.p pd) 1)
        ((g.modXfer x.key fun y => { y with cancel := true }).unqueue x.key)) ∧
      (x.started ≠ x.total → x.started = 0 → ∃ t, exec (.cpcan pd xa) s = .next t ∧ t.me.pv pd = true ∧ t.me.pending (.p pd) = false ∧
        (t.tile k).eng = { g.unqueue x.key with xfers := g.xfers.filter fun y => y.key != x.key } ∧ SameMemory s t ∧
        (∀ r, x.rd = some r → (t.strand k x.slot).xv r = statusWord x.id 3 1 x.done ∧ (t.strand k x.slot).pending (.x r) = false) ∧
        (∀ r, x.rd ≠ some r → (t.strand k x.slot).xv r = (s.strand k x.slot).xv r) ∧
        ∀ j, j ≠ s.cur.slot → j ≠ x.slot → t.strand k j = s.strand k j)

/-- 10 R223: CPQRY completes on every operand and writes only its register: for id 0 the page-fetch entries held, done and faulted, for a
transfer that is held its state, class and bytes done, and for another id the id alone. -/
def Claims.QueriesAnswer : Prop :=
  ∀ (s : State) (xd xa : Reg), s.cur.slot < 16 →
    let g := (s.tile s.cur.tile).eng
    let id := (s.rx xa).toNat
    ∃ t v, exec (.cpqry xd xa) s = .next t ∧ OnlyMe s t (s.me.land (.x xd) v) ∧
      (id = 0 → g.pages.length < 256 → fieldOf v 7 0 = g.pages.length ∧ fieldOf v 15 8 = (g.pages.filter fun p => p.done).length ∧
        fieldOf v 23 16 = (g.pages.filter fun p => p.faulted).length) ∧
      (id ≠ 0 → (∀ x ∈ g.xfers, x.id ≠ id) → v = word (id % 65536 * 2 ^ 48)) ∧
      ∀ x, id ≠ 0 → (g.xfers.find? fun x => x.id == id) = some x → x.cls < 256 → x.done < 2 ^ 32 →
        fieldOf v 63 48 = id % 65536 ∧ fieldOf v 47 40 = (if x.started = 0 then 1 else 2) ∧ fieldOf v 39 32 = x.cls ∧ fieldOf v 31 0 = x.done

/-- 10 R224: PFL.ADD of a source outside space 01 and a well-formed entry completes: it adds the entry and answers 1, or answers 0 where 64
stand in the list. A check that fails traps at issue. -/
def Claims.PageEntriesAreAdded : Prop :=
  ∀ (s : State) (pd : PredReg) (xa xb : Reg) (q : SlackReg), s.cur.slot < 16 →
    let k := s.cur.tile
    let g := (s.tile k).eng
    let w := s.rx xa
    let e := s.rx xb
    let len := fieldOf e 39 20
    let dst := fieldOf e 18 0
    (∀ c, s.pointerCause w = some c → exec (.pflAdd pd xa xb q) s = .next (s.trapAtIssue c w)) ∧
    (s.pointerCause w = none → ptrSpace w = 1 → exec (.pflAdd pd xa xb q) s = .next (s.trapAtIssue 0x049 w)) ∧
    (s.pointerCause w = none → ptrSpace w ≠ 1 → ptrBlk w ≠ 0 → exec (.pflAdd pd xa xb q) s = .next (s.trapAtIssue 0x045 w)) ∧
    (s.pointerCause w = none → ptrSpace w ≠ 1 → ptrBlk w = 0 → fieldOf e 63 42 = 0 → fieldOf e 19 19 = 0 → dst + len ≤ 0x80000 →
      (len = 0 ∨ tlmMay s.priv true dst len = true) →
      ∃ t p, exec (.pflAdd pd xa xb q) s = .next t ∧ p.src = w ∧ p.dst = dst ∧ p.len = len ∧ p.cls = fieldOf e 41 40 ∧
        p.slack = (vget s.me.k q.toNat 0xFFF).toNat ∧ p.started = decide (len = 0) ∧ p.done = decide (len = 0) ∧ p.faulted = false ∧
        OnlyCommand s t k s.cur.slot (s.me.land (.p pd) (predWord (decide (g.pages.length < 64))))
          (if g.pages.length < 64 then { g with pages := g.pages ++ [p] } else g))

/-- 10 R226: PFL.CLR completes in every state: it removes the entries that have not started and writes their number. -/
def Claims.PageListsAreCleared : Prop :=
  ∀ (s : State) (xd : Reg), s.cur.slot < 16 →
    let k := s.cur.tile
    let g := (s.tile k).eng
    ∃ t, exec (.pflClr xd) s = .next t ∧
      OnlyCommand s t k s.cur.slot (s.me.land (.x xd) (word (g.pages.filter fun p => !p.started).length))
        { g with pages := g.pages.filter fun p => p.started }

/-- The statements above as one: CancelsComplete, QueriesAnswer, PageEntriesAreAdded, PageListsAreCleared. -/
def Obligations.TransfersAreManaged : Prop :=
  Claims.CancelsComplete ∧ Claims.QueriesAnswer ∧ Claims.PageEntriesAreAdded ∧ Claims.PageListsAreCleared

/-- 10 R213, R215, R217, R225, 06 R119, 09 R197, 18 R429: a chunk that starts is in flight with the slack that is left, the next starting 8
cycles later at the earliest. Once its packets are answered it moves its bytes and leaves the flight, a fault keeping the bytes before
it; until then it sends the packets that it lacks and nothing of it happens (the model's choice, log entry 28). A transfer without
chunks in flight that is through ends with its status word in its register; input and page fetches take an entry for fetches. An
address without memory faults (the model's own, log entry 51). -/
def Claims.TransfersProceed : Prop :=
  ∀ (s : State) (x : Xfer), x.slot < 16 →
    let k := s.cur.ev.tile
    let e := (s.tile k).eng
    (∀ g, (s.tile k).engRuns = true → e.chunkAt ≤ s.cyc → (e.xfers.map fun y => y.flight.length).sum < 32 → nextChunk 9 e = some (x, g) →
      s.copyOrdered k x = true → ((copyIsTs x.words 0 || copyIsTs x.words 2) && (s.tile k).keepCopy) = false →
      (x.started = 0 → s.withheld = false) → s.jobHeld k (some (1, x.key)) s.nextReq = false →
      let n := x.nextSize
      let h := { g with chunkAt := s.cyc + 8 }.modXfer x.key fun y =>
        { y with started := y.started + n, flight := y.flight ++ [(⟨x.started / 2048, x.started, n, x.slack - (s.gclk - x.issued)⟩ : Chunk)] }
      ∃ t, exec .copyChunkStart s = .next t ∧ OnlyEng s t k (if x.started + n = x.total then h.unqueue x.key else h)) ∧
    (∀ c, e.xfer s.cur.ev.id = some x → x.flight.find? (fun c => c.no == s.cur.ev.a) = some c → (s.tile k).engGoesOn = true →
      let a := x.actor k c (s.staleFor s.cur.ev.ok)
      let r := s.begin.copyRun (c.size + 1) a x c.pos c.size none
      let waits := r.1.stalled || s.jobOpen a
      (r.1.missing = none → waits = false → ∃ t, exec .copyChunkAck s = .next t ∧
        OnlyEng (r.1.endJob a) t k ((r.1.tile k).eng.chunkDone x.key c.no r.2)) ∧
      (r.1.missing = none → waits = true → ∃ t, exec .copyChunkAck s = .next t ∧ s.reqs <+: t.reqs ∧ OnlyAsked s t) ∧
      ∀ pa, r.1.missing = some pa → exec .copyChunkAck s = .fault (.noMemory pa)) ∧
    (∀ r, e.xfer s.cur.ev.id = some x → x.flight = [] → x.started = x.total ∨ x.good.isSome = true ∨ x.cancel = true → x.why = .cpgo →
      x.rd = some r → ∃ t, exec .copyTransferEnd s = .next t ∧
        OnlyCommand s t k x.slot
          ((s.strand k x.slot).land (.x r) (statusWord x.id (if x.cancel then 3 else if x.good.isSome then 2 else 0) 1 (x.good.getD x.started)))
          { e.unqueue x.key with xfers := e.xfers.filter fun y => y.key != x.key }) ∧
    (∀ i j task src w, (s.tile k).core.nextInput = some (i, j) → (s.tile k).core.deque[i]? = some task → task.ins[j]? = some (src, w) →
      (s.tile k).engRuns = true → e.fetchRoom = true → s.pointerCause src = none → 0 < fieldOf w 39 20 →
      copyExtentBad 0 (rawWords src (fieldOf w 18 0) (fieldOf w 39 20) (fieldOf task.flags 17 16)) = false →
      ∃ t y, exec .inputFetchStart s = .next t ∧ (t.tile k).eng.xfers = e.xfers ++ [y] ∧ y.id = e.txc ∧ y.why = .input ∧
        (t.tile k).eng.txc = (e.txc + 1) % 2 ^ 64 ∧ y.total = fieldOf w 39 20 ∧ y.priv = 0 ∧
        (t.tile k).core = (s.tile k).core.beginInput i j y.key none) ∧
    (∀ p, e.pages.find? (fun p => !p.started) = some p → (s.tile k).engRuns = true → e.fetchRoom = true → (s.tile k).core.nextInput = none →
      0 < p.len → p.len < 2 ^ 20 → copyExtentBad 0 (rawWords p.src p.dst p.len p.cls) = false →
      ∃ t y, exec .pageFetchStart s = .next t ∧ (t.tile k).eng.xfers = e.xfers ++ [y] ∧ y.why = .page ∧ y.total = p.len ∧
        (t.tile k).eng.pages = beginPage y.key false e.pages ∧ (t.tile k).core = (s.tile k).core)

/-- 10 R206, R208: a piece of an unscaled transfer within a tile's own TLM whose banks are awake puts the source's bytes at the destination's
offset, and every other byte of memory stays. -/
def Claims.PiecesAreCopied : Prop :=
  ∀ (s : State) (a : Actor) (x : Xfer) (pos n : Nat),
    let k := a.tile
    let src := (ptrLoc (x.word 0) : Int) + copyOffset x.words 0 pos
    let dst := (ptrLoc (x.word 2) : Int) + copyOffset x.words 2 pos
    let w := s.tile k
    x.why = .cpgo → copyTse x.words = 0 → ptrBlk (x.word 0) = 0 → ownTlm k (x.word 0) = true → ownTlm k (x.word 2) = true → 0 < n →
    0 ≤ src → src + n ≤ 0x80000 → 0x1000 ≤ dst → dst + n ≤ 0x80000 → w.bad = [] → Memory.wf w.tlm = true →
    w.asleep src.toNat n = false → w.asleep dst.toNat n = false → (∀ r ∈ s.reqs, r.stage ≠ .waiting) →
    w.undo.length + (w.newGranules (s.scratchFrom k) dst.toNat n).length ≤ 2048 →
    ∃ t, s.copyPiece a x pos n = (t, none) ∧ (∀ i, i < n → (t.tile k).byte (dst.toNat + i) = w.byte (src.toNat + i)) ∧
      MemoryBut s t k dst.toNat n ∧ { t with notes := s.notes }.sansTile k = s.sansTile k ∧ (t.tile k).eng = w.eng ∧ (a.slot = none → (t.tile k).core = w.core)

/-- The statements above as one: TransfersProceed, PiecesAreCopied. -/
def Obligations.CopiesProceed : Prop :=
  Claims.TransfersProceed ∧ Claims.PiecesAreCopied

/-! ### The matrix and vector engines (11, 12) -/

/-- 11 R228, R229, R241, R243: a matrix instruction waits while 16 commands are queued, traps at issue on its first failed check
(their order is the model's reading, log entry 24), and else queues its command with the operands captured, MCC as its id, and its register pending. -/
def Claims.MatrixCommandsQueue : Prop :=
  ∀ (s : State) (i : Instr) (check : Option (Nat × Word)) (c : Cmd), s.cur.slot < 16 → matrixOf s i = some (check, c) →
    let g := (s.tile s.cur.tile).eng
    (16 ≤ g.mq.length → exec i s = .next s.hold) ∧
    (g.mq.length < 16 → ∀ x v, check = some (x, v) → exec i s = .next (s.trapAtIssue x v)) ∧
    (g.mq.length < 16 → check = none → ∃ t, exec i s = .next t ∧ c.op = i ∧
      OnlyCommand s t s.cur.tile s.cur.slot (s.me.mark (.x c.rd))
        { g with mcc := (g.mcc + 1) % 2 ^ 64, mq := g.mq ++ [{ c with id := g.mcc }] })

/-- 12 R256, R258, R259, R263: a vector instruction waits while 16 commands are queued, traps at issue on its first failed check (their order is
the model's reading, log entry 24), ends at once with DONE where N = 0, and else queues its command with the operands captured, VCC as its id, and its register pending. -/
def Claims.VectorCommandsQueue : Prop :=
  ∀ (s : State) (i : Instr) (v : VecForm), s.cur.slot < 16 → vectorOf s i = some v →
    let g := (s.tile s.cur.tile).eng
    let w := s.rx v.rd
    let taken := { g with vcc := (g.vcc + 1) % 2 ^ 64 }
    (16 ≤ g.vcq.length → exec i s = .next s.hold) ∧
    (g.vcq.length < 16 → ∀ x p, v.fails s = some (x, p) → exec i s = .next (s.trapAtIssue x p)) ∧
    (g.vcq.length < 16 → v.fails s = none → vecN w = 0 → ∃ t, exec i s = .next t ∧
      OnlyCommand s t s.cur.tile s.cur.slot (s.me.land (.x v.rd) (statusWord g.vcc 0 3 0)) taken) ∧
    (g.vcq.length < 16 → v.fails s = none → vecN w ≠ 0 → ∃ t, exec i s = .next t ∧
      OnlyCommand s t s.cur.tile s.cur.slot (s.me.mark (.x v.rd))
        { taken with vcq := g.vcq ++ [
            { id := g.vcc, op := i, slot := s.cur.slot, rd := v.rd, a := v.a.1, aq := v.a.2, b := v.b.1, bq := v.b.2, c := v.c.1,
              cq := v.c.2, ctl := w, priv := s.priv, slack := (vget s.me.k (vecSc w).toNat 0xFFF).toNat, issued := s.gclk,
              mark := s.nextReq, fmark := s.me.fenced, started := false, status := none }] })

/-- The statements above as one: MatrixCommandsQueue, VectorCommandsQueue. -/
def Obligations.EngineCommandsQueue : Prop :=
  Claims.MatrixCommandsQueue ∧ Claims.VectorCommandsQueue

/-- 11 R228, R242, R248, R254, 14 R310, 18 R429: the head of the matrix queue starts in a cycle of the duty once what precedes it is performed
and no KEEP copy runs; a failed start check decides its status, which ends with the entry and lands in the register. A ROTB starts once its
successor's back is empty and no panel is on its way there, and sends its panel in packets of at most 5 flits; a panel that has arrived
whole fills the back unless an abort is in progress there. A command's bytes in memory wait for their packets: until those are answered it
only sends the packets that it lacks (the model's choice, log entry 28). -/
def Claims.MatrixCommandsEnd : Prop :=
  ∀ (s : State) (c : Cmd) (l : List Cmd), c.slot < 16 →
    let k := s.cur.ev.tile
    let w := s.tile k
    let g := w.eng
    let next := ringNext k (ringWidth g.mcfg)
    let slack := c.slack - (s.gclk - c.issued)
    let flits := (g.front.map fun p => ceilDiv (p.data.length + p.scales.length) 64).getD 1
    (g.mq = c :: l → c.started = false → w.engRuns = true → s.withheld = false →
      s.earlierDone k c.slot c.mark c.fmark c.matrixSpaces = true → w.keepCopy = false →
      (∀ code, w.matrixCheck c = some code → ∃ t, exec .matrixCommandStart s = .next t ∧
        OnlyEng s t k { g with mq := { c with started := true, status := some (statusWord c.id code 2 0) } :: l }) ∧
      (w.matrixCheck c = none → c.matrixKind ≠ .rotate → ∃ t, exec .matrixCommandStart s = .next t ∧
        (t.tile k).eng = { g with mq := { c with started := true, slack := slack } :: l } ∧ t.sansTile k = s.sansTile k ∧ SameMemory s t) ∧
      (w.matrixCheck c = none → c.matrixKind = .rotate → (s.tile next).eng.back = none → s.panelOnWay next = false →
        ∃ t r q, exec .matrixCommandStart s = .next t ∧ t.reqs = s.reqs ++ r :: q ∧ r.ttile = next ∧ r.slack = slack ∧ r.sv = false ∧
          (t.tile k).eng.mq = { c with started := true } :: l ∧
          (r.op = match g.front with
            | some p => .panel true p.fmt p.blk p.n p.k (ringWidth g.mcfg) p.data p.scales p.bad
            | none => .panel false 0 0 0 0 (ringWidth g.mcfg) [] [] []) ∧
          (flits ≤ 5 → q = []) ∧ ∀ x ∈ q, ∃ n, n ≤ 5 ∧ x.isCargo s k .panelPart 0xF9 s.nextReq n slack (.tile next)) ∧
      (w.matrixCheck c = none → c.matrixKind = .rotate → (s.tile next).eng.back ≠ none ∨ s.panelOnWay next = true →
        exec .matrixCommandStart s = .next s)) ∧
    (g.mq = c :: l → c.started = true → w.engGoesOn = true →
      (∀ v, c.status = some v → ∃ t, exec .matrixCommandComplete s = .next t ∧
        OnlyCommand s t k c.slot ((s.strand k c.slot).land (.x c.rd) v) { g with mq := l }) ∧
      (c.status = none → w.asleepAny (c.matrixRanges k) = false → ∀ u e, s.begin.runMatrix k (s.staleFor s.cur.ev.ok) c = some (u, e) →
        e.bad = false → u.missing = none → (u.stalled || s.jobOpen (c.actor 2 k [])) = true →
        ∃ t, exec .matrixCommandComplete s = .next t ∧ s.reqs <+: t.reqs ∧ OnlyAsked s t)) ∧
    (∀ r full fmt blk n m width data scales bad, s.req s.cur.ev.id = some r → r.op = .panel full fmt blk n m width data scales bad →
      r.stage = .target → s.landed r.id = true → r.xh = false → (s.cargoSlack r.id).2 = false →
      let u := (s.dropReq r.id).unload r.id
      (s.discards r.part (.tile r.ttile) = true → exec .rotbPanelArrival s = .next u) ∧
      (s.discards r.part (.tile r.ttile) = false → (s.tile r.ttile).eng.back = none → ∃ t, exec .rotbPanelArrival s = .next t ∧
        OnlyEng u t r.ttile
          { (s.tile r.ttile).eng with back := some ⟨if full then some ⟨fmt, blk, n, m, data, scales, bad⟩ else none, width⟩ })) ∧
    (w.keepCopy = true → ∃ t, exec .keepCopyComplete s = .next t ∧ OnlyTile s t k { w.copyKept with keepCopy := false })

/-- 12 R256, R263, R264, 06 R125, 18 R429: the head of the vector queue starts in a cycle of the duty once what precedes it is performed; a
failed check decides its status. It takes effect once the banks that it addresses are awake and the packets of its accesses are answered,
and until then only sends the packets that it lacks (the model's choice, log entry 28); then its status lands and its entry is released.
An address without memory faults (the model's own, log entry 51). -/
def Claims.VectorCommandsStart : Prop :=
  ∀ (s : State) (c : Cmd) (l : List Cmd), c.slot < 16 →
    let k := s.cur.ev.tile
    let w := s.tile k
    let g := w.eng
    (g.vcq = c :: l → c.started = false → w.engRuns = true → s.withheld = false →
      s.earlierDone k c.slot c.mark c.fmark c.vecSpaces = true →
      (∀ code, c.vecCheck = some code → ∃ t, exec .vectorCommandStart s = .next t ∧
        OnlyEng s t k { g with vcq := { c with started := true, status := some (statusWord c.id code 3 0) } :: l }) ∧
      (c.vecCheck = none → ∃ t, exec .vectorCommandStart s = .next t ∧
        (t.tile k).eng = { g with vcq := { c with started := true, slack := c.slack - (s.gclk - c.issued) } :: l } ∧
        t.sansTile k = s.sansTile k ∧ SameMemory s t)) ∧
    (g.vcq = c :: l → c.started = true → w.engGoesOn = true →
      (∀ v, c.status = some v → ∃ t, exec .vectorCommandComplete s = .next t ∧
        OnlyCommand s t k c.slot ((s.strand k c.slot).land (.x c.rd) v) { g with vcq := l }) ∧
      (c.status = none → w.asleepAny (c.vecOwn k) = true → exec .vectorCommandComplete s = .next s) ∧
      (c.status = none → w.asleepAny (c.vecOwn k) = false →
        let a := c.actor 3 k (s.staleFor s.cur.ev.ok)
        let r := s.begin.vecRun a c
        let waits := r.1.stalled || s.jobOpen a
        (r.1.missing = none → waits = false → ∃ t, exec .vectorCommandComplete s = .next t ∧
          OnlyCommand (r.1.endJob a) t k c.slot ((r.1.strand k c.slot).land (.x c.rd) (statusWord c.id r.2.code 3 r.2.count))
            { (r.1.tile k).eng with vcq := (r.1.tile k).eng.vcq.tail }) ∧
        (r.1.missing = none → waits = true → ∃ t, exec .vectorCommandComplete s = .next t ∧ s.reqs <+: t.reqs ∧ OnlyAsked s t) ∧
        ∀ pa, r.1.missing = some pa → exec .vectorCommandComplete s = .fault (.noMemory pa)))

/-- The statements above as one: MatrixCommandsEnd, VectorCommandsStart. -/
def Obligations.EngineCommandsEnd : Prop :=
  Claims.MatrixCommandsEnd ∧ Claims.VectorCommandsStart

/-- 11 R236, R247, R248, R250, R252: what the running matrix commands that multiply nothing compute, without uncorrectable data: MCFG replaces
the configuration and counts the old one; MZERO clears and MSCL scales the cells of its region; LATB takes the columns into the front; a
ROTB waits for its back and takes it as the front where the ring widths agree; MST writes cells of the tile store to the tile's own TLM
and MLDC reads them from there. -/
def Claims.MatrixCommandsCompute : Prop :=
  ∀ (s : State) (c : Cmd) (l : List Cmd), c.slot < 16 →
    let k := s.cur.ev.tile
    let w := s.tile k
    let g := w.eng
    let d := c.c
    let f := ptrFmt c.a
    let size := f.bits / 8
    let place (m n : Nat) : Nat := ptrLoc c.a + m * descA d + n * size
    let inside (row col : Nat) : Prop := descRow d ≤ row ∧ row < descRow d + descM d ∧ descCol d ≤ col ∧ col < descCol d + descN d
    let ends (t : State) (g : TileEng) (code count : Nat) : Prop := c.ends s t k { g with mq := l } code 2 count
    let quiet (t : State) : Prop := SameMemory s t ∧ t.sansTile k = (s.begin.endJob (c.actor 2 k [])).sansTile k
    let cells : Prop := w.tsBad = [] ∧ rising w.ts = true ∧ w.cellsOut d = false
    g.mq = c :: l → c.started = true → c.status = none → w.engGoesOn = true → w.asleepAny (c.matrixRanges k) = false →
    s.jobOpen (c.actor 2 k []) = false →
    (c.matrixKind = .config → ∃ t, exec .matrixCommandComplete s = .next t ∧ quiet t ∧
      ends t { g with mcfg := c.a } 0 (fieldOf g.mcfg 31 0)) ∧
    (cells → ∀ h : BitVec 32 → BitVec 32, (c.matrixKind = .clear ∧ h = fun _ => 0) ∨
        (∃ s32, c.matrixKind = .scale s32 ∧ h = fun v =>
          BitVec.ofNat 32 (roundFp32 ((if s32 then Num.ofInt v.toInt else Format.fp32.decode v.toNat).mul (fp32 c.a)))) →
      ∃ t, exec .matrixCommandComplete s = .next t ∧ quiet t ∧ ends t g 0 (descM d * descN d) ∧
        (∀ row col, inside row col → (t.tile k).cell row col = h (w.cell row col)) ∧
        ∀ row col, col < 128 → ¬inside row col → (t.tile k).cell row col = w.cell row col) ∧
    (c.matrixKind = .latch → w.bad = [] →
      let b := ptrFmt c.b
      let column := descK d * b.chunkBytes / 32
      ∃ t p, exec .matrixCommandComplete s = .next t ∧ quiet t ∧ ends t { g with front := some p } 0 (descN d * descK d * b.chunkBytes / 32) ∧
        p.fmt = b.code ∧ p.blk = ptrBlk c.b ∧ p.n = descN d ∧ p.k = descK d ∧ p.bad = [] ∧
        (∀ n i, n < descN d → i < column → p.data[n * column + i]? = some (w.byte (ptrLoc c.b + n * descB d + i))) ∧
        ∀ n i, ptrBlk c.b ≠ 0 → n < descN d → i < descK d / 32 → p.scales[n * (descK d / 32) + i]? =
          some (w.byte (ptrLoc c.bq + (n * descB d + i * b.chunkBytes) / b.chunkBytes))) ∧
    (c.matrixKind = .rotate → (g.back = none → exec .matrixCommandComplete s = .next s) ∧
      ∀ b, g.back = some b → ∃ t, exec .matrixCommandComplete s = .next t ∧ quiet t ∧
        if b.w = ringWidth g.mcfg then
          ends t { g with front := b.operand, back := none } 0 ((b.operand.map fun p => p.data.length).getD 0)
        else ends t { g with back := none } 5 0) ∧
    (cells → w.bad = [] → Memory.wf w.tlm = true → (∀ r ∈ s.reqs, r.stage ≠ .waiting) → ownTlm k c.a = true → w.matrixCheck c = none →
      (f = .fp32 ∨ f = .bf16 ∨ f = .fp16 ∨ f = .e4m3 ∨ f = .e5m2 ∨ f = .s32) →
      (∀ sat, c.matrixKind = .store sat → 0x1000 ≤ ptrLoc c.a → descM d = 1 ∨ descN d * size ≤ descA d →
        w.undo.length + (w.newGranules (s.scratchFrom k) (ptrLoc c.a) (place (descM d - 1) (descN d) - ptrLoc c.a)).length ≤ 2048 →
        ∃ t, exec .matrixCommandComplete s = .next t ∧ ends t g 0 (descM d * descN d) ∧
          (∀ m n i, m < descM d → n < descN d → i < size → some ((t.tile k).byte (place m n + i)) =
            (if f = .fp32 ∨ f = .s32 then toBytes 4 (w.cell (descRow d + m) (descCol d + n)).toNat
              else toBytes size (roundToFormat (Format.fp32.decode (w.cell (descRow d + m) (descCol d + n)).toNat) f .rn sat 0))[i]?) ∧
          (MemoryOutside s t k fun a => ∀ m, m < descM d → a < place m 0 ∨ place m (descN d) ≤ a) ∧
          ∀ row col, (t.tile k).cell row col = w.cell row col) ∧
      (c.matrixKind = .fill → ∃ t, exec .matrixCommandComplete s = .next t ∧ SameMemory s t ∧ ends t g 0 (descM d * descN d) ∧
        (∀ m n, m < descM d → n < descN d → (t.tile k).cell (descRow d + m) (descCol d + n) =
          let v := ofBytes (w.bytes (place m n) size)
          BitVec.ofNat 32 (if f = .fp32 ∨ f = .s32 then v else roundFp32 (f.decode v))) ∧
        ∀ row col, col < 128 → ¬inside row col → (t.tile k).cell row col = w.cell row col))

/-- 04 R86, 11 R244, R249: a running MMA or MMAL without uncorrectable data gives each cell of its region the chunk steps of its row of A with
its column of B, from the tile's TLM or from the latch front, scaled where the pointers say so, in ascending chunks, from -0 (0 for s8)
with .ovw and else from the old value; every other cell and every byte of memory stay; COUNT is M × N × K ÷ 32. -/
def Claims.MultipliesAccumulate : Prop :=
  ∀ (s : State) (c : Cmd) (l : List Cmd) (f : Format) (ovw : Bool), c.slot < 16 →
    let k := s.cur.ev.tile
    let w := s.tile k
    let d := c.c
    let elemB (p : Option Panel) (n j : Nat) : Machine.Num := match p with
      | none => w.elemAt c.b (n * strideElems (ptrFmt c.b) (descB d) + j)
      | some p => (Format.ofCode p.fmt).decode (elemBits (Format.ofCode p.fmt) p.data (n * p.k + j))
    let scaleB (p : Option Panel) (n i : Nat) : Byte := match p with
      | none => w.byte (ptrLoc c.bq + (n * descB d + i * (ptrFmt c.b).chunkBytes) / (ptrFmt c.b).chunkBytes)
      | some p => p.scales.getD (n * (p.k / 32) + i) 0
    let scaleA (m i : Nat) : Byte := w.byte (ptrLoc c.aq + (m * descA d + i * (ptrFmt c.a).chunkBytes) / (ptrFmt c.a).chunkBytes)
    let step (p : Option Panel) (m n : Nat) (v : BitVec 32) (i : Nat) : BitVec 32 :=
      chunkStep f (bitOf w.eng.mcfg 0) v ((List.range 32).map fun j =>
        (w.elemAt c.a (m * strideElems f (descA d) + 32 * i + j), elemB p n (32 * i + j)))
        (if ptrBlk c.a = 0 then none else some (scaleA m i, scaleB p n i))
    w.eng.mq = c :: l → c.started = true → c.status = none → w.engGoesOn = true → s.jobOpen (c.actor 2 k []) = false →
    w.asleepAny (c.matrixRanges k) = false → w.cellsOut d = false → w.bad = [] → w.tsBad = [] → rising w.ts = true →
    ∀ p : Option Panel, (p = none ∧ c.matrixKind = .mma f ovw) ∨
      (p = w.eng.front ∧ (∀ x, p = some x → x.bad = []) ∧ p ≠ none ∧ c.matrixKind = .mmal f ovw) →
    ∃ t, exec .matrixCommandComplete s = .next t ∧ SameMemory s t ∧ t.sansTile k = (s.begin.endJob (c.actor 2 k [])).sansTile k ∧
      c.ends s t k { w.eng with mq := l } 0 2 (descM d * descN d * (descK d / 32)) ∧
      (∀ m n, m < descM d → n < descN d → (t.tile k).cell (descRow d + m) (descCol d + n) =
        (List.range (descK d / 32)).foldl (step p m n)
          (if ovw then (if f = .s8 then 0 else 0x80000000) else w.cell (descRow d + m) (descCol d + n))) ∧
      ∀ row col, col < 128 → ¬(descRow d ≤ row ∧ row < descRow d + descM d ∧ descCol d ≤ col ∧ col < descCol d + descN d) →
        (t.tile k).cell row col = w.cell row col

/-- The statements above as one: MultipliesAccumulate, MatrixCommandsCompute. -/
def Obligations.MatrixEngineComputes : Prop :=
  Claims.MultipliesAccumulate ∧ Claims.MatrixCommandsCompute

/-- 12 R261, R262, R266-R274: what a running vector command computes over its own tile's TLM, its written ranges apart from the others and
nothing uncorrectable: a streaming command writes each active element of its result and leaves the others; VSUM, VDOT and VAMAX write
their reduction; VMXS the scale bytes of its blocks; VSORTK its keys in order, equal keys as they stood, and the permutation; VHIST adds
to its buckets; VSCAT writes by its table, the last of equal indexes standing. COUNT is N, and no other byte changes. -/
def Obligations.VectorCommandsCompute : Prop :=
  ∀ (s : State) (c : Cmd) (l : List Cmd), c.slot < 16 →
    let k := s.cur.ev.tile
    let w := s.tile k
    let n := vecN c.ctl
    let width := c.vecWidth
    let blk := 2 ^ (ptrBlk c.a + 2)
    let size (m bits : Nat) (p : Word) : Nat := (⟨p, 0, m, bits, true, true, false⟩ : VecExtent).bytes
    let ranges := c.vecRanges.map fun r => (ptrLoc r.1, (r.2.1 + 1).toNat)
    let ends (t : State) : Prop := c.ends s t k { w.eng with vcq := l } 0 3 n
    w.eng.vcq = c :: l → c.started = true → c.status = none → w.engGoesOn = true →
    s.jobOpen (c.actor 3 k (s.staleFor s.cur.ev.ok)) = false → s.vecAtHome k c →
    ((c.result s k 0).isSome = true → (∀ d a b x, c.op = .vgath d a b x → ∀ i ∈ c.lanes w, 0 ≤ c.index w i ∧
          let j := (c.index w i).toNat
          s.reachable k c.priv c.b false (bytesOf c.b (ptrFmt c.b).bits j) [(ptrLoc c.a, size n width c.a)] ∧
          (ptrBlk c.b ≠ 0 → s.reachable k c.priv c.bq false (ptrLoc c.bq + j / 2 ^ (ptrBlk c.b + 2), 1) [(ptrLoc c.a, size n width c.a)])) →
      ∃ t, exec .vectorCommandComplete s = .next t ∧ ends t ∧ MemoryBut s t k (ptrLoc c.a) (size n width c.a) ∧
        ∀ i, (t.tile k).bitsAt c.a width i = if i ∈ c.lanes w then (c.result s k i).getD 0 % 2 ^ width else w.bitsAt c.a width i) ∧
    (∀ v, c.reduced w = some v → ∃ t, exec .vectorCommandComplete s = .next t ∧ ends t ∧ MemoryBut s t k (ptrLoc c.a) (size 1 width c.a) ∧
        ∀ i, (t.tile k).bitsAt c.a width i = if i = 0 then c.encode s k 0 v % 2 ^ width else w.bitsAt c.a width i) ∧
    (∀ d a b, c.op = .vmxs d a b → ptrBlk c.a ≠ 0 → ∃ t, exec .vectorCommandComplete s = .next t ∧ ends t ∧
        MemoryBut s t k (ptrLoc c.aq) (ceilDiv n blk) ∧
        ∀ j, j < ceilDiv n blk → (t.tile k).byte (ptrLoc c.aq + j) =
          scaleOf (ptrFmt c.a) (amaxOf (((c.lanes w).filter fun i => i / blk = j).map (w.numAt c.b c.bq)))) ∧
    (∀ d a b x, c.op = .vsortk d a b x → vecMsk c.ctl = false → ptrFmt c.a = ptrFmt c.b → (ptrFmt c.b).bits % 8 = 0 → (x ≠ none → ptrFmt c.c = .z32) →
      let key (i : Nat) : Machine.Num := (ptrFmt c.b).decode (w.bitsAt c.b width i)
      ∃ (t : State) (order : List Nat), exec .vectorCommandComplete s = .next t ∧ ends t ∧ order.Perm (List.range n) ∧
        (∀ j i, order[j]? = some i → (t.tile k).bitsAt c.a width j = w.bitsAt c.b width i ∧
          (x ≠ none → (t.tile k).bitsAt c.c 32 j = i)) ∧
        (order.Pairwise fun i j => keyBefore (key j) (key i) = false ∧ (keyBefore (key i) (key j) = false → i < j)) ∧
        MemoryOutside s t k fun a => (a < ptrLoc c.a ∨ ptrLoc c.a + size n width c.a ≤ a) ∧
          (x = none ∨ a < ptrLoc c.c ∨ ptrLoc c.c + size n 32 c.c ≤ a)) ∧
    (∀ d a b x clr, c.op = .vhist d a b x clr → ∃ t, exec .vectorCommandComplete s = .next t ∧ ends t ∧
        MemoryBut s t k (ptrLoc c.a) (size (histSize c.c) width c.a) ∧
        ∀ b, b < histSize c.c → (t.tile k).bitsAt c.a width b =
          ((if clr then 0 else w.bitsAt c.a width b) + ((c.lanes w).filter fun i =>
            (w.numAt c.b c.bq i).int?.getD (-1) / 2 ^ fieldOf c.c 5 0 == (b : Int)).length) % 2 ^ width) ∧
    (∀ d a b x, c.op = .vscat d a b x → ptrBlk c.c = 0 → w.undo.length + 2 * n ≤ 2048 →
      (∀ i ∈ c.lanes w, 0 ≤ c.index w i ∧ s.reachable k c.priv c.a true (bytesOf c.a width (c.index w i).toNat) ranges) →
      ∃ t, exec .vectorCommandComplete s = .next t ∧ ends t ∧
        (∀ j, (t.tile k).bitsAt c.a width j = match ((c.lanes w).filter fun i => c.index w i = j).getLast? with
          | some i => c.encode s k (word j) (w.numAt c.b c.bq i) % 2 ^ width
          | none => w.bitsAt c.a width j) ∧
        MemoryOutside s t k fun a => ∀ i ∈ c.lanes w, a < (bytesOf c.a width (c.index w i).toNat).1 ∨
          (bytesOf c.a width (c.index w i).toNat).1 + (bytesOf c.a width (c.index w i).toNat).2 ≤ a)

/-! ### Messages, tree and triggers (15) -/

/-- 15 R333, R335: SEND and SENDL trap at issue on the first failed check; within the partition they post one request with the 64-byte
entry and count it, or wait for room; to another partition they hold the entry with the tile until the commit. They write no register. R333's
order of the checks against 17 R465's is the model's choice (log entry 76). -/
def Claims.MessagesLeave : Prop :=
  ∀ (s : State) (i : Instr) (dest payload ctl : Word) (slack : Nat), s.cur.slot < 16 →
    (∃ a b c q, i = .send a b c q ∧ dest = s.rx a ∧ payload = s.rx b ∧ ctl = s.rx c ∧ slack = (vget s.me.k q.toNat 0xFFF).toNat) ∨
      (∃ d a b g, i = .sendl d a b g ∧ dest = s.rx a ∧ payload = s.rx b ∧ ctl = s.rx d ∧ slack = g.toNat) →
    let k := s.cur.tile
    let w := s.tile k
    let len := fieldOf ctl 21 16
    let here := fieldOf dest 11 0 = 0xFFF
    let body := w.bytes (ptrLoc payload) len
    let entry := toBytes 8 (fieldOf ctl 15 0 * 2 ^ 48 + len * 2 ^ 42 + s.devId * 2 ^ 28 + k * 2 ^ 16 + s.cur.slot * 2 ^ 12 +
      (if s.sendsInside k dest then 0 else 2) + 1) ++ body ++ List.replicate (56 - len) 0
    let check := s.sendCause k s.priv dest payload ctl
    (∀ c v, check = some (c, v) → exec i s = .next (s.trapAtIssue c v)) ∧
    (check = none → s.sendsInside k dest = true → ∃ r : Req, r.id = s.nextReq ∧ r.op = .message entry ∧ r.tile = k ∧
      r.slot = s.cur.slot ∧ r.slack = slack ∧ r.posted = true ∧ r.dests = [] ∧ r.ptr = dest ∧
      r.stage = (if r.dev = s.devId ∧ r.ttile = k then .target else .port) ∧
      r.dev = (if here then s.devId else fieldOf dest 25 12) ∧ r.ttile = (if here then k else fieldOf dest 11 0) ∧
      (s.roomFor r = false → exec i s = .next s.hold) ∧
      (s.roomFor r = true → (len = 0 ∨ badRange w.bad (ptrLoc payload) len = false) → ∃ t, exec i s = .next t ∧
        t.reqs = s.reqs ++ [r] ∧ (t.tile k).core.sent = w.core.sent + 1 ∧ t.me = { s.me with banks := t.me.banks, readyAt := t.me.readyAt } ∧
        (len = 0 ∨ w.asleep (ptrLoc payload) len = false → t.me.readyAt = s.me.readyAt) ∧
        (∀ j, j ≠ s.cur.slot → t.strand k j = s.strand k j) ∧ (t.tile k).eng = w.eng ∧ SameMemory s t)) ∧
    (check = none → s.sendsInside k dest = false → (len = 0 ∨ badRange w.bad (ptrLoc payload) len = false) → ∃ t, exec i s = .next t ∧
      t.reqs = s.reqs ∧ (t.tile k).eng = { w.eng with held := w.eng.held ++ [⟨dest, entry, 0, false⟩] } ∧
      t.me = { s.me with banks := t.me.banks, readyAt := t.me.readyAt } ∧
      (len = 0 ∨ w.asleep (ptrLoc payload) len = false → t.me.readyAt = s.me.readyAt) ∧
      (∀ j, j ≠ s.cur.slot → t.strand k j = s.strand k j) ∧ SameMemory s t)

/-- 15 R331, R334, R335, R337, 06 R124, 09 R197: a message is accepted at the end of its target's inbox and counted, or waits at the port while
the inbox is full, which wakes slot 15 where the heap is present with room and slot 15 is not live; one that waited is accepted when there
is room; one that the port's window knows is answered alone. A committed message to another partition on the device leaves as a packet
with what is left of 4,095 grains for a tile with room, and one whose partition is in no directory entry leaves for nothing. A message
that is not at a tile of its partition goes on to it, or into the save area where the partition is not resident. -/
def Claims.MessagesArrive : Prop :=
  ∀ (s : State) (r : Req) (l : List Byte), r.op = .message l → r.sdev = s.devId →
    let j := r.ttile
    let w := s.tile j
    let sent (t : State) : State := { s with reqs := t.reqs, xcnt := t.xcnt, windows := t.windows }
    let answered (t : State) (a : Reply) : Prop := ∃ q, t.req r.id = some q ∧ q.stage = .reply ∧ q.reply = a
    let accepted (t : State) : Prop := answered t .none ∧ t.sansTile j = (sent t).sansTile j ∧
      { t.tile j with inAfter := w.inAfter, xpIn := w.xpIn, port := w.port } =
        { w with core := { w.core with inbox := w.core.inbox ++ [l], accepted := w.core.accepted + 1 } }
    (s.req s.cur.ev.id = some r → r.stage = .target → s.messageBehind r = false →
      (∀ v, s.windowEntry r = some v → v.reply ≠ .discard → ∃ t, exec .messageArrival s = .next t ∧ answered t v.reply ∧
        (t.tile j).core = w.core) ∧
      (s.windowEntry r = none → s.stray r = false → s.tileRefusal r = none → s.savedWait j = false →
        let heap := w.heapHere = true ∧ w.heapCount < w.heapCap
        let waits (t : State) : Prop := t.reqs = s.reqs.filter (fun q => q.id != r.id) ++
          [{ (s.depart r).2 with stage := .waiting, granted := s.gclk, moving := false, stamp := s.gclk }]
        (w.core.inbox.length < 64 → ∃ t, exec .messageArrival s = .next t ∧ accepted t ∧ (t.tile j).port = w.port) ∧
        (64 ≤ w.core.inbox.length → (s.strand j 15).st = .live ∨ ¬heap → ∃ t, exec .messageArrival s = .next t ∧ waits t ∧
          OnlyTile s { t with reqs := s.reqs, xcnt := s.xcnt } j { w with port := w.port ++ [r.id] }) ∧
        (64 ≤ w.core.inbox.length → (s.strand j 15).st ≠ .live → heap → ∃ t, exec .messageArrival s = .next t ∧ waits t ∧
          (t.tile j).port = w.port ++ [r.id] ∧ t.strand j 15 = overflowStrand w (s.ktabOf j) 1 0x108 64 ∧
          (t.tile j).hwake = w.hwake + 1 ∧ (∀ n, n < 15 → t.strand j n = s.strand j n) ∧ t.sansTile j = (sent t).sansTile j)) ∧
      (s.windowEntry r = none → s.stray r = true → ∀ d, s.dirOf (fieldOf r.ptr 63 48) = some d →
        let rank := fieldOf r.ptr 25 0 % (d.pw * d.ph)
        let part := fieldOf r.ptr 63 48
        ((s.part part).valid = true → ∃ t q, exec .messageArrival s = .next t ∧ q ∈ t.reqs ∧ q.id = r.id ∧ q.stage = .wire ∧
          q.ttile = d.tileOf rank ∧ t.tiles = s.tiles) ∧
        ((s.part part).valid = false → (s.savedFor part rank).length < 4096 → ∃ t, exec .messageArrival s = .next t ∧ answered t .none ∧
          t.savedFor part rank = s.savedFor part rank ++ [l] ∧ t.tiles = s.tiles))) ∧
    (s.req s.cur.ev.id = some r → r.stage = .waiting → s.messageBehind r = false → s.stray r = false → s.tileRefusal r = none →
      s.savedWait j = false → w.core.inbox.length < 64 → ∃ t, exec .messageAccept s = .next t ∧ accepted t ∧
        (t.tile j).port = w.port.filter fun i => i != r.id) ∧
    (∀ m, let k := s.cur.ev.tile
      let part := fieldOf m.dest 63 48
      let leaves (t : State) : Prop := (t.tile k).outgoing = (s.tile k).outgoing.eraseIdx s.cur.ev.a ∧
        (t.tile k).core.sent = (s.tile k).core.sent + 1 ∧ SameMemory s t
      (s.tile k).outgoing[s.cur.ev.a]? = some m → (s.tile k).decided = false → (s.tile k).lost = false →
      (∀ q ∈ (s.tile k).outgoing.take s.cur.ev.a, q.dest ≠ m.dest) →
      (s.dirOf part = none → ∃ t, exec .heldMessageSend s = .next t ∧ leaves t ∧ t.reqs = s.reqs) ∧
      ∀ d, s.dirOf part = some d → fieldOf m.dest 25 0 / (d.pw * d.ph) = d.di → (s.part part).valid = true →
        let there := d.tileOf (fieldOf m.dest 25 0 % (d.pw * d.ph))
        (s.tile there).lost = false → (s.tile there).core.inbox.length < 64 → s.savedWait there = false →
        s.outstanding k < 256 → s.toTarget k (s.targetOf (s.heldReq k m s.devId there)) < 1024 →
        ∃ t q, exec .heldMessageSend s = .next t ∧ leaves t ∧ t.reqs = s.reqs ++ [q] ∧ q.op = .message m.entry ∧ q.tile = k ∧ q.sv = false ∧
          q.ttile = there ∧ q.dev = s.devId ∧ q.ptr = m.dest ∧ q.slack = 4095 - (s.gclk - m.since))

/-- 15 R336-R338: RECV and RECV.nb whose checks pass take the oldest message that is available: its 64 bytes stand at xa, its header in
the register, and it has left the inbox, or the heap, whose HHEAD and HCNT move. Without one RECV sleeps at its bundle and RECV.nb answers 0. INPEEK answers the counts or the
header and takes nothing. -/
def Claims.MessagesAreTaken : Prop :=
  ∀ (s : State) (xd xa xb : Reg), s.cur.slot < 16 →
    let k := s.cur.tile
    let w := s.tile k
    let loc := ptrLoc (s.rx xa)
    let raw := bitOf (s.rx xb) 0
    let check := s.recvCause (s.rx xa) raw
    (∀ i, i = .recv xd xa xb ∨ i = .recvNb xd xa xb →
      (check = some (0x160, true) → exec i s = .next (s.trapAtIssue 0x160 0)) ∧
      (check = some (0x04A, true) → exec i s = .next (s.trapAtIssue 0x04A (s.rx xa))) ∧
      (∀ c, check = some (c, false) → c ≠ 0x160 → (raw = true → s.priv ≠ 0) → exec i s = .next (s.trapAfter c (s.rx xa))) ∧
      (∀ l, check = none → w.available raw = some (.inbox l) → l.length = 64 → Memory.wf w.tlm = true → badRange w.bad loc 64 = false →
        w.undo.length + (w.newGranules (s.scratchFrom k) loc 64).length ≤ 2048 → ∃ t, exec i s = .next t ∧
          (∀ n, n < 64 → (t.tile k).byte (loc + n) = l.getD n 0) ∧ MemoryBut s t k loc 64 ∧
          t.me.xv xd = word (ofBytes (l.take 8)) ∧ t.me.pending (.x xd) = false ∧ (∀ r, r ≠ xd → t.me.xv r = s.me.xv r) ∧
          (∀ p, t.me.pv p = s.me.pv p) ∧ t.me.sleep = s.me.sleep ∧ t.me.pc = s.me.pc ∧
          (t.tile k).core.inbox = w.core.inbox.tail ∧ (∀ j, j ≠ s.cur.slot → t.strand k j = s.strand k j) ∧
          (t.tile k).eng = w.eng ∧ t.sansTile k = s.sansTile k) ∧
      (∀ l, check = none → w.available raw = some (.heap l) → badRange w.bad w.heapOldest 64 = false → badRange w.bad loc 64 = false →
        badRange w.bad 0xC10 10 = false → Memory.wf w.tlm = true →
        w.undo.length + (w.newGranules (s.scratchFrom k) 0xC10 10).length + (w.newGranules (s.scratchFrom k) loc 64).length ≤ 2048 →
        ∃ t, exec i s = .next t ∧ l = w.bytes w.heapOldest 64 ∧ (∀ n, n < 64 → (t.tile k).byte (loc + n) = l.getD n 0) ∧
          (loc ≠ 0xC00 → (t.tile k).heapHead = (w.heapHead + 1) % w.heapCap ∧ (t.tile k).heapCount = w.heapCount - 1) ∧
          (MemoryOutside s t k fun a => (a < loc ∨ loc + 64 ≤ a) ∧ (a < 0xC10 ∨ 0xC12 ≤ a) ∧ (a < 0xC18 ∨ 0xC1A ≤ a)) ∧
          t.me.xv xd = word (ofBytes (l.take 8)) ∧ t.me.pending (.x xd) = false ∧ (∀ r, r ≠ xd → t.me.xv r = s.me.xv r) ∧
          (∀ p, t.me.pv p = s.me.pv p) ∧ (t.tile k).core.inbox = w.core.inbox ∧ (∀ j, j ≠ s.cur.slot → t.strand k j = s.strand k j) ∧
          (t.tile k).eng = w.eng ∧ t.sansTile k = s.sansTile k)) ∧
    (check = none → w.available raw = none →
      (∃ t, exec (.recv xd xa xb) s = .next t ∧ OnlyMe s t { s.me.mark (.x xd) with sleep := .recv xd loc (s.rx xb), pc := s.cur.pc }) ∧
      ∃ t, exec (.recvNb xd xa xb) s = .next t ∧ OnlyMe s t (s.me.land (.x xd) 0)) ∧
    ∃ t v, exec (.inpeek xd xa) s = .next t ∧ OnlyMe s t (s.me.land (.x xd) v) ∧
      (bitOf (s.rx xa) 0 = true → v = word (w.core.inbox.length + w.heapHeld * 2 ^ 16 + if (s.strand k 15).st = .live then 2 ^ 63 else 0)) ∧
      (bitOf (s.rx xa) 0 = false → w.available false = none → v = 0) ∧
      (∀ l, bitOf (s.rx xa) 0 = false → w.available false = some (.inbox l) → v = word (ofBytes (l.take 8)))

/-- The statements above as one: MessagesLeave, MessagesArrive, MessagesAreTaken. -/
def Obligations.Messages : Prop :=
  Claims.MessagesLeave ∧ Claims.MessagesArrive ∧ Claims.MessagesAreTaken

/-- 15 R340, R342, R343: TGRP stages a descriptor and answers the one before it, or a sign that it is reserved; TCON and TCON.v post one
contribution to the tile's next round of the group, or trap on the first failed check; TGET takes the oldest result of its group, a
vector's 64 bytes to xb, or sleeps at its bundle; 17 R465: 0x04A precedes its other checks where the group's descriptor here has VEC; the other
checks come in the order in which the rule lists them (the model's reading, log entry 24). -/
def Claims.TreeGroupsAreUsed : Prop :=
  ∀ (s : State) (xa xb xd : Reg) (q : SlackReg), s.cur.slot < 16 →
    let k := s.cur.tile
    let w := s.tile k
    let a := s.rx xa
    let g := a.toNat % 64
    let op := fieldOf a 11 8
    let reserved := fieldOf a 63 14 ≠ 0 ∨ fieldOf a 7 6 ≠ 0 ∨ 9 < op ∨ (op = 9 ∧ bitOf a 12 = false)
    let n := (assoc w.core.rounds g).getD 0
    (reserved → ∃ t, exec (.tgrp xd xa) s = .next t ∧ OnlyMe s t (s.me.land (.x xd) 0x8000000000000000)) ∧
    (¬reserved → ∃ t, exec (.tgrp xd xa) s = .next t ∧ (t.tile k).core.gstaged = assocPut w.core.gstaged g a ∧
      (t.tile k).core.groups = w.core.groups ∧
      t.me = s.me.land (.x xd) (match assoc w.core.gstaged g, assoc w.core.groups g with
        | some v, _ => v
        | none, some v => v
        | none, none => 0) ∧ (t.tile k).eng = w.eng ∧ t.sansTile k = s.sansTile k ∧ SameMemory s t) ∧
    (∀ i vec, (i = .tcon xa xb q ∧ vec = false) ∨ (i = .tconV xa xb q ∧ vec = true) →
      let check := s.tconCause k s.priv a (s.rx xb) vec
      (∀ c v, check = some (c, v, true) → exec i s = .next (s.trapAtIssue c v)) ∧
      (∀ c v, check = some (c, v, false) → exec i s = .next (s.trapAfter c v)) ∧
      (check = none → (vec = true → badRange w.bad (ptrLoc (s.rx xb)) 64 = false) →
        (∀ r : Req, r.tile = k → r.slot = s.cur.slot → r.space = 1 → r.dev = s.devId → r.ttile = k → s.roomFor r = true) →
        ∃ t r, exec i s = .next t ∧ t.reqs = s.reqs ++ [r] ∧ r.id = s.nextReq ∧ r.tile = k ∧ r.slot = s.cur.slot ∧
          r.op = .contribute g n (if vec then w.bytes (ptrLoc (s.rx xb)) 64 else toBytes 8 (s.rx xb).toNat) ∧
          r.slack = (vget s.me.k q.toNat 0xFFF).toNat ∧ (t.tile k).core.rounds = assocPut w.core.rounds g (n + 1) ∧
          t.me = { s.me with banks := t.me.banks, readyAt := t.me.readyAt } ∧
          (vec = false ∨ w.asleep (ptrLoc (s.rx xb)) 64 = false → t.me.readyAt = s.me.readyAt) ∧
          (∀ j, j ≠ s.cur.slot → t.strand k j = s.strand k j) ∧ (t.tile k).eng = w.eng ∧ SameMemory s t)) ∧
    (let check := s.ownCause k s.priv (s.rx xb) 64 64 true
    let stray := bitOf ((assoc w.core.groups g).getD 0) 12 = true ∧ check = some 0x04A
    (stray → exec (.tget xd xa xb) s = .next (s.trapAtIssue 0x04A (s.rx xb))) ∧
    (¬stray → s.activeGroup k g = none → exec (.tget xd xa xb) s = .next (s.trapAtIssue 0x121 a)) ∧
    (∀ d c, ¬stray → s.activeGroup k g = some d → bitOf d 12 = true → check = some c → exec (.tget xd xa xb) s = .next (s.trapAfter c (s.rx xb))) ∧
    (∀ d, s.activeGroup k g = some d → (bitOf d 12 = true → check = none) →
      (w.core.resultOf g = none → ∃ t, exec (.tget xd xa xb) s = .next t ∧
        OnlyMe s t { s.me.mark (.x xd) with sleep := .tget xd (word g) (s.rx xb), pc := s.cur.pc }) ∧
      (∀ r, w.core.resultOf g = some r → r.bytes.length = 8 → ∃ t, exec (.tget xd xa xb) s = .next t ∧
        OnlyCore s t k ({ w.core with results := w.core.results.erase r }.modStrand s.cur.slot
          fun st => st.land (.x xd) (word (ofBytes r.bytes)))) ∧
      (∀ r, bitOf d 12 = true → w.core.resultOf g = some r → r.bytes.length = 64 → badRange w.bad (ptrLoc (s.rx xb)) 64 = false →
        Memory.wf w.tlm = true → w.undo.length + (w.newGranules (s.scratchFrom k) (ptrLoc (s.rx xb)) 64).length ≤ 2048 →
        ∃ t, exec (.tget xd xa xb) s = .next t ∧ (∀ i, i < 64 → (t.tile k).byte (ptrLoc (s.rx xb) + i) = r.bytes.getD i 0) ∧
          MemoryBut s t k (ptrLoc (s.rx xb)) 64 ∧ t.me.xv xd = word (r.round * 2 ^ 32 + g) ∧ t.me.pending (.x xd) = false ∧
          (∀ j, j ≠ xd → t.me.xv j = s.me.xv j) ∧ (∀ p, t.me.pv p = s.me.pv p) ∧ (t.tile k).core.results = w.core.results.erase r ∧
          (∀ j, j ≠ s.cur.slot → t.strand k j = s.strand k j) ∧ (t.tile k).eng = w.eng ∧ t.sansTile k = s.sansTile k)))

/-- 15 R341-R343, 14 R317: a contribution that a tile's node accepts joins the open round of its group and number and goes on to the device
root in a packet with the slack that it has left. At the partition root the result of a round whose contributions have all come is their
combination, in a sum group their sum; it goes down to each member with their least slack; a device root below passes contributions on to
its parent (their payload's form is the model's choice, log entry 52). A result that has come enters its member's queue in round order when
that has room. -/
def Claims.RoundsComplete : Prop :=
  ∀ (s : State) (r : Req) (g n : Nat) (b : List Byte),
    let e := s.cur.ev
    let p := s.part r.part
    let mine := (s.rank r.tile, b)
    let left := r.slack - (s.gclk - r.stamp)
    let code := if b.length = 64 then 0x86 else 0x85
    let accepted (t : State) (job : Nat) : Prop := ∃ q x, t.req r.id = some q ∧ q.stage = .reply ∧ q.reply = .none ∧ x ∈ t.reqs ∧
      x.isCargo s r.tile .result code (groupJob 1 (s.rank r.tile) job) (ceilDiv (b.length + 8) 64) left (.router p.corner)
    (s.req e.id = some r → r.op = .contribute g n b → r.stage = .target → s.discards r.part (.tile r.ttile) = false →
      b.length = 8 ∨ b.length = 64 → r.id < s.nextReq → ∃ t, exec .treeContributionCombine s = .next t ∧ SameMemory s t ∧
        t.part r.part = { p with rounds := (t.part r.part).rounds } ∧
        (p.openRound g n = none → (t.part r.part).rounds = p.rounds ++ [⟨s.nextReq, g, n, [mine], 4095, false, [], none, [], none⟩] ∧
          accepted t s.nextReq) ∧
        ∀ v, p.openRound g n = some v → accepted t v.job ∧ (t.part r.part).rounds =
          updateWhere p.rounds (fun v => v.isOpen g n) fun v => { v with parts := v.parts ++ [mine] }) ∧
    (∀ v, let p := s.part e.part
      let c := s.roundSlack v
      p.openRound e.a e.b = some v → p.bar.commit ≠ some false →
      (p.isRoot = true → (∀ j ∈ s.members p e.a, ∃ q ∈ v.parts, q.1 = s.rank j) → (∀ q ∈ v.parts, s.landed (groupJob 1 q.1 v.job) = true) →
        (v.parts.filter fun q => q.1 / 4096 != s.devId).length = fieldAt p.others (4 * e.a) 4 →
        ∀ k l d, s.members p e.a = k :: l → assoc (s.groupsOf p k) e.a = some d →
          let out := combineRound (groupOp d) (groupVec d) (v.parts.map (·.2))
          ∃ t, exec .treeRoundComplete s = .next t ∧ t.tiles = s.tiles ∧ t.hbm = s.hbm ∧
            (t.part e.part).rounds = updateWhere p.rounds (fun q => q.job == v.job) (fun q => { q with result := some out, slack := c.1, spent := c.2 }) ∧
            ∀ q ∈ v.parts, q.1 / 4096 = s.devId → ∃ x ∈ t.reqs, x.slack = c.1 ∧ x.place = .router p.corner ∧
              x.op = .cargo .result (if out.length = 64 then 0x86 else 0x85) (groupJob 2 q.1 v.job) (ceilDiv (out.length + 8) 64) (.tile (q.1 % 4096))) ∧
      (p.isRoot = false → ∃ t, exec .treeRoundComplete s = .next t ∧ t.tiles = s.tiles ∧ t.hbm = s.hbm ∧
        ∀ q ∈ v.parts, q.1 / 4096 = s.devId → v.relayed.contains q.1 = false → s.landed (groupJob 1 q.1 v.job) = true →
          ∃ x ∈ t.reqs, ∃ hdr l, x.op = .transit hdr l ∧ x.dev = p.tree.parent % 2 ^ 14 ∧ x.place = .router p.corner)) ∧
    (∀ l : List Word, combineRound 0 false (l.map fun w => toBytes 8 w.toNat) = toBytes 8 (l.foldl (· + ·) 0).toNat) ∧
    (∀ v id, s.partOf e.tile = some id → (s.part id).owed e.a (s.rank e.tile) = some v → (s.tile e.tile).core.results.length < 16 →
      (s.tile e.tile).decided = false → (s.tile e.tile).lost = false → s.landed (groupJob 2 (s.rank e.tile) v.job) = true →
      ∃ t, exec .treeResultDelivery s = .next t ∧
        (t.tile e.tile).core = { (s.tile e.tile).core with
          results := (s.tile e.tile).core.results ++ [⟨v.group, v.round % 2 ^ 32, v.result.getD []⟩] } ∧
        (∀ j, j ≠ id → t.part j = s.part j) ∧ SameMemory s t)

/-- The statements above as one: TreeGroupsAreUsed, RoundsComplete. -/
def Obligations.TreeGroups : Prop :=
  Claims.TreeGroupsAreUsed ∧ Claims.RoundsComplete

/-- 15 R345, R346, R349: TOKEN and TCNT post one request or trap on an address that fails; TARM and TCLR set and clear a cell; a token sets its
bit of GOT or counts a duplicate, an increment saturates its counter. -/
def Claims.TriggersAreSet : Prop :=
  ∀ (s : State) (xa xb : Reg) (q : SlackReg), s.cur.slot < 16 →
    let k := s.cur.tile
    let c := (s.tile k).core
    let a := s.rx xa
    let b := s.rx xb
    let n := a.toNat % 16
    let there := if fieldOf a 11 0 = 0xFFF then k else fieldOf a 11 0
    (∀ i op check, (i = .token xa q ∧ op = .token (fieldOf a 29 26) (fieldOf a 31 30) ∧ check = s.tokenCause k a) ∨
        (i = .tcnt xa xb q ∧ op = .count (fieldOf a 29 26) (fieldOf b 31 0) ∧ check = s.counterCause k a) →
      (∀ x, check = some x → exec i s = .next (s.trapAtIssue x 0)) ∧
      (check = none → ∃ r : Req, r.op = op ∧ r.id = s.nextReq ∧ r.tile = k ∧ r.slot = s.cur.slot ∧ r.ttile = there ∧ r.posted = true ∧
        r.slack = (vget s.me.k q.toNat 0xFFF).toNat ∧ (s.roomFor r = false → exec i s = .next s.hold) ∧
        (s.roomFor r = true → ∃ t, exec i s = .next t ∧ OnlyRequest s t r s.me))) ∧
    (let bad := fieldOf b 39 37 ≠ 0 ∨ fieldOf b 63 45 ≠ 0 ∨ (fieldOf b 35 32 = 0 ∧ bitOf b 36 = false);
      let cell : Cell := ⟨true, fieldOf b 35 32, (vget c.cells n Cell.reset).got, bitOf b 36, fieldOf b 43 40, fieldOf b 31 0,
        fieldOf b 31 0, bitOf b 44⟩;
      (bad → exec (.tarm xa xb) s = .next (s.trapAtIssue 0x124 b)) ∧
      (¬bad → ∃ t, exec (.tarm xa xb) s = .next t ∧ OnlyCore s t k { c with cells := vset c.cells n cell })) ∧
    (let bad := fieldOf a 63 9 ≠ 0 ∨ fieldOf a 7 4 ≠ 0;
      (bad → exec (.tclr xa) s = .next (s.trapAtIssue 0x124 a)) ∧
      (¬bad → ∃ t, exec (.tclr xa) s = .next t ∧ OnlyCore s t k { c with
        cells := vset c.cells n { vget c.cells n Cell.reset with armed := false, got := 0 }
        cnts := if bitOf a 8 then vset c.cnts n 0 else c.cnts })) ∧
    (∀ r, s.req s.cur.ev.id = some r → r.stage = .target → s.tileRefusal r = none → s.windowEntry r = none →
      let w := s.tile r.ttile
      let answered (t : State) : Prop := ∃ q, t.req r.id = some q ∧ q.stage = .reply ∧ q.reply = .none
      (∀ m i, r.op = .token m i →
        let cell := vget w.core.cells m Cell.reset
        ∃ t, exec .tokenArrival s = .next t ∧ answered t ∧ OnlyTile s { t with reqs := s.reqs, xcnt := s.xcnt, windows := s.windows } r.ttile
          (if bitOf (word cell.got) i then { w with tdup := (w.tdup + 1) % 2 ^ 64 }
          else { w with core := { w.core with cells := vset w.core.cells m { cell with got := cell.got ||| 2 ^ i } } })) ∧
      ∀ m v, r.op = .count m v → ∃ t, exec .counterArrival s = .next t ∧ answered t ∧
        OnlyTile s { t with reqs := s.reqs, xcnt := s.xcnt, windows := s.windows } r.ttile
          { w with core := { w.core with cnts := vset w.core.cnts m (min (vget w.core.cnts m 0 + v) 0xFFFFFFFF) } })

/-- 15 R347, R348: TRIGGER_FIRE fires the due cell with the least key, ties to the lower index, at most one in a cycle, once there is room for
its command: an armed cell is due with all tokens that it expects, key 0, or with its counter at its threshold. It disarms or rearms. An
empty command slot changes nothing else; a COPY is queued at user privilege with its slack, a SEND posts or holds its message, a TCON posts
its contribution and TOKENS post their tokens; a slot that breaks its layout, cannot be read, or fails a check counts in TFLT and does
nothing. -/
def Claims.TriggersFire : Prop :=
  ∀ (s : State) (n : Nat),
    let k := s.cur.ev.tile
    let w := s.tile k
    let c := w.core
    let cell := vget c.cells n Cell.reset
    let due (i key : Nat) : Prop := let q := vget c.cells i Cell.reset
      q.armed = true ∧ ((q.exp ≠ 0 ∧ q.exp &&& q.got = q.exp ∧ key = 0) ∨
        (¬(q.exp ≠ 0 ∧ q.exp &&& q.got = q.exp) ∧ q.cen = true ∧ q.thr ≤ vget c.cnts q.csel 0 ∧ key = q.thr))
    w.runs = true → w.nextFire ≤ s.cyc → s.commandFits k n = true → n < 16 →
    (∃ key, due n key ∧ ∀ i m, i < 16 → due i m → key < m ∨ (key = m ∧ n ≤ i)) →
    let fired := if cell.rearm then { cell with got := 0, thr := min (cell.thr + cell.step) 0xFFFFFFFF }
      else { cell with got := 0, armed := false }
    let l := w.bytes (0x200 + 32 * n) 32
    let slack := fieldAt l 2 2
    let arg (i : Nat) : Word := word (fieldAt l (8 * i) 8)
    let small := word (fieldAt l 4 4)
    let len := fieldOf small 21 16
    let vec := fieldAt l 1 1 = 1
    let words := vset (vset (rawWords (arg 1) 0 (fieldAt l 4 4) (fieldAt l 1 1)) 0 (arg 1)) 2 (arg 2)
    let entry := toBytes 8 (fieldOf small 15 0 * 2 ^ 48 + len * 2 ^ 42 + s.devId * 2 ^ 28 + k * 2 ^ 16 +
      (if s.sendsInside k (arg 1) then 0 else 2) + 1) ++ w.bytes (ptrLoc (arg 2)) len ++ List.replicate (56 - len) 0
    let tokens := (List.range (fieldAt l 4 4)).map fun i => arg (i + 1)
    let bad := badRange w.bad (0x200 + 32 * n) 32 = true
    let kind (b : Nat) : Prop := ¬bad ∧ commandBad l = false ∧ fieldAt l 0 1 = b
    let stays (t : State) : Prop := vget (t.tile k).core.cells n Cell.reset = fired ∧ (t.tile k).nextFire = s.cyc + 1
    let refused : Prop := ∃ t, exec .triggerFire s = .next t ∧ stays t ∧ (t.tile k).tflt = (w.tflt + 1) % 2 ^ 64 ∧ t.reqs = s.reqs ∧
      (t.tile k).eng = w.eng ∧ MemoryBut s t k 0xC20 0x18
    let posts (t : State) (ops : List ReqOp) : Prop := ∃ q, t.reqs = s.reqs ++ q ∧ q.map (·.op) = ops ∧
      ∀ x ∈ q, x.tile = k ∧ x.sv = false ∧ x.cell = some n ∧ x.slack = slack
    (bad ∨ commandBad l = true → refused) ∧
    (kind 0 → ∃ t, exec .triggerFire s = .next t ∧ OnlyTile s t k { w with nextFire := s.cyc + 1, core := { c with cells := vset c.cells n fired } }) ∧
    (kind 1 →
      (ptrBlk (arg 1) ≠ 0 ∨ ptrBlk (arg 2) ≠ 0 ∨ s.copyCause words words ≠ none → refused) ∧
      (ptrBlk (arg 1) = 0 → ptrBlk (arg 2) = 0 → s.copyCause words words = none → copyTotal words ≠ 0 → copySizeBad words = false →
        copyExtentBad 0 words = false → ∃ t x, exec .triggerFire s = .next t ∧ stays t ∧ (t.tile k).eng.xfers = w.eng.xfers ++ [x] ∧
          x.why = .trigger (arg 3) ∧ x.words = words ∧ x.total = copyTotal words ∧ x.priv = 0 ∧ x.slack = slack ∧ x.slot = n ∧
          t.reqs = s.reqs ∧ SameMemory s t)) ∧
    (kind 2 →
      let check := s.sendCause k 0 (arg 1) (arg 2) small
      (check ≠ none → refused) ∧
      (check = none → (len = 0 ∨ badRange w.bad (ptrLoc (arg 2)) len = false) → ∃ t, exec .triggerFire s = .next t ∧ stays t ∧ SameMemory s t ∧
        if s.sendsInside k (arg 1) then posts t [.message entry] ∧ (t.tile k).core.sent = c.sent + 1
        else t.reqs = s.reqs ∧ (t.tile k).eng.held = w.eng.held ++ [⟨arg 1, entry, 0, false⟩])) ∧
    (kind 3 →
      let g := small.toNat % 64
      let m := (assoc c.rounds g).getD 0
      let check := s.tconCause k 0 small (arg 1) (fieldAt l 1 1 == 1)
      (check ≠ none → refused) ∧
      (check = none → (vec → badRange w.bad (ptrLoc (arg 1)) 64 = false) → ∃ t, exec .triggerFire s = .next t ∧ stays t ∧ SameMemory s t ∧
        (t.tile k).core.rounds = assocPut c.rounds g (m + 1) ∧
        posts t [.contribute g m (if vec then w.bytes (ptrLoc (arg 1)) 64 else toBytes 8 (arg 1).toNat)])) ∧
    (kind 4 →
      ((∃ v ∈ tokens, s.tokenCause k v ≠ none) → refused) ∧
      ((∀ v ∈ tokens, s.tokenCause k v = none) → ∃ t, exec .triggerFire s = .next t ∧ stays t ∧ SameMemory s t ∧
        posts t (tokens.map fun v => .token (fieldOf v 29 26) (fieldOf v 31 30))))

/-- The statements above as one: TriggersAreSet, TriggersFire. -/
def Obligations.Triggers : Prop :=
  Claims.TriggersAreSet ∧ Claims.TriggersFire

/-! ### Collectives and repartition (15, 16) -/

/-- 15 R351-R353, 16 R356, R357, R361-R363, R369, R376, R377: COLL and RPGO wait while their queue is full, trap at issue on the first
failed check, and else queue one command with the group's next sequence number, its register pending. RPCFG takes the configuration from
TLM behind an earlier atomic of the strand there, or traps; RPSTAT reads the record. -/
def Claims.GroupCommandsQueue : Prop :=
  ∀ (s : State) (xd xa xb : Reg) (pa : RegPair) (q : SlackReg), s.cur.slot < 16 →
    let k := s.cur.tile
    let e := (s.tile k).eng
    let core := (s.tile k).core
    let slack := (vget s.me.k q.toNat 0xFFF).toNat
    let numbered (t : State) (g : Nat) : Prop := t.me = { s.me.mark (.x xd) with banks := t.me.banks } ∧
      { (t.tile k).core with slots := core.slots } = { core with cseqs := assocPut core.cseqs g ((assoc core.cseqs g).getD 0 + 1) } ∧
      (∀ j, j ≠ s.cur.slot → t.strand k j = s.strand k j) ∧ t.sansTile k = s.sansTile k ∧ SameMemory s t
    (∀ i, i = .collAllred xd xa xb q ∨ i = .collBcast xd xa xb q ∨ i = .collAllgat xd xa xb q ∨ i = .collRedsc xd xa xb q →
      let w := s.rx xa
      let buf := s.rx xb
      let g := groupOf w
      let f := ptrFmt buf
      let moves := i = .collBcast xd xa xb q ∨ i = .collAllgat xd xa xb q
      let wide := i = .collAllgat xd xa xb q ∨ i = .collRedsc xd xa xb q
      (8 ≤ e.collq.length → exec i s = .next s.hold) ∧
      (e.collq.length < 8 → s.activeGroup k g = none → exec i s = .next (s.trapAtIssue 0x121 w)) ∧
      (∀ d id n, e.collq.length < 8 → s.activeGroup k g = some d → s.partOf k = some id →
        (wide → n = s.memberCount (s.part id) g * fieldOf w 31 8) → (¬wide → n = fieldOf w 31 8) →
        let len := (n * f.bits + 7) / 8
        let bad := fieldOf w 63 56 ≠ 0 ∨ fieldOf w 7 6 ≠ 0 ∨ (s.pointerCause buf = none ∧ ¬moves ∧ collAccepts (groupOp d) f = false)
        (bad → exec i s = .next (s.trapAtIssue 0x126 w)) ∧
        (¬bad → ∀ c, s.ownCause k s.priv buf len f.granBytes true = some c → exec i s = .next (s.trapAtIssue c buf)) ∧
        (¬bad → s.ownCause k s.priv buf len f.granBytes true = none → ptrBlk buf ≠ 0 → exec i s = .next (s.trapAtIssue 0x045 buf)) ∧
        (¬bad → s.ownCause k s.priv buf len f.granBytes true = none → ptrBlk buf = 0 → ∃ t, exec i s = .next t ∧ numbered t g ∧
          (t.tile k).eng = { e with tcc := (e.tcc + 1) % 2 ^ 64, collq := e.collq ++
            [⟨e.tcc, i, s.cur.slot, xd, w, buf, 0, [], (assoc core.cseqs g).getD 0, s.priv, slack, s.gclk, s.nextReq,
              s.me.fenced, 0⟩] }))) ∧
    (∀ i, i = .rpgo xd pa xb q ∨ i = .rpgoFine xd pa xb q →
      let w := s.rx xb
      let g := groupOf w
      let check := s.rpCause k (s.rx pa.even) (s.rx pa.odd) w
      (4 ≤ e.repq.length → exec i s = .next s.hold) ∧
      (e.repq.length < 4 → ∀ c v, check = some (c, v) → exec i s = .next (s.trapAtIssue c v)) ∧
      (e.repq.length < 4 → check = none → ∃ t, exec i s = .next t ∧ numbered t g ∧
        (t.tile k).eng = { e with rcc := (e.rcc + 1) % 2 ^ 64, repq := e.repq ++
          [⟨e.rcc, i, s.cur.slot, xd, w, s.rx pa.even, s.rx pa.odd, e.rpcfg.getD [], (assoc core.cseqs g).getD 0, s.priv, slack,
            s.gclk, s.nextReq, s.me.fenced, 0⟩] })) ∧
    (let check := s.ownCause k s.priv (s.rx xa) 64 64 false;
      (∀ c, check = some c → exec (.rpcfg xa) s = .next (if c = 0x04A then s.trapAtIssue c (s.rx xa) else s.trapAfter c (s.rx xa))) ∧
      (check = none → s.ownOrder (ptrLoc (s.rx xa)) 64 = true → exec (.rpcfg xa) s = .next s.hold)) ∧
    (let l := (s.tile k).bytes (ptrLoc (s.rx xa)) 64;
      s.ownCause k s.priv (s.rx xa) 64 64 false = none → s.ownOrder (ptrLoc (s.rx xa)) 64 = false → badRange (s.tile k).bad (ptrLoc (s.rx xa)) 64 = false →
      (cfgBad l = true → exec (.rpcfg xa) s = .next (s.trapAtIssue 0x130 (word (ofBytes (l.take 4))))) ∧
      (cfgBad l = false → ∃ t, exec (.rpcfg xa) s = .next t ∧ (t.tile k).eng = { e with rpcfg := some l } ∧
        t.me = { s.me with banks := t.me.banks, readyAt := t.me.readyAt } ∧
        ((s.tile k).asleep (ptrLoc (s.rx xa)) 64 = false → t.me.readyAt = s.me.readyAt) ∧
        (∀ j, j ≠ s.cur.slot → t.strand k j = s.strand k j) ∧ SameMemory s t)) ∧
    (let n := (s.rx xa).toNat % 8;
      let r := e.rpstat;
      (5 ≤ n → exec (.rpstat xd xa) s = .next (s.trapAtIssue 0x134 (s.rx xa))) ∧
      (n < 5 → ∃ t, exec (.rpstat xd xa) s = .next t ∧ OnlyRegs s t [xd] [] ∧
        t.me.xv xd = word (if n = 0 then r.kept * 2 ^ 32 + r.recv else if n = 1 then r.refin * 2 ^ 32 + r.refused
          else if n = 2 then r.hi * 2 ^ 32 + r.lo else if n = 3 then r.total else r.p * 2 ^ 32 + r.i)))

/-- 15 R351-R354, 13 R301, 09 R193, 14 R317: a collective goes on in sequence order in its group. Once what precedes it is performed its
contribution leaves for the device root, which passes it on below the partition root; when the contributions of all members stand at the
root the outcome is formed, EMISMATCH where descriptors differ, and goes down to every member. When it is back the member's buffer in this
tile's TLM receives its share, its register the status, and its entry is free; EMISMATCH leaves cause 0x125 at the strand, and with
COLLVOTE the tile votes abort. Members on other devices come with the event (the model's choice, log entry 24). -/
def Claims.CollectivesComplete : Prop :=
  ∀ (s : State) (c : GroupCmd) (id : Nat), c.slot < 16 →
    let k := s.cur.ev.tile
    let w := s.tile k
    let p := s.part id
    let g := groupOf c.word
    let f := ptrFmt c.buf
    let n := fieldOf c.word 31 8
    let queue (h : GroupCmd → GroupCmd) : TileEng := { w.eng with collq := updateWhere w.eng.collq (fun q => q.id == c.id) h }
    w.eng.collq.find? (fun q => q.id == s.cur.ev.id) = some c → s.partOf k = some id → w.engGoesOn = true → c.isRep = false →
    (∀ q ∈ w.eng.collq, groupOf q.word = g → c.seq ≤ q.seq) →
    (p.collRound g c.seq = none → w.engRuns = true →
      (c.phase = 0 → s.withheld = false → s.earlierDone k c.slot c.mark c.fmark [1] = true → ∃ t, exec .collectiveComplete s = .next t ∧
        Shipped s t k (some c.slot) .collective c.code (groupJob 3 (s.rank k) c.id) (ceilDiv (s.collLen id c) 64) c.slack (.router p.corner) ∧
        (t.tile k).eng = queue (fun q => { q with phase := 1 }) ∧ SameMemory s t) ∧
      (c.phase = 1 → p.isRoot = false → s.landed (groupJob 3 (s.rank k) c.id) = true → ∃ t, exec .collectiveComplete s = .next t ∧
        (t.tile k).eng = queue (fun q => { q with phase := 2 }) ∧ SameMemory s t ∧
        ∃ x ∈ t.reqs, ∃ hdr l, x.op = .transit hdr l ∧ x.dev = p.tree.parent % 2 ^ 14 ∧ x.place = .router p.corner) ∧
      (∀ cmds, c.phase = 1 → p.isRoot = true → s.joined' p g c.seq = some cmds → s.foreignReady p g = true →
        (∀ q ∈ cmds, q.2.phase = 1 ∧ q.2.isRep = false ∧ s.landed (groupJob 3 (s.rank (p.tileAt q.1)) q.2.id) = true) →
        s.anyAsleep (s.collBuffers id cmds) = false → (∀ q ∈ cmds, (s.tile (p.tileAt q.1)).bad = []) →
        ∃ t r, exec .collectiveComplete s = .next t ∧ SameMemory s t ∧ (t.part id).colls = p.colls ++ [r] ∧ r.group = g ∧ r.seq = c.seq ∧
          r.cmds = cmds ∧ r.foreign = s.cur.ev.foreign ∧ (clashing cmds = true ∨ s.cur.ev.a ≠ 0 → r.status = 5 ∧ r.result = []) ∧
          (∀ j h l, clashing cmds = false → s.cur.ev.a = 0 → cmds = (j, h) :: l →
            let total := cmds.length + s.cur.ev.foreign.length
            let unfit := match h.op with
              | .collBcast .. => fieldOf h.word 31 8 % (ptrFmt h.buf).granElems ≠ 0 ∨ total ≤ fieldOf h.word 55 32
              | .collAllgat .. => fieldOf h.word 31 8 % (ptrFmt h.buf).granElems ≠ 0
              | _ => False
            (unfit → r.status = 1) ∧ (¬unfit → r.status = 0) ∧
            (∀ a b d q, ¬unfit → h.op = .collBcast a b d q → s.cur.ev.foreign = [] → fieldOf h.word 31 8 ≠ 0 → ∀ m ∈ cmds,
              assoc r.result m.1 = (cmds[fieldOf h.word 55 32]?).map fun v => (s.tile (p.tileAt v.1)).bytes (ptrLoc v.2.buf)
                (spanBytes (ptrFmt h.buf) (fieldOf h.word 31 8)))) ∧
          ∀ q ∈ cmds, ∃ x ∈ t.reqs, x.place = .router p.corner ∧ ∃ m, x.op = .cargo .collective q.2.code (groupJob 4 (s.rank (p.tileAt q.1)) q.2.id) m
            (.tile (p.tileAt q.1)))) ∧
    (∀ r, p.collRound g c.seq = some r → s.landed (groupJob 4 (s.rank k) c.id) = true → (s.cargoSlack (groupJob 4 (s.rank k) c.id)).2 = false →
      s.jobOpen (c.actor k) = false →
      let u := (s.begin.endJob (c.actor k)).unload (groupJob 4 (s.rank k) c.id)
      let rank := p.fullRank k
      let l := (assoc r.result rank).getD []
      let before := ((r.cmds.map (·.1) ++ r.foreign.map (·.1)).filter fun q => decide (q < rank)).length
      let at' := ptrLoc c.buf + match c.op with
        | .collRedsc .. => spanBytes f n * before
        | _ => 0
      let freed : TileEng := { w.eng with collq := w.eng.collq.filter fun q => q.id != c.id }
      let v := statusWord c.id 5 4 0
      let told : Strand := { (s.strand k c.slot).land (.x c.rd) v with held := (s.strand k c.slot).held ++ [⟨0x125, v⟩] }
      (r.status ≠ 5 → ownTlm k c.buf = true → 0x1000 ≤ at' → at' + l.length ≤ 0x80000 → w.bad = [] → Memory.wf w.tlm = true →
        w.undo.length + (w.newGranules (s.scratchFrom k) at' l.length).length ≤ 2048 → w.asleep at' l.length = false →
        (∀ q ∈ s.reqs, q.stage ≠ .waiting) → ∃ t b, exec .collectiveComplete s = .next t ∧
          (∀ n, n < l.length → (t.tile k).byte (at' + n) = l.getD n 0) ∧ MemoryBut s t k at' l.length ∧
          t.strand k c.slot = { (s.strand k c.slot).land (.x c.rd) (statusWord c.id r.status 4 (if r.status = 0 then l.length else 0)) with
            banks := b } ∧
          (t.tile k).eng = freed ∧ { t with notes := s.notes }.sansTile k = u.sansTile k) ∧
      (r.status = 5 → l = [] → (s.strand k c.slot).st = .live →
        (bitOf p.sspol 2 = false → ∃ t, exec .collectiveComplete s = .next t ∧ OnlyCommand u t k c.slot told freed) ∧
        (bitOf p.sspol 2 = true → s.versioned k = true → ∃ t, exec .collectiveComplete s = .next t ∧ t.strand k c.slot = told ∧
          (t.tile k).vote = true ∧ (t.tile k).eng = freed ∧ SameMemory s t)))

/-- The statements above as one: GroupCommandsQueue, CollectivesComplete. -/
def Obligations.Collectives : Prop :=
  Claims.GroupCommandsQueue ∧ Claims.CollectivesComplete

/-- 16 R364-R372, R377, 06 R125, 18 R429: a repartition starts at the head of its queue in a cycle of the duty and sends its histogram for the
root; the outcome is formed once the contribution of every member stands there, and goes down. With it at every member the items move, and
are on their way to their owners; when all items for an owner have come its OUT receives what it accepts and the front of its IN its own
refused items; once every member has done so each ends with its record and status. Clashing descriptors give EMISMATCH and cause 0x133,
an uncorrectable IN EFAULT. What other devices' members give comes with the event (the model's choice, log entry 24). -/
def Obligations.RepartitionsProceed : Prop :=
  ∀ (s : State) (c : GroupCmd) (rest : List GroupCmd) (id : Nat), c.slot < 16 →
    let k := s.cur.ev.tile
    let w := s.tile k
    let e := w.eng
    let p := s.part id
    let g := groupOf c.word
    let up (k : Nat) (c : GroupCmd) : Nat := groupJob 5 (s.rank k) c.id
    let down (k : Nat) (c : GroupCmd) : Nat := groupJob 6 (s.rank k) c.id
    let items := groupJob 7 (s.rank k) c.id
    let replaced (r : CollRound) : List CollRound := updateWhere p.colls (fun q => q.group == g && q.seq == c.seq) fun _ => r
    let regs (t : State) : Prop := ∀ n x, (t.strand k n).xv x = (s.strand k n).xv x
    e.repq = c :: rest → s.partOf k = some id → c.isRep = true →
    (c.phase = 0 → w.engRuns = true → s.withheld = false → s.earlierDone k c.slot c.mark c.fmark [1] = true →
      w.asleep (ptrLoc c.buf) c.inLen = false → (∀ q ∈ rest, q.id ≠ c.id) → ∃ t, exec .repartitionStart s = .next t ∧
        Shipped s t k (some c.slot) .histogram c.code (up k c) 512 c.slack (.router p.corner) ∧
        (t.tile k).eng = { e with repq := { c with phase := 1 } :: rest } ∧ SameMemory s t ∧ regs t) ∧
    (∀ cmds, s.joined' p g c.seq = some cmds → p.collRound g c.seq = none → w.engGoesOn = true → s.foreignReady p g = true →
      (∀ q ∈ cmds, q.2.isRep = true ∧ q.2.phase = (if p.isRoot then 1 else 2) ∧ (p.isRoot = true → s.landed (up (p.tileAt q.1) q.2) = true)) →
      let sum : Nat := ((s.roundItems p cmds s.cur.ev.foreign c.cfg).map (·.weight)).foldl (· + ·) 0
      let formed (status : Nat) : Prop := ∃ t, exec .repartitionHistogramResult s = .next t ∧ SameMemory s t ∧
        (t.part id).colls = p.colls ++ [⟨g, c.seq, cmds, s.cur.ev.foreign, status, [], [], [], status != 0⟩] ∧
        (status = 2 → ∀ q ∈ s.badInputs p cmds, s.versioned (p.tileAt q.1) = true → s.isLate (p.tileAt q.1) = false →
          (t.tile (p.tileAt q.1)).vote = true) ∧
        ∀ q ∈ cmds, ∃ x ∈ t.reqs, x.place = .router p.corner ∧ ∃ m, x.op = .cargo .splitters q.2.code (down (p.tileAt q.1) q.2) m (.tile (p.tileAt q.1))
      (clashing cmds = true ∨ s.cur.ev.a ≠ 0 → formed 5) ∧
      (clashing cmds = false → s.cur.ev.a = 0 → s.anyAsleep (p.rpInputs cmds) = false → p.nd ≤ 1 ∨ s.cur.ev.b < 2 →
        (s.badInputs p cmds ≠ [] → formed 2) ∧ (s.badInputs p cmds = [] → formed (if sum < 2 ^ 64 then 0 else 1)))) ∧
    (∀ r, p.collRound g c.seq = some r → c.phase = 1 ∨ c.phase = 2 → w.engGoesOn = true → r.status = 0 ∨ r.status = 4 →
      (r.moved = false → (∀ q ∈ r.cmds, q.2.isRep = true ∧ s.landed (down (p.tileAt q.1) q.2) = true) → s.anyAsleep (p.rpInputs r.cmds) = false →
        ∃ t, exec .repartitionItemArrival s = .next t ∧ SameMemory s t ∧ regs t ∧ (t.part id).colls =
          replaced (if s.badInputs p r.cmds = [] then s.moveItems p r c else { r with status := 2, moved := true })) ∧
      (r.moved = true → s.landed items = true → p.nd ≤ 1 ∨ s.cur.ev.ok = true → s.jobOpen (c.actor k) = false →
        let out := (assoc r.result (p.fullRank k)).getD []
        let back := (assoc r.refused (p.fullRank k)).getD []
        let room (a n : Nat) : Prop := 0x1000 ≤ a ∧ a + n ≤ 0x80000 ∧ w.asleep a n = false
        ownTlm k c.out = true → ownTlm k c.buf = true → room (ptrLoc c.out) out.length → room (ptrLoc c.buf) back.length →
        ptrLoc c.out + out.length ≤ ptrLoc c.buf ∨ ptrLoc c.buf + back.length ≤ ptrLoc c.out → w.bad = [] → Memory.wf w.tlm = true →
        (∀ q ∈ s.reqs, q.stage ≠ .waiting) → w.undo.length + (w.newGranules (s.scratchFrom k) (ptrLoc c.out) out.length).length +
          (w.newGranules (s.scratchFrom k) (ptrLoc c.buf) back.length).length ≤ 2048 →
        ∃ t, exec .repartitionItemArrival s = .next t ∧ regs t ∧ (∀ n, n < out.length → (t.tile k).byte (ptrLoc c.out + n) = out.getD n 0) ∧
          (∀ n, n < back.length → (t.tile k).byte (ptrLoc c.buf + n) = back.getD n 0) ∧
          (MemoryOutside s t k fun a => (a < ptrLoc c.out ∨ ptrLoc c.out + out.length ≤ a) ∧ (a < ptrLoc c.buf ∨ ptrLoc c.buf + back.length ≤ a)) ∧
          ∃ q, (t.tile k).eng.repq.head? = some q ∧ q.phase = 3)) ∧
    (∀ r, p.collRound g c.seq = some r → w.engGoesOn = true → s.landed (down k c) = true → (s.cargoSlack (down k c)).2 = false →
      let stat := (assoc r.stats (p.fullRank k)).getD RepStat.zero
      let v := statusWord c.id 5 5 0
      let ended (st : Strand) (e : TileEng) : Prop := ∃ t, exec .repartitionComplete s = .next t ∧ OnlyCommand (s.unload (down k c)) t k c.slot st e
      (r.status = 0 ∨ r.status = 4 → c.phase = 3 → s.membersMoved p r = true → p.nd ≤ 1 ∨ s.cur.ev.ok = true →
        ended ((s.strand k c.slot).land (.x c.rd) (statusWord c.id r.status 5 stat.recv)) { e with repq := rest, rpstat := stat }) ∧
      (r.status = 1 ∨ r.status = 2 → ended ((s.strand k c.slot).land (.x c.rd) (statusWord c.id r.status 5 0)) { e with repq := rest }) ∧
      (r.status = 5 → (s.strand k c.slot).st = .live → bitOf p.sspol 2 = false →
        ended { (s.strand k c.slot).land (.x c.rd) v with held := (s.strand k c.slot).held ++ [⟨0x133, v⟩] } { e with repq := rest }))

/-! ### Supersteps (13) -/

/-- 13 R282, R291, R300-R304: SYNC and SYNCR sleep at their bundle once no register but a MOVEAT's destination is pending and nothing of
the strand can still report (the exception is the model's reading, log entry 61), and trap in slot 15; VOTE
and ABORT record their cause; SSNUM, UNDOQ and BDEF answer what they read, and BDEF stages the tree entry. -/
def Obligations.SuperstepInstructions : Prop :=
  ∀ (s : State) (xd xa : Reg) (op : SyncOp), s.cur.slot < 16 →
    let k := s.cur.tile
    let w := s.tile k
    let v := s.rx xa
    (∀ i red, (i = .sync xd ∧ red = none) ∨ (i = .syncr xd xa op ∧ red = some (op, v)) →
      (s.pendingButMove = true ∨ s.reported = false → exec i s = .next s.hold) ∧
      (s.pendingButMove = false → s.reported = true → s.cur.slot = 15 → exec i s = .next (s.trapAtIssue 0x0EC 0)) ∧
      (s.pendingButMove = false → s.reported = true → s.cur.slot ≠ 15 → ∃ t, exec i s = .next t ∧
        OnlyMe s t { s.me.mark (.x xd) with sleep := .sync xd red, pc := s.cur.pc })) ∧
    (v.getLsbD 0 = false ∨ s.versioned k = false → exec (.vote xa) s = .next s) ∧
    (v.getLsbD 0 = true → s.versioned k = true → ∃ t, exec (.vote xa) s = .next t ∧
      OnlyTile s t k { w with causes := w.causes ++ [0x0E8], vote := true }) ∧
    (s.versioned k = true → s.isLate k = false → ∃ t, exec .abort s = .next t ∧
      OnlyTile s t k { w with causes := w.causes ++ [0x0E9], vote := true, cast := true, halted := true }) ∧
    (∀ id, s.partOf k = some id → ∃ t, exec (.ssnum xd) s = .next t ∧ t.me.xv xd = word (s.part id).ssnum ∧
      OnlyRegs s { t with freeCtr := s.freeCtr } [xd] []) ∧
    (let kind := v.toNat % 16;
      let n := fieldOf v 13 8;
      (4 < kind ∨ (2 ≤ kind ∧ s.diePresent (n / 16) = false) → exec (.undoq xd xa) s = .next (s.trapAtIssue 0x0EB v)) ∧
      (∀ used free, kind ≤ 4 → (2 ≤ kind → s.diePresent (n / 16) = true) →
        (kind = 0 ∧ used = w.undo.length ∧ free = 2048 - w.undo.length) ∨ (kind = 1 ∧ used = w.deltaCount ∧ free = 512 - w.deltaCount) ∨
          (∃ id, s.partOf k = some id ∧
            ((kind = 2 ∧ used = ((s.part id).versionLines n).length ∧ free = 131072 - s.versionsUsed n) ∨
              (kind = 3 ∧ used = (s.part id).journalUsed n ∧ free = 16384 - s.journalUsed n) ∨
              (kind = 4 ∧ used = (s.part id).redsUsed n ∧ free = 16384 - s.redsUsed n))) →
        ∃ t, exec (.undoq xd xa) s = .next t ∧ OnlyMe s t (s.me.land (.x xd) (word (used + free * 2 ^ 32))))) ∧
    (s.priv = 0 → exec (.bdef xd xa) s = .next (s.trapAtIssue 0x160 0)) ∧
    (∀ id, s.priv ≠ 0 → s.partOf k = some id →
      let parent := v.toNat % 2 ^ 14
      let refused := fieldOf v 63 21 ≠ 0 ∨ 47 < fieldOf v 20 15 ∨
        (v.getLsbD 14 = false ∧ (parent = s.devId ∨ (s.part id).devs.contains parent = false))
      let old := (s.part id).treeNext.getD (s.part id).tree
      (refused → ∃ t, exec (.bdef xd xa) s = .next t ∧ OnlyMe s t (s.me.land (.x xd) 0x8000000000000000)) ∧
      (¬refused → ∃ t, exec (.bdef xd xa) s = .next t ∧
        t.part id = { s.part id with treeNext := some ⟨parent, v.getLsbD 14, fieldOf v 20 15⟩ } ∧
        OnlyMe s { t with parts := s.parts }
          (s.me.land (.x xd) (word (old.parent + (if old.root then 2 ^ 14 else 0) + old.nchild * 2 ^ 15)))))

/-- 13 R281, R284, R285, R287: a tile that may (the model's choice of what that includes: log entry 75) arrives and sends its ARRIVE with its
vote, on VC 0 with slack 0, once it holds its inputs; a node keeps every ARRIVE and DONE that reaches it; the root of one device decides
once, on a commit advancing SSNUM, and sends DECIDE to its children; a tile that OPEN reaches keeps its state as that of the open superstep,
no result in flight in it, and its strands issue from the next cycle on, or from 64 cycles later with KEEP. -/
def Claims.BarrierProceeds : Prop :=
  ∀ (s : State) (id : Nat) (m : BarMsg),
    let k := s.cur.ev.tile
    let e := s.cur.ev
    let p := s.part id
    (s.partOf k = some id → s.mayArrive k = true → p.bar.commit = none → s.booting = false →
      let u := s.modTile k fun t => { t with arrived := true }
      ∃ t, exec .tileArrive s = .next t ∧ (t.tile k).arrived = true ∧ SameMemory s t ∧
        (u.allReceived (u.part id) .arrive (.tile k) = true → p.bar.sent.contains (.tile k, .arrive) = false →
          ∃ q r, (t.part id).bar.flight = p.bar.flight ++ [q] ∧ q.kind = .arrive ∧ q.src = .tile k ∧ s.parentOf p (.tile k) = some q.dst ∧
            q.vote = (u.combined (u.part id) (.tile k)).1 ∧ q.red = (u.combined (u.part id) (.tile k)).2.1 ∧ q.ssnum = p.ssnum ∧
            t.reqs = s.reqs ++ [r] ∧ r.op = .cargo .barrier 0xF3 q.id (match q.red with | .acc _ => 2 | _ => 1) (p.pointOf q.dst) ∧
            r.place = .tile k ∧ r.slack = 0)) ∧
    (e.part = id → e.ok = false → m.id = e.id → s.landed m.id = true →
      (p.bar.flight.find? (fun q => q.id == e.id && q.kind == .arrive && s.landed q.id) = some m → p.bar.commit = none →
        ∃ t, exec .arriveReceipt s = .next t ∧ m ∈ (t.part id).bar.got ∧ (t.part id).bar.commit = none ∧ SameMemory s t) ∧
      (p.bar.flight.find? (fun q => q.id == e.id && q.kind == .done && s.landed q.id) = some m → p.bar.commit ≠ none →
        ∃ t, exec .doneReceipt s = .next t ∧ m ∈ (t.part id).bar.got ∧ (t.part id).bar.commit = p.bar.commit)) ∧
    (e.part = id → p.valid = true → p.nd ≤ 1 → p.bar.commit = none → p.forced = false →
      let vote := (s.combined p .device).1
      let red := (s.combined p .device).2.1
      vote % 2 = 1 ∨ s.allReceived p .arrive .device = true → ∃ t, exec .rootDecide s = .next t ∧
        { t with reqs := s.reqs, nextReq := s.nextReq }.sansPart id = s.sansPart id ∧
        (t.part id).bar = { p.bar with commit := some (vote % 2 != 1), vote := vote, result := red, flight := (t.part id).bar.flight } ∧
        (t.part id).ssnum = (if vote % 2 = 1 then p.ssnum else (p.ssnum + 1) % 2 ^ 32) ∧
        ∀ c ∈ s.senders p .done, s.parentOf p c = some .device → p.bar.applied = [] → p.bar.flight = [] →
          p.bar.sent.contains (.device, .done) = false →
          ∃ q ∈ (t.part id).bar.flight, q.kind = .decide ∧ q.src = .device ∧ q.dst = c ∧ q.vote = vote ∧ q.red = red) ∧
    (∀ j, e.part = id → e.node = .tile j → s.mayOpen p (.tile j) = true → s.heard p .save (.tile j) = none → p.bar.commit = some true →
      p.due = [] →
      let w := s.tile j
      ∃ t, exec .openReceipt s = .next t ∧ (t.tile j).openCore = (t.tile j).core.snapshot ∧ (t.tile j).openEng = (t.tile j).eng ∧
        (t.tile j).eng = { w.eng with
          scrbase := w.eng.scrNext.getD w.eng.scrbase, scrNext := none, turn := 3, deficit := Vector.replicate 4 0 } ∧
        (t.tile j).decided = false ∧ (t.tile j).arrived = false ∧ (t.tile j).halted = false ∧ (t.tile j).keepCopy = w.eng.keep ∧
        (∀ n, n < 16 → (s.strand j n).st = .live → s.cyc + (if w.eng.keep then 65 else 1) ≤ (t.strand j n).readyAt) ∧
        (t.tile j).heapOpen = #v[w.hwake, w.tflt, w.tdup] ∧ (t.tile j).causes = w.recast ∧ (t.tile j).vote = !w.recast.isEmpty ∧
        t.sansTile j = { s with parts := t.parts, reqs := t.reqs, nextReq := t.nextReq }.sansTile j ∧ SameMemory s t)

/-- 07 R141-R143, 13 R288, R289: at a commit a tile applies the held deltas against lower ranks' own writes, wakes its SYNCs with SSNUM and
is decided, and a station commits the pending versions of its bytes; at an abort a tile is as it was at open, but for the messages that it
had accepted (the model's reading, log entry 33), its scratch zero, and a station undoes its journal. -/
def Claims.DecisionsApply : Prop :=
  ∀ (s : State) (id : Nat),
    let e := s.cur.ev
    let p := s.part id
    let applied (t : State) (n : BarNode) : Prop := n ∈ (t.part id).bar.applied
    e.part = id →
    (∀ k, e.node = .tile k → s.mayApply id true (.tile k) = true → (∀ n, n < 15 → (s.strand k n).move = none) →
      let w := s.tile k
      ∃ t, exec .commitApply s = .next t ∧ applied t (.tile k) ∧ (t.tile k).decided = true ∧ (t.tile k).undo = [] ∧
        (t.tile k).own = [] ∧ (t.tile k).deltas = [] ∧ (t.tile k).outgoing = w.outgoing ++ w.eng.held ∧
        (∀ n xd, w.core.keeps = [] → n < 16 → (s.strand k n).sleep = .sync xd none →
          t.strand k n = ((s.strand k n).land (.x xd) (word p.ssnum)).wake) ∧
        (∀ n xd op v, w.core.keeps = [] → n < 16 → (s.strand k n).sleep = .sync xd (some (op, v)) →
          t.strand k n = ((s.strand k n).land (.x xd) (syncResult op p.bar.result)).wake) ∧
        (w.deltas = [] → (t.tile k).tlm = w.tlm) ∧
        (∀ src o a, w.deltas = [(src, o)] → rising o = true → Memory.wf w.tlm = true → w.bad = [] →
          memByte (t.tile k).tlm a = match assoc o a with
            | some v => if src < s.rank k ∧ a ∈ w.own then memByte w.tlm a else v
            | none => memByte w.tlm a) ∧ ∀ a, memByte t.hbm a = memByte s.hbm a) ∧
    (∀ n, e.node = .station n → s.mayApply id true (.station n) = true → s.hbmBad = [] → p.reds = [] → Memory.wf s.hbm = true →
      ∃ t, exec .commitApply s = .next t ∧ applied t (.station n) ∧ t.tiles = s.tiles ∧
        (p.versions = [] → t.hbm = s.hbm) ∧
        ∀ r o a, p.versions = [(r, o)] → rising o = true →
          memByte t.hbm a = if homeStation a = n then (assoc o a).getD (memByte s.hbm a) else memByte s.hbm a) ∧
    (∀ k, e.node = .tile k → s.mayApply id false (.tile k) = true →
      let w := s.tile k
      ∃ t, exec .abortApply s = .next t ∧ applied t (.tile k) ∧
        (t.tile k).core = { w.openCore with
          slots := w.openCore.slots.map fun st => { st with resv := [] }
          inbox := w.openCore.inbox ++ w.xpIn, accepted := w.openCore.accepted + w.xpIn.length } ∧
        (t.tile k).eng = { w.openEng with front := none, back := none, chunkAt := w.eng.chunkAt } ∧
        (t.tile k).decided = true ∧ (t.tile k).undo = [] ∧ (t.tile k).deltas = [] ∧ (t.tile k).vote = false ∧
        (t.tile k).lcause = w.causes.head?.getD 0x1FF ∧ (w.keepOpen = false → (t.tile k).ts = []) ∧
        (∀ a, Memory.wf w.tlm = true → rising w.undo = true → (∀ u ∈ w.undo, u.2.length = 64) →
          memByte (t.tile k).tlm a = if w.eng.scrbase ≤ a then 0 else match assoc w.undo (a / 64) with
            | some old => old.getD (a % 64) 0
            | none => memByte w.tlm a) ∧ ∀ a, memByte t.hbm a = memByte s.hbm a) ∧
    (∀ n, e.node = .station n → s.mayApply id false (.station n) = true → Memory.wf s.hbm = true →
      ∃ t, exec .abortApply s = .next t ∧ applied t (.station n) ∧ t.tiles = s.tiles ∧
        (p.journal = [] → t.hbm = s.hbm) ∧
        ∀ j a, p.journal = [j] → homeStation j.pa = n →
          memByte t.hbm a = if j.pa ≤ a ∧ a < j.pa + j.old.length then j.old.getD (a - j.pa) 0 else memByte s.hbm a)

/-- The statements above as one: BarrierProceeds, DecisionsApply. -/
def Obligations.SuperstepsEnd : Prop :=
  Claims.BarrierProceeds ∧ Claims.DecisionsApply

/-! ### Control registers, slack, traps (14, 17) -/

/-- 14 R318, R326, R327, R329: SLKSET writes a slack register, at most 4,095 from a register; SLKEV reads XEV of the strand's slot or XEVT and
clears it on request, XEVT only above user privilege; a select with no meaning traps. -/
def Claims.SlackIsSet : Prop :=
  ∀ (s : State) (q : SlackReg) (xa xd : Reg) (g : BitVec 12), s.cur.slot < 16 →
    let k := s.cur.tile
    let w := s.tile k
    let sel := (s.rx xa).toNat % 4
    let clr := (s.rx xa).getLsbD 4
    (∃ t, exec (.slkset q (.grains g)) s = .next t ∧ OnlyMe s t { s.me with k := vset s.me.k q.toNat g }) ∧
    (∃ t, exec (.slkset q (.reg xa)) s = .next t ∧
      OnlyMe s t { s.me with k := vset s.me.k q.toNat (BitVec.ofNat 12 (min (s.rx xa).toNat 4095)) }) ∧
    (2 ≤ sel → exec (.slkev xd xa) s = .next (s.trapAtIssue 0x109 (s.rx xa))) ∧
    (sel = 1 → clr = true → s.priv = 0 → exec (.slkev xd xa) s = .next (s.trapAtIssue 0x160 0)) ∧
    (sel = 0 → ∃ t, exec (.slkev xd xa) s = .next t ∧ t.me.xv xd = word (vget w.xev s.cur.slot 0) ∧
      (t.tile k).xev = (if clr then vset w.xev s.cur.slot 0 else w.xev) ∧
      OnlyRegs s (t.modTile k fun u => { u with xev := w.xev }) [xd] []) ∧
    (sel = 1 → (clr = true → s.priv ≠ 0) → ∃ t, exec (.slkev xd xa) s = .next t ∧ t.me.xv xd = word w.xevt ∧
      (t.tile k).xevt = (if clr then 0 else w.xevt) ∧ OnlyRegs s (t.modTile k fun u => { u with xevt := w.xevt }) [xd] [])

/-- 17 R380-R384: a number that names no register here, or one above the strand's privilege, traps with 0x161; CSRR answers the value; CSRW,
CSRS and CSRC answer the old value and write the bits that the privilege may write, or trap with 0x162 where there are none or the map
refuses the value. Strand registers change at once, partition registers are staged. Which values are refused, and the registers of a tile of
no partition, are the model's choice where the maps leave them open (log entry 39). -/
def Claims.ControlRegisters : Prop :=
  ∀ (s : State) (xd xa : Reg) (num : BitVec 12) (i : Instr) (f : Word → Word), s.cur.slot < 16 →
    i = .csrw xd xa num ∧ (f = fun _ => s.rx xa) ∨ i = .csrs xd xa num ∧ (f = fun old => old ||| s.rx xa) ∨
      i = .csrc xd xa num ∧ (f = fun old => old &&& ~~~(s.rx xa)) →
    let k := s.cur.tile
    let w := s.tile k
    let closed := s.csrNamed k s.priv num.toNat = none ∨ ∃ r, s.csrNamed k s.priv num.toNat = some r ∧ s.priv < r.readPriv
    (closed → exec i s = .next (s.trapAtIssue 0x161 0) ∧ exec (.csrr xd xa num) s = .next (s.trapAtIssue 0x161 0)) ∧
    (∀ r, s.csrNamed k s.priv num.toNat = some r → r.readPriv ≤ s.priv →
      let old := s.csrRead k 0 r
      let mask := s.csrMask s.priv r
      let v := (f old &&& mask) ||| (old &&& ~~~mask)
      (s.csrAbsent k r = true → exec (.csrr xd xa num) s = .next (s.trapAtIssue 0x161 0)) ∧
      (s.csrAbsent k r = false → ∃ t, exec (.csrr xd xa num) s = .next t ∧
        OnlyMe s { t with freeCtr := s.freeCtr } (s.me.land (.x xd) (s.csrRead k (s.rx xa) r))) ∧
      (s.csrAbsent k r = true ∨ mask = 0 ∨ r.refuses s.pwrMax s.priv v = true → exec i s = .next (s.trapAtIssue 0x162 0)) ∧
      (s.csrAbsent k r = false → mask ≠ 0 → r.refuses s.pwrMax s.priv v = false → ∃ t, exec i s = .next t ∧
        t.me.xv xd = old ∧ t.me.pending (.x xd) = false ∧ (∀ q, q ≠ xd → t.me.xv q = s.me.xv q) ∧ (∀ p, t.me.pv p = s.me.pv p) ∧
        SameMemory s t ∧ t.reqs = s.reqs ∧
        t.me.sstat = (if r = .sstat then v else s.me.sstat) ∧ t.me.cause = (if r = .cause then v else s.me.cause) ∧
        t.me.epc = (if r = .epc then v else s.me.epc) ∧ t.me.tval = (if r = .tval then v else s.me.tval) ∧
        (t.tile k).core.tvec = (if r = .tvec then v else w.core.tvec) ∧
        (t.tile k).eng = (if r = .scrbase then { w.eng with scrNext := some v.toNat }
          else if r = .cpquant then { w.eng with cpquant := v } else w.eng) ∧
        t.pwrbal = (if r = .pwrbal then v.toNat else s.pwrbal) ∧ (t.tile k).psel = (if r = .psel then v.toNat else w.psel) ∧
        (∀ id, s.partOf k = some id → (r = .seed ∨ r = .sspol ∨ r = .expbase ∨ r = .explen) → t.part id =
          { s.part id with staged := (s.part id).staged ++ [⟨num.toNat, v, s.rank k⟩] }) ∧
        (∀ id, s.csrPart k r = some id → (r = .troot → t.part id = { s.part id with troot := v }) ∧
          (r = .mgbase → t.part id = { s.part id with mgbase := v }) ∧ (r = .mglen → t.part id = { s.part id with mglen := v })) ∧
        (∀ n j, r = .lkrail n j → t.link! n = { s.link! n with rails := vset (s.link! n).rails j v }) ∧
        (∀ j, (r = .l2p j → t.l2pWord j = v) ∧ (r = .pts j → t.ptsWord j = v)))) ∧
    (plainCsr 0x000 = some .sstat ∧ plainCsr 0x001 = some .cause ∧ plainCsr 0x002 = some .epc ∧ plainCsr 0x003 = some .tval ∧
      plainCsr 0x004 = some .tvec ∧ plainCsr 0x020 = some .seed ∧ plainCsr 0x023 = some .sspol ∧ plainCsr 0x025 = some .expbase ∧
      plainCsr 0x026 = some .explen)

/-- The statements above as one: SlackIsSet, ControlRegisters. -/
def Obligations.SlackAndControlRegisters : Prop :=
  Claims.SlackIsSet ∧ Claims.ControlRegisters

/-- 17 R385, R386, R389, 06 R126, R131: TRAP takes 0x164 with EPC at the next bundle and TVAL its detail. Taking a trap writes the frame in
TLM, EPC, CAUSE and TVAL, sets INH and a privilege of at least supervisor, clears ASKIP, and goes to TVEC; with INH set it is fatal with
0x167; while any of x12-x15 is pending the entry waits for TRAP_ENTRY. `handling` notes the entry until its ERET (the model's reading, log entry 8). -/
def Claims.TrapsAreTaken : Prop :=
  ∀ (s : State) (k n : Nat) (x : TrapInfo) (detail : BitVec 16), n < 16 →
    let st := s.strand k n
    let w := s.tile k
    let at' := 0x400 + 0x80 * n
    let shown := st.endShadows
    let frame := [vget shown.x 12 0, vget shown.x 13 0, vget shown.x 14 0, vget shown.x 15 0, x.epc,
      setField st.sstat 10 10 (if x.askip then 1 else 0), word x.cause, x.tval, x.acc.facc, x.acc.faddr, x.acc.fdata0, x.acc.fdata1]
    let entered (t : State) : Prop := t.strand k n =
        { shown with
          epc := x.epc, cause := word x.cause, tval := x.tval, pc := w.core.tvec, sleep := .awake, handling := x.cause :: st.handling,
          readyAt := s.cyc + 8, sstat := setField (setField (setField st.sstat 9 8 (max (fieldOf st.sstat 9 8) 1)) 11 11 1) 10 10 0 } ∧
      (∀ i, i < 96 → (t.tile k).byte (at' + i) = (frame.flatMap fun v => toBytes 8 v.toNat).getD i 0) ∧ MemoryBut s t k at' 96 ∧
      (∀ j, j ≠ n → t.strand k j = s.strand k j) ∧ (t.tile k).eng = w.eng ∧ t.sansTile k = s.sansTile k
    let room := Memory.wf w.tlm = true ∧ badRange w.bad at' 96 = false ∧ w.undo.length + (w.newGranules (s.scratchFrom k) at' 96).length ≤ 2048
    (st.inh = false → st.savedPending = false → room → entered (s.takeTrap k n x)) ∧
    (st.inh = false → st.savedPending = true → (s.takeTrap k n x).strand k n = { st with pc := x.epc, sleep := .trap x } ∧
      SameMemory s (s.takeTrap k n x)) ∧
    (st.inh = true → s.takeTrap k n x = (if (s.partOf k).isSome then s.record k x.cause else s).fatal k 0x167) ∧
    (s.cur.ev.tile = k → s.cur.ev.slot = n → st.sleep = .trap x → st.savedPending = false → w.runs = true → room →
      ∃ t, exec .trapEntry s = .next t ∧ entered t) ∧
    exec (.trap detail) s = .next (s.takeTrap s.cur.tile s.cur.slot ⟨0x164, s.cur.pc + 8, word detail.toNat, false, .none⟩)

/-- 17 R388, 02 R28: ERET traps at user privilege, waits for x12-x15 as they are when its bundle begins, and else restores x12-x15 and SSTAT from the frame, with reserved bits clear
and a privilege no higher than the current one, and goes to EPC; nothing else changes. -/
def Claims.TrapsReturn : Prop :=
  ∀ (s : State), s.cur.slot < 16 →
    let k := s.cur.tile
    let n := s.cur.slot
    let w := s.tile k
    let saved (i : Nat) : Word := word (ofBytes (w.bytes (0x400 + 0x80 * n + 8 * i) 8))
    (s.priv = 0 → exec .eret s = .next (s.trapAtIssue 0x160 0)) ∧
    (s.priv ≠ 0 → s.cur.pend &&& 0xF000#16 ≠ 0 → exec .eret s = .next s.hold) ∧
    (s.priv ≠ 0 → s.cur.pend &&& 0xF000#16 = 0 → badRange w.bad (0x400 + 0x80 * n) 0x30 = false → ∃ t, exec .eret s = .next t ∧
      t.me.xv 12 = saved 0 ∧ t.me.xv 13 = saved 1 ∧ t.me.xv 14 = saved 2 ∧ t.me.xv 15 = saved 3 ∧
      t.me.sstat = setField (saved 5 &&& 0xF07) 9 8 (min (fieldOf (saved 5) 9 8) (fieldOf s.me.sstat 9 8)) ∧
      t.me.priv ≤ s.me.priv ∧
      OnlyRegsAnd s t { s.me with pc := s.me.epc, handling := s.me.handling.tail, sstat := t.me.sstat } [12, 13, 14, 15] [])

/-- The statements above as one: TrapsAreTaken, TrapsReturn. -/
def Obligations.TrapsAndReturns : Prop :=
  Claims.TrapsAreTaken ∧ Claims.TrapsReturn

/-- 06 R117, 07 R148, 17 R387: a strand takes the cause that it holds and that is due before its next bundle, and a deferred fault that its
bundle meets, with EPC at that bundle; a fetch that faults traps with EPC and TVAL at its address, one that reads an uncorrectable word also casts an abort, one that
succeeds lets its bundle issue (06 R114), and one that a commit of another partition holds changes nothing. -/
def Obligations.CausesAreTaken : Prop :=
  ∀ (s : State), s.cur.ev.slot < 16 →
    let k := s.cur.ev.tile
    let n := s.cur.ev.slot
    let st := s.strand k n
    s.mayIssue k n = true →
    (∀ i h, st.early = some (.held i) → st.held[i]? = some h → exec .asyncCauseTaken s =
      .next ((s.modStrand k n fun st => { st with held := st.held.eraseIdx i }).takeTrap k n ⟨h.cause, st.pc, h.tval, st.askip, .none⟩)) ∧
    (∀ i f, (st.early = some (.fault i) ∧ st.faults[i]? = some f → exec .asyncCauseTaken s =
        .next ((s.modStrand k n fun st => { st with faults := st.faults.eraseIdx i }).takeTrap k n ⟨f.cause, st.pc, f.tval, st.askip, f.acc⟩)) ∧
      (st.faults[s.cur.ev.a]? = some f → exec .deferredFaultTrap s =
        .next ((s.modStrand k n fun st => { st with faults := st.faults.eraseIdx s.cur.ev.a }).takeTrap k n
          ⟨f.cause, st.pc, f.tval, st.askip, f.acc⟩))) ∧
    (∀ l, s.fetch k (s.staleFor s.cur.ev.ok) st.pc = .bytes l →
      exec .bundleFetch s = .next (s.modStrand k n fun st => { st with fetched := some st.pc })) ∧
    (s.fetch k (s.staleFor s.cur.ev.ok) st.pc = .held → exec .bundleFetch s = .next s) ∧
    (s.fetch k (s.staleFor s.cur.ev.ok) st.pc = .fault 0x142 →
      exec .bundleFetch s = .next ((s.castAbort k 0x142).takeTrap k n ⟨0x142, st.pc, st.pc, st.askip, .none⟩)) ∧
    (∀ c, s.fetch k (s.staleFor s.cur.ev.ok) st.pc = .fault c → c ≠ 0x142 →
      exec .bundleFetch s = .next (s.takeTrap k n ⟨c, st.pc, st.pc, st.askip, .none⟩))

/-! ### System instructions, switching, power (17, 18) -/

/-- 17 R398-R400, R404, R405, R410, R411: MAPT, XINV, GSTOP, PWGIVE and CLKEPOCH trap at user privilege, a resume of GSTOP below device
privilege. MAPT makes one request, XINV one invalidation with a packet to every station, GSTOP stops or resumes on every device, PWGIVE and
CLKEPOCH stage what they answer; how many requests the other devices of a partition have staged is free (the model's
choice, log entries 41 and 77). -/
def Claims.SystemInstructions : Prop :=
  ∀ (s : State) (xd xa xb : Reg) (q : SlackReg), s.cur.slot < 16 →
    let k := s.cur.tile
    let a := s.rx xa
    let b := s.rx xb
    let ctx := if 2 ≤ s.priv then a.toNat / 2 ^ 48 else (s.partOf k).getD 0xFFFF
    let page := fieldOf a 47 16
    (s.priv = 0 → ∀ i, i = .mapt xd xa xb q ∨ i = .xinv xa xb q ∨ i = .gstop xa ∨ i = .pwgive xd xa xb q ∨ i = .clkepoch xd xa xb →
      exec i s = .next (s.trapAtIssue 0x160 0)) ∧
    (s.priv ≠ 0 → ∃ r : Req, r.id = s.nextReq ∧ r.op = .mapt ctx (page * 2 ^ 16) (fieldOf a 2 0) b ∧ r.space = 0 ∧ r.tile = k ∧
      r.slot = s.cur.slot ∧ r.dests = [.x xd] ∧ r.blocking = false ∧ r.stage = .port ∧ r.slack = (vget s.me.k q.toNat 0xFFF).toNat ∧
      (s.roomFor r = false → exec (.mapt xd xa xb q) s = .next s.hold) ∧
      (s.roomFor r = true → ∃ t, exec (.mapt xd xa xb q) s = .next t ∧ OnlyRequest s t r (s.me.mark (.x xd)))) ∧
    (s.priv ≠ 0 →
      let mine := s.xinvs.filter fun x => decide (x.tile = k) && decide (x.slot = s.cur.slot)
      (16 ≤ mine.length → exec (.xinv xa xb q) s = .next s.hold) ∧
      let slack := (vget s.me.k q.toNat 0xFFF).toNat
      (mine.length < 16 → ∃ t l, exec (.xinv xa xb q) s = .next t ∧
        t.xinvs = s.xinvs ++ [⟨s.nextReq, k, s.cur.slot, ctx, page, b.toNat, slack⟩] ∧ t.reqs = s.reqs ++ l ∧
        l.map (·.op) = s.stations.map (fun n => ReqOp.visit 0xD8 s.nextReq (.station n)) ∧
        (∀ r ∈ l, r.tile = k ∧ r.sv = true ∧ r.slot = s.cur.slot ∧ r.place = .tile k ∧ r.slack = slack) ∧
        ({ t with xinvs := s.xinvs } : State).sansSent k = s.sansSent k ∧ SameMemory s t)) ∧
    (s.priv = 1 → a.getLsbD 0 = true → exec (.gstop xa) s = .next (s.trapAtIssue 0x160 0)) ∧
    (∀ id, s.priv ≠ 0 → (if 2 ≤ s.priv then id = fieldOf a 31 16 else s.partOf k = some id) →
      (a.getLsbD 0 = false → (s.part id).valid = true → (s.part id).stopped = false → ∃ t, exec (.gstop xa) s = .next t ∧
        (t.part id).stopped = true ∧ t.out = s.out ++ [.stop id 0] ∧ t.tiles = s.tiles ∧ (∀ j, j ≠ id → t.part j = s.part j) ∧
        (s.entryState id ≠ 0 → t.entryState id = 3)) ∧
      (a.getLsbD 0 = true → 2 ≤ s.priv → (s.part id).stopped = true → s.entryState id = 3 → ∃ t, exec (.gstop xa) s = .next t ∧
        (t.part id).stopped = false ∧ t.entryState id = 2 ∧ t.out = s.out ++ [.resume id] ∧ t.tiles = s.tiles)) ∧
    (∀ id, s.priv ≠ 0 → s.partOf k = some id →
      let p := s.part id
      let dev := fieldOf a 13 0
      let staged := p.give.foldl (fun n g => n + g.2) 0
      let m := fieldOf a 31 0
      let step := fieldOf b 6 0
      let late := 2 ^ 31 ≤ (m + 2 ^ 32 - p.ssnum) % 2 ^ 32
      let full := 4 ≤ s.epochCount p
      (p.nd ≤ 1 → s.epochCount p = p.epochs.length + p.epochNew.length) ∧
      (∀ v, (b = 0 ∧ v = 0) ∨ (b ≠ 0 ∧ p.devs.contains dev = false ∧ v = 0x8000000000000001) ∨
          (b ≠ 0 ∧ p.devs.contains dev = true ∧ s.pwrbal < 600 + staged + b.toNat ∧ v = 0x8000000000000002) →
        ∃ t, exec (.pwgive xd xa xb q) s = .next t ∧ OnlyMe s t (s.me.land (.x xd) v)) ∧
      (b ≠ 0 → p.devs.contains dev = true → 600 + staged + b.toNat ≤ s.pwrbal → ∃ t, exec (.pwgive xd xa xb q) s = .next t ∧
        t.part id = { p with give := p.give ++ [(dev, b.toNat)] } ∧ OnlyMe s { t with parts := s.parts } (s.me.land (.x xd) b)) ∧
      (∀ v, ((step < 20 ∨ 100 < step) ∧ v = 0x8000000000000001) ∨ (20 ≤ step ∧ step ≤ 100 ∧ late ∧ v = 0x8000000000000002) ∨
          (20 ≤ step ∧ step ≤ 100 ∧ ¬late ∧ full ∧ v = 0x8000000000000003) →
        ∃ t, exec (.clkepoch xd xa xb) s = .next t ∧ OnlyMe s { t with freeCtr := s.freeCtr } (s.me.land (.x xd) v)) ∧
      (20 ≤ step → step ≤ 100 → ¬late → ¬full → ∃ t, exec (.clkepoch xd xa xb) s = .next t ∧
        t.part id = { p with epochNew := p.epochNew ++ [(m, step)] } ∧ OnlyMe s { t with parts := s.parts, freeCtr := s.freeCtr } (s.me.land (.x xd) (word step))))

/-- 17 R399, R405, R410, 18 R428, R429, R431: an XINV ends once every station has acknowledged it, and with it the use of the entries that it
covers; a stop reaches a tile, which keeps its counts, and a resume lets every tile issue; stones arrive up to the device's maximum (log entry 41); balance,
average and duty change as the rules say; a tile's energy is charged to its partition and its launch, and a shared consumer's in proportion
to the bytes moved, the rest of a division to any (the model's choice, log entry 77). -/
def Claims.PowerAndStops : Prop :=
  ∀ (s : State) (id : Nat),
    let e := s.cur.ev
    let k := e.tile
    let w := s.tile k
    let p := s.part id
    (∀ x, s.xinvs.find? (fun x => x.id == e.id) = some x →
      ((∃ r ∈ s.reqs, r.visits x.id = true) → exec .xinvComplete s = .next s) ∧
      ((∀ r ∈ s.reqs, r.visits x.id = false) → exec .xinvComplete s =
        .next { s with xinvs := s.xinvs.filter fun y => y.id != x.id, stale := s.stale.filter fun v => !x.covers v })) ∧
    (e.ok = false → s.partOf k = some id → p.stopped = true → w.gstopped = false →
      (∀ r ∈ s.reqs, r.tile = k → ∀ c v, r.op ≠ .waitv c v) → ∃ t, exec .gangStopArrival s = .next t ∧
        OnlyTile s t k { w with
          gstopped := true, core := { w.core with gscyc := s.cyc, gssent := w.core.sent, gsrecv := w.core.accepted } }) ∧
    (e.ok = false → e.part = id → p.valid = true → p.stopped = false → ∃ t, exec .gangResume s = .next t ∧
      (∀ j ∈ p.tiles, t.tile j = { s.tile j with gstopped := false }) ∧ (∀ j, j ∉ p.tiles → t.tile j = s.tile j) ∧
      { t with tiles := s.tiles } = s) ∧
    (∀ n, s.stones.find? (fun q => q.1 == e.id) = some (e.id, s.devId, n) → s.landed e.id = true → ∃ t, exec .stonesArrival s = .next t ∧
      t = { s.unload e.id with stones := s.stones.filter fun q => q.1 != e.id, pwrbal := s.pwrbal + min n (s.pwrMax - s.pwrbal) }) ∧
    (s.balDue = true → exec .pwrbalWrite s =
      .next { s with pwrbal := if 600 ≤ s.reqBal ∧ s.reqBal ≤ s.pwrMax then s.reqBal else s.pwrbal, balDue := false }) ∧
    (s.balDue = false → exec .pwrbalWrite s = .next s) ∧
    (exec .powerAverageUpdate s = .next { s with pwravg := e.a % 65536 }) ∧
    (∃ t, exec .dutyRecompute s = .next t ∧ { t with duty := s.duty } = s ∧
      t.duty = if s.pwravg ≤ s.pwrbal then 16 else max 4 (16 * s.pwrbal / s.pwravg)) ∧
    (p.valid = true →
      (∀ u, e.epochs = [(k, u)] → e.shared = [] → s.partOf k = some id →
        (p.running = none → ∃ t, exec .energyInterval s = .next t ∧
          t.sansPart id = ({ s with energy := s.energy + u, moved := [] } : State).sansPart id ∧
          t.part id = { p with penergy := (p.penergy + u) % 2 ^ 64 }) ∧
        (∀ fn n slot, p.running = some (fn, n) → assoc (s.function fn).slots n = some slot → ∃ t, exec .energyInterval s = .next t ∧
          t.part id = { p with penergy := (p.penergy + u) % 2 ^ 64, lenergy := (p.lenergy + u) % 2 ^ 64 } ∧
          assoc (t.function fn).energy (fieldAt slot.record 0x30 1) =
            some ((((assoc (s.function fn).energy (fieldAt slot.record 0x30 1)).getD 0) + u) % 2 ^ 64))) ∧
      (∀ c u j a b, e.epochs = [] → e.shared = [(c, u)] → s.movedThrough c = [(id, a), (j, b)] → id ≠ j → 0 < a + b → ∃ t rest,
        exec .energyInterval s = .next t ∧ rest ≤ 1 ∧ (u * a % (a + b) = 0 → rest = 0) ∧
        (t.part id).penergy = (p.penergy + (u * a / (a + b) + rest)) % 2 ^ 64 ∧ t.energy = s.energy + u ∧ t.moved = []))

/-- The statements above as one: SystemInstructions, PowerAndStops. -/
def Obligations.SystemAndPower : Prop :=
  Claims.SystemInstructions ∧ Claims.PowerAndStops

/-- 13 R291, R296, R297, 17 R402, R403, 18 R435: a slice that ends lets another ready entry take the region at the next commit, or restarts;
a deadline without a commit forces an abort. After SAVE the partition is in its firkin and off its tiles; the next ready entry of a
free region becomes resident, fresh or from the bytes of its firkin where a restore accepts them (what a save keeps beside the bytes,
and which restores are accepted, is the model's choice, log entry 43). -/
def Obligations.ContextsSwitch : Prop :=
  ∀ (s : State) (id : Nat) (c : ContextEntry),
    let e := s.cur.ev
    let p := s.part id
    let other := s.otherReady id
    let ended : State := s.modPart id fun p => { p with
      deadline := some (p.deadline.getD s.gclk), slice := if other ∨ c.slice = 0 then none else some s.gclk
      bar := { p.bar with saving := p.bar.saving || other } }
    (∀ g, e.part = id → s.entryOf id = some c → p.slice = some g → p.valid = true → p.stopped = false → c.state = 2 → c.slice ≠ 0 →
      250 * c.slice ≤ s.gclk - g → exec .sliceTimerExpiry s = .next ended) ∧
    (s.parts.find? (fun p => p.2.valid && p.2.region == e.a && p.2.entry == e.b) = some (id, p) → s.entryOf id = some c →
      p.stopped = false → c.state = 2 → exec .contextKick s = .next ended) ∧
    (∀ g, e.part = id → s.entryOf id = some c → p.deadline = some g → p.valid = true → p.stopped = false → p.bar.commit = none →
      p.forced = false → p.forcedLate = false → p.nd ≤ 1 → 250 * c.limit ≤ s.gclk - g → ∃ t, exec .preemptDeadlineExpiry s = .next t ∧
        t.part id = { p with forced := true } ∧ t.out = s.out ∧
        ∀ k ∈ s.liveTiles p, s.versioned k = true → s.isLate k = false →
          (t.tile k).causes.getLast? = some 0x0EA ∧ (t.tile k).vote = true) ∧
    (e.part = id → s.entryOf id = some c → p.valid = true → p.stopped = false → s.saveReady p = true →
      p.orgx + p.pw ≤ 64 → e.ok = false → ∃ t, exec .saveFirkin s = .next t ∧ (t.part id).valid = false ∧
        t.entryState id = 1 ∧ (∀ k ∈ p.tiles, t.tile k = { Tile.reset with seq := (s.tile k).seq }) ∧
        (Memory.wf s.hbm = true → memBytes t.hbm c.firkin 16 = toBytes 2 1 ++ toBytes 2 id ++ toBytes 4 p.ssnum ++ toBytes 2 p.pw ++
          toBytes 2 p.ph ++ toBytes 2 p.nd ++ toBytes 2 p.di) ∧
        ∃ f, assoc t.firkins c.firkin = some f ∧ f.partid = id ∧ f.ssnum = p.ssnum ∧ f.part = p ∧
          f.tiles = p.tiles.map fun k => (p.localRank k, (s.tile k).saved)) ∧
    (∀ g i d, s.region e.a = some g → g.next = some (i, c) → s.dirOf c.partid = some d → g.free = true → d.region = e.a → d.entry = i →
      (∀ q ∈ s.parts, ¬(q.2.valid = true ∧ q.2.region = e.a)) →
      let q := d.partid
      (c.fresh = true → e.ok = false → e.image = none → ∃ t, exec .entryMakeResident s = .next t ∧ (t.part q).valid = true ∧ (t.part q).ten = d.ten ∧
        (t.part q).orgx = d.orgx ∧ (t.part q).orgy = d.orgy ∧ (t.part q).pw = d.pw ∧ (t.part q).ph = d.ph ∧
        (∀ k ∈ (t.part q).tiles, t.tile k = { Tile.reset with seq := (s.tile k).seq }) ∧ (∀ h, t.region e.a = some h → h.last = i)) ∧
      (c.fresh = false → e.image = none →
        (s.imageAccepted c.firkin d = false → ∃ t, exec .firkinRestore s = .next t ∧ t.tiles = s.tiles ∧
          ∀ h x, t.region e.a = some h → assoc h.entries i = some x → x.state = 4 ∧ x.fault = 0x166) ∧
        (s.imageAccepted c.firkin d = true → ∃ t, exec .firkinRestore s = .next t ∧ (t.part q).valid = true ∧
          (t.part q).ssnum = ofBytes (memBytes s.hbm (c.firkin + 4) 4) ∧
          ∀ h x, t.region e.a = some h → assoc h.entries i = some x → x.state = 2)))

/-! ### The host, attestation, boot (18, 22) -/

/-- 18 R417-R423, 06 R121: a slot takes the bytes that the tenant writes, and with the last of them its record, queued or refused with the
lowest reason, unless the write is discarded (log entries 20, 45); the next launch of a partition starts on all its tiles, each with the boot task, the shape record
and empty engines, and keeps what log entry 44 says; a bit of CAUSE rises once and is cleared by the host. -/
def Obligations.LaunchesStart : Prop :=
  ∀ (s : State) (id : Nat),
    let e := s.cur.ev
    let f := s.function e.dev
    let old := (assoc f.slots e.slot).getD LaunchSlot.free
    let free := old.state ≠ 1 ∧ old.state ≠ 2
    let n := e.bytes.length
    (e.dev < 16 → e.slot < 32 → e.bytes ≠ [] → e.op + n ≤ 128 → s.booting = true ∨ s.tenantHolds e.dev = false ∨ ¬free →
      exec .launchSlotWrite s = .next (s.raiseBit e.dev 4)) ∧
    (e.dev < 16 → e.slot < 32 → e.bytes ≠ [] → e.op + n ≤ 128 → s.booting = false → s.tenantHolds e.dev = true → free →
      old.record.length = 128 → ∃ t q, exec .launchSlotWrite s = .next t ∧ assoc (t.function e.dev).slots e.slot = some q ∧
        q.record.length = 128 ∧
        (∀ i, i < 128 → q.record.getD i 0 = if e.op ≤ i ∧ i < e.op + n then e.bytes.getD (i - e.op) 0 else old.record.getD i 0) ∧
        t.tiles = s.tiles ∧ t.parts = s.parts ∧
        (e.op + n < 128 → q = { old with record := q.record } ∧ t.takes = s.takes) ∧
        (e.op + n = 128 → let reason := s.takeReason e.dev e.slot q.record
          q.state = (if reason = 0 then 1 else 4) ∧ q.reason = reason ∧ q.launch = fieldAt q.record 4 4 ∧ t.takes = s.takes + 1)) ∧
    (∀ n q l, let p := s.part id
      e.part = id → s.nextLaunch id = some (n, q) → p.bar.commit = none → s.shapeOf id (fieldAt q.record 0x10 8) = some l →
      l.length = 256 → p.pw < 2 ^ 16 → p.orgx + p.pw ≤ 64 →
      ((∃ k ∈ p.tiles, (s.strand k 15).st ≠ .free) → ∃ t, exec .launchStart s = .next t ∧ t.tiles = s.tiles ∧
        (assoc (t.function p.ten).slots n).map (fun q => (q.state, q.reason)) = some (4, 6)) ∧
      ((∀ k ∈ p.tiles, (s.strand k 15).st = .free) → ∃ t, exec .launchStart s = .next t ∧ (t.part id).ssnum = 0 ∧
        (t.part id).running = some (p.ten, n) ∧ (t.part id).entryPc = word (fieldAt q.record 8 8) ∧ (t.part id).sspol = 6 ∧ (t.part id).lenergy = 0 ∧
        (∀ k ∈ p.tiles, (t.tile k).eng = TileEng.reset ∧ (t.tile k).core.inbox = (s.tile k).core.inbox ∧
          (∃ task, (t.tile k).core.deque = [task] ∧ task.pc = word (fieldAt q.record 8 8) ∧ task.args.head? = some (word q.launch)) ∧
          (∀ j, t.strand k j = Strand.free) ∧ (t.tile k).openCore = (t.tile k).core ∧
          (Memory.wf (s.tile k).tlm = true → ∀ a, 0x18 ≤ a → a < 0x100 → memByte (t.tile k).tlm a = l.getD a 0)) ∧
        ∀ k, k ∉ p.tiles → t.tile k = s.tile k)) ∧
    (e.dev < 16 → ∃ t, exec .interruptCauseClear s = .next t ∧
      t.function e.dev = { f with cause := f.cause &&& ~~~(e.w.setWidth 16) } ∧ { t with functions := s.functions } = s) ∧
    (∀ fn bit, bit < 16 → ((s.raiseBit fn bit).function fn).cause = (s.function fn).cause ||| (1#16 <<< bit) ∧
      (s.raiseBit fn bit).out = s.out ++
        if (s.function fn).cause.getLsbD bit ∨ (s.function fn).mask.getLsbD bit then [] else [.interrupt fn bit])

/-- 18 R415, R428, R433-R435, Table 18.1: the host's writes of some bytes of directory entries, region headers and context entries take the
checks of their rules (that VALID is checked only where it is written is the model's choice, log entry 45); BAR 4 reads and writes memory as it stands at its home through the
function's partition, waits while a commit of other lines is under way and is performed after it, or answers ones and raises a cause; a read
of BAR 0 or BAR 2 answers the registers there; the registers of the windows take what is written. -/
def Obligations.HostAccesses : Prop :=
  ∀ (s : State),
    let e := s.cur.ev
    let n := e.bytes.length
    let put (old : List Byte) : List Byte :=
      (List.range 64).map fun i => if e.op ≤ i ∧ i < e.op + n then e.bytes.getD (i - e.op) 0 else old.getD i 0
    let carries (i : Nat) : Prop := e.op ≤ i ∧ i < e.op + n
    (∀ old, e.a < 256 → e.bytes ≠ [] → e.op + n ≤ 64 → old = (assoc s.directory e.a).getD ⟨List.replicate 64 0, false, 0, []⟩ →
      old.bytes.length = 64 →
      let d : DirEntry := { old with bytes := put old.bytes }
      let used := old.valid = true ∧ ∃ c, s.contextOfDir old = some c ∧ (c.state = 2 ∨ c.state = 3)
      let shaped := s.holdsFirkin old = true ∧ (d.pw ≠ old.pw ∨ d.ph ≠ old.ph)
      (used ∨ shaped → exec .directoryEntryWrite s = .next s) ∧
      (¬used → ¬shaped → ∃ t h, exec .directoryEntryWrite s = .next t ∧ assoc t.directory e.a = some h ∧ h.bytes = d.bytes ∧
        { t with directory := s.directory } = s ∧ (¬carries 3 → h = d) ∧
        (carries 3 → h.valid = (decide (fieldAt d.bytes 3 1 % 2 = 1) && s.entryAccepted e.a d)))) ∧
    (∀ g, e.a < 16 → e.bytes ≠ [] → e.op + n ≤ 64 → g = (s.region e.a).getD Region.blank →
      let l := put g.read
      ((∃ c ∈ g.entries, c.2.state = 2 ∨ c.2.state = 3) → exec .regionHeaderWrite s = .next s) ∧
      ((∀ c ∈ g.entries, c.2.state ≠ 2 ∧ c.2.state ≠ 3) → ∃ t h, exec .regionHeaderWrite s = .next t ∧ t.region e.a = some h ∧
        h.orgx = fieldAt l 0 2 ∧ h.orgy = fieldAt l 2 2 ∧ h.pw = fieldAt l 4 2 ∧ h.ph = fieldAt l 6 2 ∧
        h.nent = fieldAt l 8 1 ∧ h.entries = g.entries ∧ (carries 0xA → fieldAt l 0xA 1 % 2 = 0 → h.valid = false) ∧
        (¬carries 0xA → h.valid = g.valid) ∧ { t with regions := s.regions } = s)) ∧
    (∀ g old, e.a < 16 → e.b < 63 → e.bytes ≠ [] → e.op + n ≤ 64 → g = (s.region e.a).getD Region.blank →
      old = (assoc g.entries e.b).getD ⟨0, 0, 0, 0, 0, 0, true⟩ → old.state ≠ 2 → old.state ≠ 3 →
      let l := put old.read
      let st := fieldAt l 2 1 % 8
      (carries 2 → 1 < st ∨ (st = 1 ∧ s.dirOf (fieldAt l 0 2) = none) → exec .contextEntryWrite s = .next s) ∧
      (¬carries 2 ∨ st = 0 → ∃ t h c, exec .contextEntryWrite s = .next t ∧ t.region e.a = some h ∧ assoc h.entries e.b = some c ∧
        c.state = st ∧ c.partid = fieldAt l 0 2 ∧ c.slice = fieldAt l 4 2 ∧ c.limit = fieldAt l 6 2 ∧
        { t with regions := s.regions } = s)) ∧
    (e.op = 1 → exec .bar4Read s = .next { s with out := s.out ++ [.hostRead ((List.range e.b).map fun i => s.bar0 (e.a + i))] }) ∧
    (e.op = 2 → exec .bar4Read s = .next { s with out := s.out ++ [.hostRead ((List.range e.b).map fun i => s.bar2 e.dev (e.a + i))] }) ∧
    (∀ pa, e.op ≠ 1 → e.op ≠ 2 → e.dev < 16 → e.a + e.b ≤ 2 ^ 36 → 0 < e.b → e.a % 64 + e.b ≤ 64 →
      s.windowAt e.dev e.a .read = .at pa →
      let h : HostAccess := ⟨e.dev, pa, e.b, none⟩
      (s.hostWaits h = true → exec .bar4Read s = .next { s with hostHeld := s.hostHeld ++ [h] }) ∧
      (s.hostWaits h = false → badRange s.hbmBad pa e.b = false →
        exec .bar4Read s = .next { s with out := s.out ++ [.hostRead ((List.range e.b).map fun i => memByte s.hbm (pa + i))] })) ∧
    (∀ h, s.hostHeld = [h] → s.heldBack none h.pa h.size = false → s.releaseHost = ({ s with hostHeld := [] } : State).performHost h) ∧
    (e.op ≠ 1 → e.op ≠ 2 → e.dev < 16 → e.a + e.b ≤ 2 ^ 36 → 0 < e.b → e.a % 64 + e.b ≤ 64 →
      (∀ pa, s.windowAt e.dev e.a .read ≠ .at pa) → ∃ t, exec .bar4Read s = .next t ∧
      t.out.getLast? = some (.hostRead (List.replicate e.b 0xFF)) ∧ (t.function e.dev).cause.getLsbD 4 = true ∧ t.hbm = s.hbm) ∧
    (∀ pa, e.dev < 16 → e.a + n ≤ 2 ^ 36 → 0 < n → e.a % 64 + n ≤ 64 → s.windowAt e.dev e.a .write = .at pa →
      let h : HostAccess := ⟨e.dev, pa, n, some e.bytes⟩
      (s.hostWaits h = true → exec .bar4Write s = .next { s with hostHeld := s.hostHeld ++ [h] }) ∧
      (s.hostWaits h = false → partlyBad s.hbmBad pa n = false → Memory.wf s.hbm = true → ∃ t, exec .bar4Write s = .next t ∧
        t.tiles = s.tiles ∧ (∀ i, i < n → memByte t.hbm (pa + i) = e.bytes.getD i 0) ∧
        ∀ a, a < pa ∨ pa + n ≤ a → memByte t.hbm a = memByte s.hbm a)) ∧
    (e.op = 0 → e.a = 0x10 → exec .hostRegisterWrite s = .next { s with reqBal := e.w.toNat, balDue := true }) ∧
    (e.op = 2 → e.dev < 16 → ∃ t, exec .hostRegisterWrite s = .next t ∧ { t with functions := s.functions } = s ∧
      (e.a = 0x1208 → t.function e.dev = { s.function e.dev with mask := e.w.setWidth 16 }) ∧
      (e.a = 0x1600 → t.function e.dev = { s.function e.dev with hwbase := e.w }) ∧
      (e.a = 0x1608 → t.function e.dev = { s.function e.dev with hwpart := e.w.toNat % 65536 }))

/-- 18 R427: the seven attestation requests are answered and change nothing else: secured sessions are not offered, only RSAPSS_4096 and
SHA_512 are, only certificate slot 0 holds a chain, whose digest is SHA-512 of it, and four measurement blocks can be read one by one or
all: SHA-512 of the firmware images that the device has, of the calibration data, and of the fuses with CAPS; the bytes of the latter two, and
of an image that the device does not hold, are free, as are the answers' other bytes (the model's choice, log entry 46). -/
def Claims.AttestationAnswers : Prop :=
  ∀ (s : State),
    let e := s.cur.ev
    let answers (i : Instr) (a : SpdmAnswer) : Prop := ∃ t, exec i s = .next t ∧ { t with freeCtr := s.freeCtr } = { s with out := s.out ++ [.spdm a] }
    let block (i : Nat) : Nat × List Byte := (i, sha512 (
      if i = 4 then Config.fuseBytes s.fused s.keyFuse s.minFuse s.caps
      else match if i ≤ 2 then s.firmware[i - 1]? else none with
        | some f => f.body
        | none => Config.measuredBytes i))
    let chain := (List.range Config.certificateLength).map Config.certificateByte
    (∃ l, answers .getVersion (.version 1 3 l)) ∧ (∃ l, answers .getCapabilities (.capabilities false l)) ∧
    answers .negotiateAlgorithms (.algorithms true true) ∧ answers .getDigests (.digests (sha512 chain)) ∧
    (e.slot = 0 → e.a ≤ Config.certificateLength → answers .getCertificate (.certificate ((chain.drop e.a).take e.b))) ∧
    (e.slot ≠ 0 → answers .getCertificate .error ∧ answers .challenge .error) ∧
    (e.slot = 0 → ∃ l, l.length = 512 ∧ answers .challenge (.challengeAuth l)) ∧
    (e.a = 0xFF → answers .getMeasurements (.measurements [block 1, block 2, block 3, block 4])) ∧
    (1 ≤ e.a → e.a ≤ 4 → answers .getMeasurements (.measurements [block e.a])) ∧
    (e.a ≠ 0xFF → e.a = 0 ∨ 4 < e.a → answers .getMeasurements .error)

/-- 18 R424-R426, 22 R449-R452: a reset leaves memory, tiles and partitions empty in phase 1; a phase that ends leads to the next, or stays
with BOOTERR: phase 1 where a firmware image is refused, by its key's digest, its signature or its version (an image's layout is the model's, log entry 58); training in phase 2 leaves a link
DEGRADED or DOWN (that it raises no link event is the model's choice, log entry 7); a die that answers starts slot 0 of its boot
tile at device privilege at the entry address, where the firmware stands; one that does not fails phase 4; the controller
answers a map in ACK, and an accepted map stands in L2P. -/
def Claims.DeviceBoots : Prop :=
  ∀ (s : State),
    let e := s.cur.ev
    let k := 1024 * e.a
    let w := s.tile k
    (e.op ≠ 1 → ∃ t, exec .deviceReset s = .next t ∧ t.tiles = [] ∧ t.parts = [] ∧ t.hbm = [] ∧ t.hbmBad = [] ∧ t.reqs = [] ∧
      t.l2pOk = 0 ∧ t.flooded = 0 ∧ fieldOf t.devstat 0 0 = 0 ∧ fieldOf t.devstat 7 4 = 1 ∧ fieldOf t.devstat 31 16 = 0 ∧ t.out = s.out) ∧
    (e.op = 1 → s.bootErr = 0 → 1 ≤ s.phase → s.phase ≤ 3 →
      let fails := if s.phase = 1 then s.firmware.any s.refusesImage else e.ok
      (fails = true → exec .deviceReset s =
        .next { s with devstat := setField s.devstat 31 16 s.phase, out := s.out ++ [.interrupt physical 2] }) ∧
      (fails = false → ∃ t, exec .deviceReset s = .next t ∧ fieldOf t.devstat 7 4 = s.phase + 1 ∧ fieldOf t.devstat 31 16 = 0 ∧
        { t with devstat := s.devstat, links := s.links } = s ∧ (s.phase ≠ 2 → t.links = s.links) ∧
        ∀ n r, s.phase = 2 → e.shared = [(n, r)] → s.hasLink n = true → r < 6 →
          (r < railCount n → (t.link! n).railUp r = false ∧ (t.link! n).state = if (s.link! n).state = 2 then 3 else 0) ∧
          (railCount n ≤ r → (t.link! n).state = 0))) ∧
    (s.discovers e.a = true → s.floodAnswers e.a = true → e.a < 4 → e.bytes.length ≤ 0x4000 → ∃ t, exec .discoveryFlood s = .next t ∧
      t.flooded.getLsbD e.a = true ∧ (t.strand k 0).st = .live ∧ (t.strand k 0).pc = s.entryPc ∧ (t.strand k 0).priv = 2 ∧ (∀ n, 0 < n → t.strand k n = Strand.free) ∧
      (∀ i, i < e.bytes.length → memByte (t.tile k).tlm (0x10000 + i) = e.bytes.getD i 0) ∧ t.hbm = s.hbm ∧
      ∀ j, j ≠ k → t.tile j = s.tile j) ∧
    (s.discovers e.a = true → s.floodAnswers e.a = true → 0x4000 < e.bytes.length → Memory.wf s.hbm = true →
      ∃ t, exec .discoveryFlood s = .next t ∧ (t.strand k 0).pc = e.w ∧
        ∀ i, i < e.bytes.length - 0x4000 → memByte t.hbm (e.w.toNat + i) = e.bytes.getD (0x4000 + i) 0) ∧
    (∀ f, s.refusesImage f = true ↔ sha512 f.key ≠ s.keyFuse ∨
      signatureHolds f.key (Config.signedMessage f.version f.body) f.signature = false ∨ f.version < s.minFuse) ∧
    (s.discovers e.a = true → e.ok = true ∨ s.floodAnswers e.a = false → exec .discoveryTimeout s =
      .next { s with devstat := setField s.devstat 31 16 4, out := s.out ++ [.interrupt physical 2] }) ∧
    (s.booting = true → s.bootErr = 0 → s.diePresent e.a = true → s.l2pOk.getLsbD e.a = false → e.a < 4 → w.bad = [] → w.undo = [] → Memory.wf w.tlm = true →
      s.scratchFrom k ≤ 0x22008 → ofBytes (w.bytes 0x22010 8) = 1 → ofBytes (w.bytes 0x22008 8) = 0 →
      ∃ t, exec .mapInstallRequest s = .next t ∧
        ofBytes ((t.tile k).bytes 0x22008 8) = (if s.mapRefused e.a w then 2 else 1) ∧
        (s.mapRefused e.a w = true → fieldOf t.devstat 31 16 = 5 ∧ t.l2pOk = s.l2pOk) ∧
        (s.mapRefused e.a w = false → t.l2pOk.getLsbD e.a = true ∧ t.devstat = s.devstat ∧
          ∀ l, l < 992 → t.l2pWord (k + l) = word (w.mapEntry l)))

/-- The statements above as one: AttestationAnswers, DeviceBoots. -/
def Obligations.AttestationAndBoot : Prop :=
  Claims.AttestationAnswers ∧ Claims.DeviceBoots

/-! ### Memory errors, lost tiles, links (14, 17, 24) -/

/-- 17 R407-R409, 13 R283: an error that is corrected changes nothing but the tile's count of corrections; one that is not marks its word
and changes no byte, in TLM, the undo area, the tile store, HBM or the operand latch; an abort with 0x144 is cast for a tile of a partition that is lost before a
decision, also one that had arrived, and its requests are gone: what is left of it are packets of the barrier and of the device root beside
it; after a decision the abort is of the superstep that opens next. How errors come about is the model's choice (log entry 48). -/
def Obligations.MemoryErrors : Prop :=
  ∀ (s : State),
    let e := s.cur.ev
    let k := e.tile
    let w := s.tile k
    let quiet (t : State) : Prop := ∀ r ∈ t.reqs, r.sdev = s.devId → r.tile = k →
      r.leftTile = true ∨ ∃ code job flits goal, r.op = .cargo .barrier code job flits goal
    (e.ok = false → exec .scrubSector s = .next s) ∧
    (∀ i, s.physOf k = some i →
      let n := fieldOf (s.ptsWord i) 8 4
      (n ≠ 15 → ∀ ins, (ins = .scrubSector ∧ e.ok = true) ∨ (ins = .memoryBitError ∧ e.ok = false ∧ e.op = 0) → ∃ t, exec ins s = .next t ∧
        { t with pts := s.pts } = s ∧ fieldOf (t.ptsWord i) 8 4 = min (n + 1) 31 ∧ ∀ j, j ≠ i → t.ptsWord j = s.ptsWord j) ∧
      (n = 15 → e.ok = true → (s.partOf k).isSome = true → ∃ t, exec .scrubSector s = .next t ∧ fieldOf (t.ptsWord i) 2 0 = 5 ∧
        t.tiles = s.tiles ∧ t.l2p = s.l2p)) ∧
    (e.ok = false → e.op ≠ 0 → exec .memoryBitError s = .next s) ∧
    (e.ok = true → e.op = 0 → e.a < 0x10000 → ∃ t, exec .memoryBitError s = .next t ∧ t.tile k = { w with bad := (t.tile k).bad } ∧
      (∀ n, n ∈ (t.tile k).bad ↔ n = e.a ∨ n ∈ w.bad) ∧ { t with tiles := s.tiles } = s) ∧
    (e.ok = true → e.op = 2 → e.a < 0x2000 → ∃ t, exec .memoryBitError s = .next t ∧ t.tile k = { w with tsBad := (t.tile k).tsBad } ∧
      (∀ n, n ∈ (t.tile k).tsBad ↔ n = e.a ∨ n ∈ w.tsBad) ∧ { t with tiles := s.tiles } = s) ∧
    (e.ok = true → e.op = 3 → s.hasMemory (8 * e.a) 8 = true → ∃ t, exec .memoryBitError s = .next t ∧ { t with hbmBad := s.hbmBad } = s ∧
      ∀ n, n ∈ t.hbmBad ↔ n = e.a ∨ n ∈ s.hbmBad) ∧
    (e.ok = true → e.op = 1 → (assoc w.undo (e.a / 8)).isSome = true → ∃ t, exec .memoryBitError s = .next t ∧
      t.tile k = { w with undoBad := (t.tile k).undoBad } ∧ e.a ∈ (t.tile k).undoBad ∧ { t with tiles := s.tiles } = s) ∧
    (∀ p, e.ok = true → e.op = 4 → w.eng.front = some p → 8 * e.a < p.data.length → ∃ t q, exec .memoryBitError s = .next t ∧
      (t.tile k).eng = { w.eng with front := some q } ∧ q = { p with bad := q.bad } ∧ e.a ∈ q.bad ∧ { t with tiles := s.tiles } = s) ∧
    (w.lost = true → exec .tileLost s = .next s) ∧
    (∀ id, w.lost = false → s.partOf k = some id → (s.part id).bar.commit = none → ∃ t, exec .tileLost s = .next t ∧
      (t.tile k).lost = true ∧ (t.tile k).vote = false ∧ (t.tile k).causes = w.causes ++ [0x144] ∧ quiet t ∧
      (∀ i, s.physOf k = some i → fieldOf (t.ptsWord i) 2 0 = 4) ∧
      (∃ m ∈ (t.part id).bar.got, m.kind = .arrive ∧ m.src = .tile k ∧ m.vote = 23) ∧
      ((∀ d ∈ (s.part id).devs.take (s.part id).nd, s.devId ≤ d) → (∃ j ∈ (s.part id).tiles, j ≠ k ∧ (s.tile j).lost = false) →
        ⟨0x144, s.tileTval k⟩ ∈ (t.part id).due)) ∧
    (∀ id, w.lost = false → s.partOf k = some id → (s.part id).bar.commit ≠ none → ∃ t, exec .tileLost s = .next t ∧
      (t.tile k).lost = true ∧ (t.tile k).recast = [0x144] ∧ (t.tile k).causes = w.causes ∧ t.hbm = s.hbm ∧ quiet t)

/-- 14 R319-R323, 24 R459-R461 (reserved bits and refused commands as log entry 40 says): a slice in error is counted up to 0xFFFFFFFF, raises 0x103 as the count reaches its threshold, and from the
sixteenth in a row on loses the rail; a rail that is lost leaves its link degraded with 0x104, or
down with 0x105; a command starts unless one runs, which raises 0x107, and completes in the states of Table 14.8, a PAUSE once the link is drained; a die's next event is given to slot 0 of its service tile, which takes one at a time, the lowest cause first. -/
def Obligations.LinksChange : Prop :=
  ∀ (s : State),
    let e := s.cur.ev
    let n := e.a
    let l := s.link! n
    let die := s.linkDie n
    let room := (s.linkEvents.filter fun q => q.1 = die).length < 6
    let row := if e.ok then 1 else vget l.fails e.b 0 + 1
    let code (i : Instr) (c : Nat) : Prop := (i = .pause ∧ c = 1) ∨ (i = .resume ∧ c = 2) ∨ (i = .repair ∧ c = 3) ∨ (i = .retrain ∧ c = 4) ∨
      (i = .clrerr ∧ c = 5)
    (s.hasLink n = true → isSpan n = false → e.b < 5 → ∃ t, exec .railSliceError s = .next t ∧
      (t.link! n).errs e.b = min (l.errs e.b + 1) 0xFFFFFFFF ∧ (t.link! n).ctl = l.ctl ∧
      vget (t.link! n).fails e.b 0 = row ∧ (row < 16 ∨ l.railUp e.b = false → (t.link! n).stat = l.stat) ∧
      (16 ≤ row → (t.link! n).railUp e.b = false) ∧
      (room → l.state = 2 ∨ l.state = 3 → l.errs e.b < l.thr e.b → l.thr e.b = l.errs e.b + 1 →
        (die, 0x103, (linkTval n e.b).toNat) ∈ t.linkEvents) ∧
      (∀ r, r < 5 → r ≠ e.b → (t.link! n).errs r = l.errs r) ∧ (t.link! n).thr e.b = l.thr e.b ∧
      (∀ j, j ≠ n → t.link! j = s.link! j) ∧ t.tiles = s.tiles) ∧
    (room → s.hasLink n = true → e.b < railCount n → l.railUp e.b = true →
      let l' := l.setRail e.b false
      ∃ t, exec .railLost s = .next t ∧ (t.link! n).railUp e.b = false ∧ t.tiles = s.tiles ∧ (∀ j, j ≠ n → t.link! j = s.link! j) ∧
        (l.state = 2 → 20 ≤ l'.buffer n → (t.link! n).state = 3 ∧ (die, 0x104, (linkTval n e.b).toNat) ∈ t.linkEvents) ∧
        (l.state = 3 → (t.link! n).state = 0 ∧ (die, 0x105, (linkTval n e.b).toNat) ∈ t.linkEvents) ∧
        (l.state ≠ 2 → l.state ≠ 3 → 20 ≤ l'.buffer n → (t.link! n).state = l.state)) ∧
    (s.hasLink n = true → ∃ t, exec .receiveBufferEntryRetired s = .next t ∧ (t.link! n).retired = l.retired + 1 ∧
      fieldOf (t.link! n).stat 47 40 = ({ l with retired := l.retired + 1 } : Link).buffer n ∧ t.tiles = s.tiles) ∧
    (∀ i c, code i c → s.hasLink n = true →
      (l.cstat = 1 → room → ∃ t, exec i s = .next t ∧
        t = { s with linkEvents := s.linkEvents ++ [(die, 0x107, (linkTval n (e.b % 8)).toNat)] }) ∧
      (l.cstat ≠ 1 → ∃ t, exec i s = .next t ∧ (t.link! n).cstat = 1 ∧ fieldOf (t.link! n).ctl 3 0 = c ∧
        fieldOf (t.link! n).ctl 43 32 = e.b % 2 ^ 12 ∧ (t.link! n).rails = l.rails ∧
        (t.link! n).state = (if c = 4 ∧ (l.state = 4 ∨ l.state = 0) ∧ e.b % 8 < railCount n then 5 else l.state) ∧
        { t with links := s.links } = s ∧ ∀ j, j ≠ n → t.link! j = s.link! j)) ∧
    (s.hasLink n = true → l.cstat = 1 → room → 20 ≤ l.buffer n → isSpan n = false →
      let c := fieldOf l.ctl 3 0
      let r := fieldOf l.ctl 34 32
      let m := fieldOf l.ctl 35 35
      let left := if n < 4 then l.spares r m < 4 else ((List.range 5).map fun r => l.spares r 0 + l.spares r 1).sum < 2
      (c = 1 ∧ (l.state = 2 ∨ l.state = 3) ∧ s.drained n = false → exec .linkCommandComplete s = .next s) ∧
      (¬(c = 1 ∧ (l.state = 2 ∨ l.state = 3) ∧ s.drained n = false) → ∃ t, exec .linkCommandComplete s = .next t ∧ (die, 0x107, (linkTval n r).toNat) ∈ t.linkEvents ∧ t.tiles = s.tiles ∧
        (c = 1 → (l.state = 2 ∨ l.state = 3) → (t.link! n).state = 4 ∧ (t.link! n).cstat = 2) ∧
        (c = 1 → l.state ≠ 2 → l.state ≠ 3 → (t.link! n).state = l.state ∧ (t.link! n).cstat = 3) ∧
        (c = 2 → l.state = 4 → (∀ r, r < 5 → l.railUp r = true) → (t.link! n).state = 2 ∧ (t.link! n).cstat = 2) ∧
        (c = 2 → l.state = 4 → ((List.range 5).filter fun r => !l.railUp r).length = 1 → (t.link! n).state = 3 ∧ (t.link! n).cstat = 2) ∧
        (c = 3 → l.state = 4 → r < 5 → left → (t.link! n).spares r m = l.spares r m + 1 ∧ (t.link! n).cstat = 2) ∧
        (c = 3 → l.state = 4 → r < 5 → ¬left → (t.link! n).rails = l.rails ∧ (t.link! n).cstat = 3) ∧
        (c = 4 → l.state = 5 → r < 5 → e.ok = true → l.ctl.getLsbD 36 = false → (∀ q ∈ l.lostMod, q = (r, m)) →
          (t.link! n).railUp r = true ∧ (t.link! n).state = 4 ∧ (t.link! n).cstat = 2) ∧
        (c = 5 → r < 5 → (t.link! n).errs r = 0 ∧ (t.link! n).thr r = l.thr r ∧ (t.link! n).cstat = 2))) ∧
    (∀ q, let k := serviceTile n
      let st := s.strand k 0
      let gives (back : List (Nat × Nat × Nat)) (held : List HeldCause) : Prop := ∃ t, exec .linkEventDelivery s = .next t ∧
        t.linkEvents = back ++ s.linkEvents.erase q ∧ t.strand k 0 = { st with held := held } ∧
        (∀ j, j ≠ 0 → t.strand k j = s.strand k j) ∧ ∀ j, j ≠ k → t.tile j = s.tile j
      s.nextLinkEvent n = some q → st.st = .live →
        (st.linkBusy = true ∨ (∃ h ∈ st.held, isLinkCause h.cause = true ∧ h.cause ≤ q.2.1) → exec .linkEventDelivery s = .next s) ∧
        (st.linkBusy = false → (∀ h ∈ st.held, isLinkCause h.cause = false) → gives [] (st.held ++ [⟨q.2.1, word q.2.2⟩])) ∧
        ∀ h, st.linkBusy = false → st.held = [h] → isLinkCause h.cause = true → q.2.1 < h.cause →
          gives [(n, h.cause, h.tval.toNat)] [⟨q.2.1, word q.2.2⟩])

/-! ### Encodings (02, 03) -/

/-- 02 R25-R34, 03 R58-R61: every bundle that the encodings can hold has words, and those words decode to it: no operand at any value
loses a bit. -/
def Obligations.DecodeEncodesBack : Prop :=
  ∀ b : Bundle, b.wellFormed = true → ∃ w, encodeBundle b = some w ∧ decodeBundle w = .ok b

/-- 03 R61-R64: two words decode to at most one bundle, which is well formed and has those words as its only encoding; every other pair
of words raises a cause of Table 3.6 that is not reserved. -/
def Obligations.DecodeIsExact : Prop :=
  ∀ w : Words,
    (∀ b, decodeBundle w = .ok b → b.wellFormed = true ∧ encodeBundle b = some w) ∧
    ∀ c, decodeBundle w = .error c → c ≤ 0x006 ∨ (0x010 ≤ c ∧ c ≤ 0x016)

/-- 03 R57: C code 0x00 is assigned to no instruction, paired or lone, and raises cause 0x000. -/
def Obligations.CodeZeroIsUnassigned : Prop :=
  ∀ w : Words, w.w0.extractLsb' 15 8 = 0 ∧ w.w0.getLsbD 31 = false ∨
      w.w0.extractLsb' 14 8 = 0 ∧ w.w0.getLsbD 22 = false ∧ w.w0.getLsbD 31 = true →
    decodeBundle w = .error 0x000

/-- Words written out from the encodings of 02, 03, 05 and 17 decode to the bundles that they stand for. -/
def Obligations.EncodingWords : Prop :=
  decodeBundle ⟨0x08131182, 0x06234500⟩ =
    .ok (.paired 1 ⟨0, false⟩ (.ld64 2 ⟨3, .units 2, false, 0⟩) ⟨0, false⟩ (.cmpLtS 3 4 5)) ∧
  decodeBundle ⟨0x88408440, 0x00001388⟩ = .ok (.lone 1 ⟨0, false⟩ (.addi 1 1 5000)) ∧
  decodeBundle ⟨0x88350000, 0x00000012⟩ = .ok (.lone 1 ⟨0, false⟩ (.trap 0x12)) ∧
  decodeBundle ⟨0x88341000, 0x00000040⟩ = .ok (.lone 1 ⟨0, false⟩ (.csrr 4 0 0x40)) ∧
  decodeBundle ⟨0x00000000, 0x00000000⟩ = .error 0x000

/-! ### Issue (02, 06) -/

/-- 02 R36, R37: a general register, x0 among them, holds what is written to it, and no other general register changes with it; p0 reads 1 whatever
is written to it, a write to it changes nothing, and marking it marks nothing. -/
def Obligations.RegisterFiles : Prop :=
  ∀ (s : State) (st : Strand) (v : Word),
    (∀ r q : Reg, vget (st.setReg (.x r) v).x q.toNat 0 = if q = r then v else vget st.x q.toNat 0) ∧
    s.rp 0 = true ∧ st.pv 0 = true ∧ st.setReg (.p 0) v = st ∧ st.mark (.p 0) = st ∧ st.pending (.p 0) = false

/-- 02 R30: a paired bundle both of whose slots name a register as a destination, p0 apart, takes 0x022 with that register's code
whatever its guards, and neither slot takes effect: of the rest only what the issue stage notes of the turn may change, `v` and `at'`. -/
def Obligations.WriteConflicts : Prop :=
  ∀ (s : State) (k n u : Nat) (old : Bool) (l : List Byte) (stall : BitVec 4) (gc ga : Guard) (c a : Instr) (r : RegName),
    let st := s.strand k n
    let w := Words.ofBytes l
    s.mayIssue k n = true → st.early = none → s.fetch k (s.staleFor old) st.pc = .bytes l →
    decodeBundle w = .ok (.paired stall gc c ga a) → w.w1 ≠ emptyA → st.askip = false →
    (∀ q ∈ (s.beginIssue k n true).slotNames ⟨gc, c⟩ ++ (s.beginIssue k n true).slotNames ⟨ga, a⟩, st.pending q = false) →
    st.metFault ((s.beginIssue k n true).slotNames ⟨gc, c⟩ ++ (s.beginIssue k n true).slotNames ⟨ga, a⟩)
      (c.endsStrand || a.endsStrand) = none →
    r ≠ .p 0 → r ∈ c.dests → r ∈ a.dests →
    let turned (v : Nat) (at' : Option Nat) : State := (s.modCore k fun c => { c with u := v }).modStrand k n fun st => { st with last := at', fetched := none }
    ∃ q v at', q ∈ c.dests ∧ q ∈ a.dests ∧
      s.turnOf k n u old = .next (((turned v at').beginIssue k n false).trapAtIssue 0x022 (word q.code))

/-- 02 R31, R43, 03 R62, 06 R114, R117, 07 R148, 17 R387: before a bundle of its own a strand takes a cause that is due, the trap of a fetch
that faults, or a deferred fault that the bundle meets, none of which is a turn of the issue stage; on its turn it takes the trap of an
encoding, with the offending word as its value; a bundle that names a pending register waits. A trap counts as the choice of the issue stage
in its cycle (the model's reading, log entry 64). -/
def Claims.TurnsAreTaken : Prop :=
  ∀ (s : State) (k n u : Nat) (old : Bool),
    let st := s.strand k n
    let took := (s.modCore k fun c => { c with u := u }).modStrand k n fun st => { st with last := some s.cyc, fetched := none }
    let before (t : State) : Prop := s.beforeBundle k n old = t ∧ s.turnOf k n u old = .next s
    (s.mayIssue k n = false → before s) ∧
    (s.mayIssue k n = true → ∀ c, st.early = some c →
      before (match c with | .held i => s.takeHeld k n i | .fault i => s.takeFault k n i)) ∧
    (s.mayIssue k n = true → st.early = none →
      (∀ c, s.fetch k (s.staleFor old) st.pc = .fault c → c ≠ 0x142 → before (s.takeTrap k n ⟨c, st.pc, st.pc, st.askip, .none⟩)) ∧
      (s.fetch k (s.staleFor old) st.pc = .held → before s) ∧
      ∀ l, s.fetch k (s.staleFor old) st.pc = .bytes l → let w := Words.ofBytes l
        (∀ c, decodeBundle w = .error c → s.beforeBundle k n old = s ∧
          s.turnOf k n u old = .next ((took.beginIssue k n false).trapAtIssue c (word (if c < 0x10 then w.w0.toNat else w.w1.toNat)))) ∧
        ∀ b, decodeBundle w = .ok b →
          let slots := b.slots (decide (w.w1 = emptyA) || st.askip)
          let named := slots.flatMap (s.beginIssue k n b.isPaired).slotNames
          (∀ q, st.pending q = true → q ∈ named → before s) ∧
          (∀ i, (∀ q ∈ named, st.pending q = false) → st.metFault named (slots.any fun sl => sl.i.endsStrand) = some i →
            before (s.takeFault k n i)))

/-- 02 R28, R29, R31, R33, 06 R114, R115: in the cycle of a tile's turn, no other tile leaving an earlier cycle without an issue, after its
strands took what is due before their bundles, when the bytes at the pc of the eligible strand that its issue stage chooses decode to a bundle
that nothing holds back, the step is that bundle's issue: of a lone instruction its meaning where its guard is true, of a pair the A slot's
meaning and then the C slot's, with the pc at the next bundle and the stall count running; what settles at once follows. -/
def Obligations.StepRunsDecoded : Prop :=
  ∀ (s : State) (k late n urgent : Nat) (old : Bool) (rest : List Choice) (l : List Byte) (b : Bundle),
    let r := ({ s with agenda := rest }).begin
    let at' := r.passTo (r.turnCycle k)
    let met := (at'.modTile k fun t => { t with nextIssue := at'.cyc + 1 }).takeCauses k late old
    let l' := met.contenders k late (met.staleFor old)
    let v := met.keepFetched k l'
    let u := v.modCore k fun c => { c with u := urgent }
    let w := Words.ofBytes l
    let st := u.strand k n
    let begun : State := (u.beginIssue k n b.isPaired).modStrand k n fun st => st.issued u.cyc w b
    let run (g : Guard) (i : Instr) (v : State) : Host.Outcome State Fault Refusal := if v.guardTrue g then exec i v else .next v
    let ends (m : BitVec 4) (v : State) : State := v.modStrand k n fun st => st.advance (max m.toNat 1)
    s.agenda = .issue k late old :: rest → r.mayPass k (r.turnCycle k) = true → v.choose k l' = some (n, urgent) →
    v.mayIssue k n = true → st.early = none → v.fetch k (v.staleFor old) st.pc = .bytes l →
    decodeBundle w = .ok b → v.readySlots k n w b = .go w b →
    step s = settled (u.issue k n w b) ∧
    (∀ m g i, b = .lone m g i →
      (∀ v, run g i begun = .next v → u.issue k n w b = .next (ends m v)) ∧
      ∀ f, run g i begun = .fault f → u.issue k n w b = .fault f) ∧
    (∀ m gc c ga a, b = .paired m gc c ga a → w.w1 ≠ emptyA → st.askip = false →
      ∀ v v', run ga a begun = .next v → run gc c v = .next v' → u.issue k n w b = .next (ends m (begun.orderEngines v'))) ∧
    (∀ m gc c ga a, b = .paired m gc c ga a → w.w1 = emptyA ∨ st.askip = true →
      ∀ v, run gc c begun = .next v → u.issue k n w b = .next (ends m (begun.orderEngines v)))

/-- 06 R115: of the eligible strands, in the order of their slots, the issue stage takes an urgent one where there is one and either every
one is urgent or U is below 3, else one that is not urgent; of those the one whose latest issue is earliest, one that has not issued before
all others, and of several the lowest slot. U counts the urgent ones taken before others, and is 0 after another. -/
def Claims.IssueStageChooses : Prop :=
  ∀ (s : State) (k : Nat) (l : List Nat), l.Pairwise (· < ·) →
    let u := (s.tile k).core.u
    let urgent (n : Nat) : Prop := (s.strand k n).urg = true
    let first := (∃ m ∈ l, urgent m) ∧ ((∀ m ∈ l, urgent m) ∨ u < 3)
    let since (n : Nat) : Nat := match (s.strand k n).last with
      | none => 0
      | some c => c + 1
    (l = [] → s.choose k l = none) ∧
    (l ≠ [] → ∃ n v, s.choose k l = some (n, v) ∧ n ∈ l ∧ (urgent n ↔ first) ∧
      (first → (∀ m ∈ l, urgent m) → v = u) ∧ (first → ¬(∀ m ∈ l, urgent m) → v = u + 1) ∧ (¬first → v = 0) ∧
      ∀ m ∈ l, (urgent m ↔ urgent n) → since n < since m ∨ since n = since m ∧ n ≤ m)

/-- 02 R31, R40-R44, 06 R114, 07 R148: a bundle that names no pending register, meets no deferred fault and has no conflict issues where no slot
finds a reason to wait or a trap, and with CHK set none reads or writes a register in its shadow; a slot that does, the C slot first, traps
with 0x020 for a register that it reads, else with 0x021, and with the lowest of their codes (that order and that code are the model's choice,
log entry 64); without such a trap a slot's reason to wait holds the bundle, and of two slots' traps that of the lower class is taken, the C
slot's on equal classes. -/
def Claims.ReadyBundlesIssue : Prop :=
  ∀ (s : State) (k n : Nat) (w : Words) (b : Bundle),
    let st := s.strand k n
    let slots := b.slots (decide (w.w1 = emptyA) || st.askip)
    let u := s.beginIssue k n b.isPaired
    let hot (q : RegName) : Prop := ∃ f ∈ st.flight, f.reg = q
    let clear (sl : Slot) : Prop := ∀ q ∈ u.slotReads sl ++ u.slotWrites sl, ¬hot q
    let lowest (l : List RegName) (v : Word) : Prop := ∃ r ∈ l, hot r ∧ (∀ q ∈ l, hot q → r.code ≤ q.code) ∧ v = word r.code
    let quiet := st.chk = false ∨ ∀ sl ∈ slots, clear sl
    (∀ q ∈ slots.flatMap u.slotNames, st.pending q = false) →
    st.metFault (slots.flatMap u.slotNames) (slots.any fun sl => sl.i.endsStrand) = none → conflict slots = none →
    (st.chk = true → ∀ pre sl post, slots = pre ++ sl :: post → (∀ t ∈ pre, clear t) →
      ((∃ q ∈ u.slotReads sl, hot q) → ∃ v, lowest (u.slotReads sl) v ∧ s.readySlots k n w b = .trap 0x020 v) ∧
      ((∀ q ∈ u.slotReads sl, ¬hot q) → (∃ q ∈ u.slotWrites sl, hot q) →
        ∃ v, lowest (u.slotWrites sl) v ∧ s.readySlots k n w b = .trap 0x021 v)) ∧
    (quiet → (∀ sl ∈ slots, u.probe sl = (false, none)) → s.readySlots k n w b = .go w b) ∧
    (quiet → (∃ sl ∈ slots, (u.probe sl).1 = true) → s.readySlots k n w b = .waits) ∧
    (quiet → ∀ sl c v, slots = [sl] → u.probe sl = (false, some (c, v)) → s.readySlots k n w b = .trap c v) ∧
    (quiet → ∀ sc sa cc vc ca va, slots = [sc, sa] → u.probe sc = (false, some (cc, vc)) → u.probe sa = (false, some (ca, va)) →
      s.readySlots k n w b = if ca / 32 < cc / 32 then .trap ca va else .trap cc vc)

/-- The statements above as one: TurnsAreTaken, IssueStageChooses, ReadyBundlesIssue. -/
def Obligations.TurnsOfStrands : Prop :=
  Claims.TurnsAreTaken ∧ Claims.IssueStageChooses ∧ Claims.ReadyBundlesIssue

/-! ### Every step -/

/-- Every step keeps memory in its canonical form, so that equal memories are equal data (a convention of the model, log entry 11). -/
def Obligations.MemoryStaysCanonical : Prop :=
  ∀ s t : State, s.memoryCanonical → step s = .next t → t.memoryCanonical

/-- The memory at reset is in its canonical form. -/
def Obligations.MemoryCanonicalAtReset : Prop := State.reset.memoryCanonical

/-- 00 R2, 01 R7, R16, 18 R426: what manufacture and installation fix, the device's CAPS, its fused tiles, its fused key digest and
minimum version, its id and the number of groups, is changed by no step (that a state of the model holds them is its choice, log entry 1). -/
def Obligations.IdentityStays : Prop :=
  ∀ s t : State, step s = .next t → t.caps = s.caps ∧ t.fused = s.fused ∧ t.devId = s.devId ∧ t.ngroups = s.ngroups ∧
    t.keyFuse = s.keyFuse ∧ t.minFuse = s.minFuse

/-- No instruction and no operation is refused, in any state, and so no step is; the one fault is a physical address at which the
device holds no memory (07 R145; that such an access stops the machine is the model's choice, log entry 51). -/
def Obligations.NothingIsRefused : Prop :=
  (∀ (i : Instr) (s : State), (∃ t, exec i s = .next t) ∨ ∃ pa, exec i s = .fault (.noMemory pa)) ∧
    ∀ s : State, (∃ t, step s = .next t) ∨ ∃ pa, step s = .fault (.noMemory pa)
end

