-- ==== Sys2Proof/Laws/Memory.lean ====
section
/-! SUPPORT. Keyed lists and memory: what a read gives after a write, and that every memory operation keeps the canonical form. -/

namespace Sys2Proof.Machine

/-! ### Keyed lists -/

@[simp] theorem assoc_assocPut {α : Type} (l : List (Nat × α)) (n m : Nat) (v : α) :
    assoc (assocPut l n v) m = if n = m then some v else assoc l m := by
  induction l with
  | nil => simp [assocPut, assoc]
  | cons p l ih =>
    simp only [assocPut]
    split
    · simp [assoc]
    · split
      · rename_i h; subst h; simp only [assoc]; split <;> simp_all
      · simp only [assoc, ih]
        by_cases hp : p.1 = m
        · by_cases hn : n = m
          · omega
          · simp [hp, hn]
        · simp [hp]

theorem assocPut_assocPut {α : Type} (l : List (Nat × α)) (n : Nat) (v w : α) :
    assocPut (assocPut l n v) n w = assocPut l n w := by
  induction l with
  | nil => simp [assocPut]
  | cons p l ih =>
    simp only [assocPut]
    split
    · simp [assocPut]
    · split
      · simp [assocPut]
      · rename_i h₁ h₂; simp [assocPut, h₁, h₂, ih]

theorem rising_lt {α : Type} {p : Nat × α} {l : List (Nat × α)} (h : rising (p :: l) = true) {q : Nat × α} (hq : q ∈ l) :
    p.1 < q.1 := by
  simp only [rising, Bool.and_eq_true, List.all_eq_true, decide_eq_true_eq] at h
  exact h.1 q hq

theorem rising_tail {α : Type} {p : Nat × α} {l : List (Nat × α)} (h : rising (p :: l) = true) : rising l = true := by
  simp only [rising, Bool.and_eq_true] at h
  exact h.2

theorem assocPut_mem {α : Type} {l : List (Nat × α)} {n : Nat} {v : α} {q : Nat × α} (h : q ∈ assocPut l n v) :
    q = (n, v) ∨ q ∈ l := by
  induction l with
  | nil => simpa [assocPut] using h
  | cons p l ih =>
    simp only [assocPut] at h
    split at h
    · simpa using h
    · split at h
      · rcases List.mem_cons.1 h with h | h
        · exact .inl h
        · exact .inr (List.mem_cons_of_mem _ h)
      · rcases List.mem_cons.1 h with h | h
        · exact .inr (by simp [h])
        · rcases ih h with h | h
          · exact .inl h
          · exact .inr (List.mem_cons_of_mem _ h)

theorem rising_assocPut {α : Type} {l : List (Nat × α)} (h : rising l = true) (n : Nat) (v : α) :
    rising (assocPut l n v) = true := by
  induction l with
  | nil => simp [assocPut, rising]
  | cons p l ih =>
    simp only [assocPut]
    split
    · rename_i hn
      simp only [rising, Bool.and_eq_true, List.all_eq_true, decide_eq_true_eq]
      refine ⟨fun q hq => ?_, by simpa [rising] using h⟩
      rcases List.mem_cons.1 hq with hq | hq
      · simpa [hq] using hn
      · have := rising_lt h hq; omega
    · split
      · rename_i hn
        simp only [rising, Bool.and_eq_true, List.all_eq_true, decide_eq_true_eq]
        exact ⟨fun q hq => by have := rising_lt h hq; simp only [hn]; omega, rising_tail h⟩
      · rename_i h₁ h₂
        simp only [rising, Bool.and_eq_true, List.all_eq_true, decide_eq_true_eq]
        refine ⟨fun q hq => ?_, ih (rising_tail h)⟩
        rcases assocPut_mem hq with hq | hq
        · simp only [hq]; omega
        · exact rising_lt h hq

theorem assocDrop_mem {α : Type} {l : List (Nat × α)} {n : Nat} {q : Nat × α} (h : q ∈ assocDrop l n) : q ∈ l := by
  induction l with
  | nil => simp [assocDrop] at h
  | cons p l ih =>
    simp only [assocDrop] at h
    split at h
    · exact List.mem_cons_of_mem _ h
    · rcases List.mem_cons.1 h with h | h
      · simp [h]
      · exact List.mem_cons_of_mem _ (ih h)

theorem rising_assocDrop {α : Type} {l : List (Nat × α)} (h : rising l = true) (n : Nat) : rising (assocDrop l n) = true := by
  induction l with
  | nil => simp [assocDrop, rising]
  | cons p l ih =>
    simp only [assocDrop]
    split
    · exact rising_tail h
    · simp only [rising, Bool.and_eq_true, List.all_eq_true, decide_eq_true_eq]
      exact ⟨fun q hq => rising_lt h (assocDrop_mem hq), ih (rising_tail h)⟩

theorem assoc_eq_none {α : Type} {l : List (Nat × α)} {n : Nat} (h : ∀ q ∈ l, q.1 ≠ n) : assoc l n = none := by
  induction l with
  | nil => rfl
  | cons p l ih =>
    simp only [assoc]
    rw [if_neg (h p (by simp))]
    exact ih fun q hq => h q (List.mem_cons_of_mem _ hq)

theorem assoc_assocDrop {α : Type} {l : List (Nat × α)} (h : rising l = true) (n m : Nat) :
    assoc (assocDrop l n) m = if n = m then none else assoc l m := by
  induction l with
  | nil => simp [assocDrop, assoc]
  | cons p l ih =>
    simp only [assocDrop]
    split
    · rename_i hp
      by_cases hm : n = m
      · rw [if_pos hm]
        exact assoc_eq_none fun q hq => by have := rising_lt h hq; omega
      · rw [if_neg hm]
        simp only [assoc]
        rw [if_neg (by omega)]
    · rename_i hp
      simp only [assoc, ih (rising_tail h)]
      by_cases hm : n = m
      · simp [hm ▸ hp, hm]
      · simp [hm]

/-! ### Memory -/

theorem Memory.wf_iff (m : Memory) : Memory.wf m = true ↔ rising m = true ∧ ∀ c ∈ m, c.2 ≠ 0 := by
  simp [Memory.wf, List.all_eq_true]

theorem Memory.wf_nil : Memory.wf [] = true := rfl

/-- Writing one byte keeps the canonical form. -/
theorem memPut_wf {m : Memory} (h : Memory.wf m = true) (a : Nat) (b : Byte) : Memory.wf (memPut m a b) = true := by
  rw [Memory.wf_iff] at *
  unfold memPut
  split
  · exact ⟨rising_assocDrop h.1 a, fun c hc => h.2 c (assocDrop_mem hc)⟩
  · rename_i hb
    refine ⟨rising_assocPut h.1 a b, fun c hc => ?_⟩
    rcases assocPut_mem hc with hc | hc
    · simpa [hc, emptyByte] using hb
    · exact h.2 c hc

/-- A read after a write of one byte. -/
theorem memByte_memPut {m : Memory} (h : Memory.wf m = true) (a a' : Nat) (b : Byte) :
    memByte (memPut m a b) a' = if a = a' then b else memByte m a' := by
  rw [Memory.wf_iff] at h
  unfold memByte memPut
  split
  · rename_i hb
    rw [assoc_assocDrop h.1]
    split <;> simp [*]
  · rw [assoc_assocPut]
    split <;> simp [*]

/-- Writing bytes keeps the canonical form. -/
theorem memWrite_wf {m : Memory} (h : Memory.wf m = true) (a : Nat) (l : List Byte) : Memory.wf (memWrite m a l) = true := by
  induction l generalizing m a with
  | nil => exact h
  | cons b l ih => exact ih (memPut_wf h a b) (a + 1)

/-- A read after a write of bytes: the byte written there, or the byte that stood there. -/
theorem memByte_memWrite {m : Memory} (h : Memory.wf m = true) (a : Nat) (l : List Byte) (a' : Nat) :
    memByte (memWrite m a l) a' = if a ≤ a' ∧ a' < a + l.length then l.getD (a' - a) 0 else memByte m a' := by
  induction l generalizing m a with
  | nil => simp [memWrite] <;> omega
  | cons b l ih =>
    rw [memWrite, ih (memPut_wf h a b) (a + 1), memByte_memPut h]
    by_cases h₁ : a = a'
    · subst h₁; simp <;> omega
    · by_cases h₂ : a + 1 ≤ a' ∧ a' < a + 1 + l.length
      · rw [if_pos h₂, if_pos (by simp only [List.length_cons]; omega)]
        obtain ⟨k, hk⟩ : ∃ k, a' - a = k + 1 := ⟨a' - a - 1, by omega⟩
        rw [hk, show a' - (a + 1) = k by omega]
        simp
      · rw [if_neg h₂, if_neg h₁, if_neg (by simp only [List.length_cons]; omega)]

/-- Applying an overlay keeps the canonical form. -/
theorem overApply_wf {m : Memory} (h : Memory.wf m = true) (o : Overlay) : Memory.wf (overApply m o) = true := by
  induction o generalizing m with
  | nil => exact h
  | cons p o ih => exact ih (memPut_wf h p.1 p.2)

/-- A fold of writes of single bytes keeps the canonical form. -/
theorem foldl_memPut_wf {m : Memory} (h : Memory.wf m = true) (l : List (Nat × Byte)) :
    Memory.wf (l.foldl (fun m c => memPut m c.1 c.2) m) = true := by
  induction l generalizing m with
  | nil => exact h
  | cons c l ih => exact ih (memPut_wf h c.1 c.2)

/-- A tile's own write keeps the canonical form of its TLM (07 R138). -/
theorem Tile.write_wf {t : Tile} (h : Memory.wf t.tlm = true) (scr a : Nat) (l : List Byte) :
    Memory.wf (t.write scr a l).tlm = true := foldl_memPut_wf h _

end Sys2Proof.Machine
end

