-- ==== Sys2Proof/Laws/State.lean ====
section
/-! SUPPORT. What each named update of the state leaves unchanged, field by field, and what it makes of the part that it changes. -/

namespace Sys2Proof.Machine

/-! ### One lemma per field and update -/

@[simp] theorem State.setTile_parts (s : State) (k : Nat) (t : Tile) : (s.setTile k t).parts = s.parts := rfl
@[simp] theorem State.setTile_hbm (s : State) (k : Nat) (t : Tile) : (s.setTile k t).hbm = s.hbm := rfl
@[simp] theorem State.setTile_hbmBad (s : State) (k : Nat) (t : Tile) : (s.setTile k t).hbmBad = s.hbmBad := rfl
@[simp] theorem State.setTile_reqs (s : State) (k : Nat) (t : Tile) : (s.setTile k t).reqs = s.reqs := rfl
@[simp] theorem State.setTile_holders (s : State) (k : Nat) (t : Tile) : (s.setTile k t).holders = s.holders := rfl
@[simp] theorem State.setTile_counters (s : State) (k : Nat) (t : Tile) : (s.setTile k t).counters = s.counters := rfl
@[simp] theorem State.setTile_stationErrs (s : State) (k : Nat) (t : Tile) : (s.setTile k t).stationErrs = s.stationErrs := rfl
@[simp] theorem State.setTile_xcnt (s : State) (k : Nat) (t : Tile) : (s.setTile k t).xcnt = s.xcnt := rfl
@[simp] theorem State.setTile_trej (s : State) (k : Nat) (t : Tile) : (s.setTile k t).trej = s.trej := rfl
@[simp] theorem State.setTile_linkErrs (s : State) (k : Nat) (t : Tile) : (s.setTile k t).linkErrs = s.linkErrs := rfl
@[simp] theorem State.setTile_lastIn (s : State) (k : Nat) (t : Tile) : (s.setTile k t).lastIn = s.lastIn := rfl
@[simp] theorem State.setTile_outFree (s : State) (k : Nat) (t : Tile) : (s.setTile k t).outFree = s.outFree := rfl
@[simp] theorem State.setTile_windows (s : State) (k : Nat) (t : Tile) : (s.setTile k t).windows = s.windows := rfl
@[simp] theorem State.setTile_notes (s : State) (k : Nat) (t : Tile) : (s.setTile k t).notes = s.notes := rfl
@[simp] theorem State.setTile_gclk (s : State) (k : Nat) (t : Tile) : (s.setTile k t).gclk = s.gclk := rfl
@[simp] theorem State.setTile_cyc (s : State) (k : Nat) (t : Tile) : (s.setTile k t).cyc = s.cyc := rfl
@[simp] theorem State.setTile_links (s : State) (k : Nat) (t : Tile) : (s.setTile k t).links = s.links := rfl
@[simp] theorem State.setTile_linkEvents (s : State) (k : Nat) (t : Tile) : (s.setTile k t).linkEvents = s.linkEvents := rfl
@[simp] theorem State.setTile_l2p (s : State) (k : Nat) (t : Tile) : (s.setTile k t).l2p = s.l2p := rfl
@[simp] theorem State.setTile_pts (s : State) (k : Nat) (t : Tile) : (s.setTile k t).pts = s.pts := rfl
@[simp] theorem State.setTile_l2pOk (s : State) (k : Nat) (t : Tile) : (s.setTile k t).l2pOk = s.l2pOk := rfl
@[simp] theorem State.setTile_caps (s : State) (k : Nat) (t : Tile) : (s.setTile k t).caps = s.caps := rfl
@[simp] theorem State.setTile_fused (s : State) (k : Nat) (t : Tile) : (s.setTile k t).fused = s.fused := rfl
@[simp] theorem State.setTile_keyFuse (s : State) (k : Nat) (t : Tile) : (s.setTile k t).keyFuse = s.keyFuse := rfl
@[simp] theorem State.setTile_minFuse (s : State) (k : Nat) (t : Tile) : (s.setTile k t).minFuse = s.minFuse := rfl
@[simp] theorem State.setTile_firmware (s : State) (k : Nat) (t : Tile) : (s.setTile k t).firmware = s.firmware := rfl
@[simp] theorem State.setTile_devId (s : State) (k : Nat) (t : Tile) : (s.setTile k t).devId = s.devId := rfl
@[simp] theorem State.setTile_ngroups (s : State) (k : Nat) (t : Tile) : (s.setTile k t).ngroups = s.ngroups := rfl
@[simp] theorem State.setTile_devstat (s : State) (k : Nat) (t : Tile) : (s.setTile k t).devstat = s.devstat := rfl
@[simp] theorem State.setTile_entryPc (s : State) (k : Nat) (t : Tile) : (s.setTile k t).entryPc = s.entryPc := rfl
@[simp] theorem State.setTile_pwrbal (s : State) (k : Nat) (t : Tile) : (s.setTile k t).pwrbal = s.pwrbal := rfl
@[simp] theorem State.setTile_pwravg (s : State) (k : Nat) (t : Tile) : (s.setTile k t).pwravg = s.pwravg := rfl
@[simp] theorem State.setTile_duty (s : State) (k : Nat) (t : Tile) : (s.setTile k t).duty = s.duty := rfl
@[simp] theorem State.setTile_clkstep (s : State) (k : Nat) (t : Tile) : (s.setTile k t).clkstep = s.clkstep := rfl
@[simp] theorem State.setTile_reqBal (s : State) (k : Nat) (t : Tile) : (s.setTile k t).reqBal = s.reqBal := rfl
@[simp] theorem State.setTile_balDue (s : State) (k : Nat) (t : Tile) : (s.setTile k t).balDue = s.balDue := rfl
@[simp] theorem State.setTile_energy (s : State) (k : Nat) (t : Tile) : (s.setTile k t).energy = s.energy := rfl
@[simp] theorem State.setTile_moved (s : State) (k : Nat) (t : Tile) : (s.setTile k t).moved = s.moved := rfl
@[simp] theorem State.setTile_hostHeld (s : State) (k : Nat) (t : Tile) : (s.setTile k t).hostHeld = s.hostHeld := rfl
@[simp] theorem State.setTile_flooded (s : State) (k : Nat) (t : Tile) : (s.setTile k t).flooded = s.flooded := rfl
@[simp] theorem State.setTile_stones (s : State) (k : Nat) (t : Tile) : (s.setTile k t).stones = s.stones := rfl
@[simp] theorem State.setTile_functions (s : State) (k : Nat) (t : Tile) : (s.setTile k t).functions = s.functions := rfl
@[simp] theorem State.setTile_directory (s : State) (k : Nat) (t : Tile) : (s.setTile k t).directory = s.directory := rfl
@[simp] theorem State.setTile_regions (s : State) (k : Nat) (t : Tile) : (s.setTile k t).regions = s.regions := rfl
@[simp] theorem State.setTile_firkins (s : State) (k : Nat) (t : Tile) : (s.setTile k t).firkins = s.firkins := rfl
@[simp] theorem State.setTile_saved (s : State) (k : Nat) (t : Tile) : (s.setTile k t).saved = s.saved := rfl
@[simp] theorem State.setTile_moving (s : State) (k : Nat) (t : Tile) : (s.setTile k t).moving = s.moving := rfl
@[simp] theorem State.setTile_steals (s : State) (k : Nat) (t : Tile) : (s.setTile k t).steals = s.steals := rfl
@[simp] theorem State.setTile_xinvs (s : State) (k : Nat) (t : Tile) : (s.setTile k t).xinvs = s.xinvs := rfl
@[simp] theorem State.setTile_stale (s : State) (k : Nat) (t : Tile) : (s.setTile k t).stale = s.stale := rfl
@[simp] theorem State.setTile_takes (s : State) (k : Nat) (t : Tile) : (s.setTile k t).takes = s.takes := rfl
@[simp] theorem State.setTile_out (s : State) (k : Nat) (t : Tile) : (s.setTile k t).out = s.out := rfl
@[simp] theorem State.setTile_cur (s : State) (k : Nat) (t : Tile) : (s.setTile k t).cur = s.cur := rfl
@[simp] theorem State.setTile_agenda (s : State) (k : Nat) (t : Tile) : (s.setTile k t).agenda = s.agenda := rfl
@[simp] theorem State.setTile_turn (s : State) (k : Nat) (t : Tile) : (s.setTile k t).turn = s.turn := rfl
@[simp] theorem State.setTile_alternate (s : State) (k : Nat) (t : Tile) : (s.setTile k t).alternate = s.alternate := rfl
@[simp] theorem State.setTile_missing (s : State) (k : Nat) (t : Tile) : (s.setTile k t).missing = s.missing := rfl
@[simp] theorem State.setTile_snag (s : State) (k : Nat) (t : Tile) : (s.setTile k t).snag = s.snag := rfl
@[simp] theorem State.setTile_wants (s : State) (k : Nat) (t : Tile) : (s.setTile k t).wants = s.wants := rfl
@[simp] theorem State.setTile_freeCtr (s : State) (k : Nat) (t : Tile) : (s.setTile k t).freeCtr = s.freeCtr := rfl
@[simp] theorem State.setTile_nextReq (s : State) (k : Nat) (t : Tile) : (s.setTile k t).nextReq = s.nextReq := rfl
@[simp] theorem State.modTile_parts (s : State) (k : Nat) (f : Tile → Tile) : (s.modTile k f).parts = s.parts := rfl
@[simp] theorem State.modTile_hbm (s : State) (k : Nat) (f : Tile → Tile) : (s.modTile k f).hbm = s.hbm := rfl
@[simp] theorem State.modTile_hbmBad (s : State) (k : Nat) (f : Tile → Tile) : (s.modTile k f).hbmBad = s.hbmBad := rfl
@[simp] theorem State.modTile_reqs (s : State) (k : Nat) (f : Tile → Tile) : (s.modTile k f).reqs = s.reqs := rfl
@[simp] theorem State.modTile_holders (s : State) (k : Nat) (f : Tile → Tile) : (s.modTile k f).holders = s.holders := rfl
@[simp] theorem State.modTile_counters (s : State) (k : Nat) (f : Tile → Tile) : (s.modTile k f).counters = s.counters := rfl
@[simp] theorem State.modTile_stationErrs (s : State) (k : Nat) (f : Tile → Tile) : (s.modTile k f).stationErrs = s.stationErrs := rfl
@[simp] theorem State.modTile_xcnt (s : State) (k : Nat) (f : Tile → Tile) : (s.modTile k f).xcnt = s.xcnt := rfl
@[simp] theorem State.modTile_trej (s : State) (k : Nat) (f : Tile → Tile) : (s.modTile k f).trej = s.trej := rfl
@[simp] theorem State.modTile_linkErrs (s : State) (k : Nat) (f : Tile → Tile) : (s.modTile k f).linkErrs = s.linkErrs := rfl
@[simp] theorem State.modTile_lastIn (s : State) (k : Nat) (f : Tile → Tile) : (s.modTile k f).lastIn = s.lastIn := rfl
@[simp] theorem State.modTile_outFree (s : State) (k : Nat) (f : Tile → Tile) : (s.modTile k f).outFree = s.outFree := rfl
@[simp] theorem State.modTile_windows (s : State) (k : Nat) (f : Tile → Tile) : (s.modTile k f).windows = s.windows := rfl
@[simp] theorem State.modTile_notes (s : State) (k : Nat) (f : Tile → Tile) : (s.modTile k f).notes = s.notes := rfl
@[simp] theorem State.modTile_gclk (s : State) (k : Nat) (f : Tile → Tile) : (s.modTile k f).gclk = s.gclk := rfl
@[simp] theorem State.modTile_cyc (s : State) (k : Nat) (f : Tile → Tile) : (s.modTile k f).cyc = s.cyc := rfl
@[simp] theorem State.modTile_links (s : State) (k : Nat) (f : Tile → Tile) : (s.modTile k f).links = s.links := rfl
@[simp] theorem State.modTile_linkEvents (s : State) (k : Nat) (f : Tile → Tile) : (s.modTile k f).linkEvents = s.linkEvents := rfl
@[simp] theorem State.modTile_l2p (s : State) (k : Nat) (f : Tile → Tile) : (s.modTile k f).l2p = s.l2p := rfl
@[simp] theorem State.modTile_pts (s : State) (k : Nat) (f : Tile → Tile) : (s.modTile k f).pts = s.pts := rfl
@[simp] theorem State.modTile_l2pOk (s : State) (k : Nat) (f : Tile → Tile) : (s.modTile k f).l2pOk = s.l2pOk := rfl
@[simp] theorem State.modTile_caps (s : State) (k : Nat) (f : Tile → Tile) : (s.modTile k f).caps = s.caps := rfl
@[simp] theorem State.modTile_fused (s : State) (k : Nat) (f : Tile → Tile) : (s.modTile k f).fused = s.fused := rfl
@[simp] theorem State.modTile_keyFuse (s : State) (k : Nat) (f : Tile → Tile) : (s.modTile k f).keyFuse = s.keyFuse := rfl
@[simp] theorem State.modTile_minFuse (s : State) (k : Nat) (f : Tile → Tile) : (s.modTile k f).minFuse = s.minFuse := rfl
@[simp] theorem State.modTile_firmware (s : State) (k : Nat) (f : Tile → Tile) : (s.modTile k f).firmware = s.firmware := rfl
@[simp] theorem State.modTile_devId (s : State) (k : Nat) (f : Tile → Tile) : (s.modTile k f).devId = s.devId := rfl
@[simp] theorem State.modTile_ngroups (s : State) (k : Nat) (f : Tile → Tile) : (s.modTile k f).ngroups = s.ngroups := rfl
@[simp] theorem State.modTile_devstat (s : State) (k : Nat) (f : Tile → Tile) : (s.modTile k f).devstat = s.devstat := rfl
@[simp] theorem State.modTile_entryPc (s : State) (k : Nat) (f : Tile → Tile) : (s.modTile k f).entryPc = s.entryPc := rfl
@[simp] theorem State.modTile_pwrbal (s : State) (k : Nat) (f : Tile → Tile) : (s.modTile k f).pwrbal = s.pwrbal := rfl
@[simp] theorem State.modTile_pwravg (s : State) (k : Nat) (f : Tile → Tile) : (s.modTile k f).pwravg = s.pwravg := rfl
@[simp] theorem State.modTile_duty (s : State) (k : Nat) (f : Tile → Tile) : (s.modTile k f).duty = s.duty := rfl
@[simp] theorem State.modTile_clkstep (s : State) (k : Nat) (f : Tile → Tile) : (s.modTile k f).clkstep = s.clkstep := rfl
@[simp] theorem State.modTile_reqBal (s : State) (k : Nat) (f : Tile → Tile) : (s.modTile k f).reqBal = s.reqBal := rfl
@[simp] theorem State.modTile_balDue (s : State) (k : Nat) (f : Tile → Tile) : (s.modTile k f).balDue = s.balDue := rfl
@[simp] theorem State.modTile_energy (s : State) (k : Nat) (f : Tile → Tile) : (s.modTile k f).energy = s.energy := rfl
@[simp] theorem State.modTile_moved (s : State) (k : Nat) (f : Tile → Tile) : (s.modTile k f).moved = s.moved := rfl
@[simp] theorem State.modTile_hostHeld (s : State) (k : Nat) (f : Tile → Tile) : (s.modTile k f).hostHeld = s.hostHeld := rfl
@[simp] theorem State.modTile_flooded (s : State) (k : Nat) (f : Tile → Tile) : (s.modTile k f).flooded = s.flooded := rfl
@[simp] theorem State.modTile_stones (s : State) (k : Nat) (f : Tile → Tile) : (s.modTile k f).stones = s.stones := rfl
@[simp] theorem State.modTile_functions (s : State) (k : Nat) (f : Tile → Tile) : (s.modTile k f).functions = s.functions := rfl
@[simp] theorem State.modTile_directory (s : State) (k : Nat) (f : Tile → Tile) : (s.modTile k f).directory = s.directory := rfl
@[simp] theorem State.modTile_regions (s : State) (k : Nat) (f : Tile → Tile) : (s.modTile k f).regions = s.regions := rfl
@[simp] theorem State.modTile_firkins (s : State) (k : Nat) (f : Tile → Tile) : (s.modTile k f).firkins = s.firkins := rfl
@[simp] theorem State.modTile_saved (s : State) (k : Nat) (f : Tile → Tile) : (s.modTile k f).saved = s.saved := rfl
@[simp] theorem State.modTile_moving (s : State) (k : Nat) (f : Tile → Tile) : (s.modTile k f).moving = s.moving := rfl
@[simp] theorem State.modTile_steals (s : State) (k : Nat) (f : Tile → Tile) : (s.modTile k f).steals = s.steals := rfl
@[simp] theorem State.modTile_xinvs (s : State) (k : Nat) (f : Tile → Tile) : (s.modTile k f).xinvs = s.xinvs := rfl
@[simp] theorem State.modTile_stale (s : State) (k : Nat) (f : Tile → Tile) : (s.modTile k f).stale = s.stale := rfl
@[simp] theorem State.modTile_takes (s : State) (k : Nat) (f : Tile → Tile) : (s.modTile k f).takes = s.takes := rfl
@[simp] theorem State.modTile_out (s : State) (k : Nat) (f : Tile → Tile) : (s.modTile k f).out = s.out := rfl
@[simp] theorem State.modTile_cur (s : State) (k : Nat) (f : Tile → Tile) : (s.modTile k f).cur = s.cur := rfl
@[simp] theorem State.modTile_agenda (s : State) (k : Nat) (f : Tile → Tile) : (s.modTile k f).agenda = s.agenda := rfl
@[simp] theorem State.modTile_turn (s : State) (k : Nat) (f : Tile → Tile) : (s.modTile k f).turn = s.turn := rfl
@[simp] theorem State.modTile_alternate (s : State) (k : Nat) (f : Tile → Tile) : (s.modTile k f).alternate = s.alternate := rfl
@[simp] theorem State.modTile_missing (s : State) (k : Nat) (f : Tile → Tile) : (s.modTile k f).missing = s.missing := rfl
@[simp] theorem State.modTile_snag (s : State) (k : Nat) (f : Tile → Tile) : (s.modTile k f).snag = s.snag := rfl
@[simp] theorem State.modTile_wants (s : State) (k : Nat) (f : Tile → Tile) : (s.modTile k f).wants = s.wants := rfl
@[simp] theorem State.modTile_freeCtr (s : State) (k : Nat) (f : Tile → Tile) : (s.modTile k f).freeCtr = s.freeCtr := rfl
@[simp] theorem State.modTile_nextReq (s : State) (k : Nat) (f : Tile → Tile) : (s.modTile k f).nextReq = s.nextReq := rfl
@[simp] theorem State.modCore_parts (s : State) (k : Nat) (f : TileCore → TileCore) : (s.modCore k f).parts = s.parts := rfl
@[simp] theorem State.modCore_hbm (s : State) (k : Nat) (f : TileCore → TileCore) : (s.modCore k f).hbm = s.hbm := rfl
@[simp] theorem State.modCore_hbmBad (s : State) (k : Nat) (f : TileCore → TileCore) : (s.modCore k f).hbmBad = s.hbmBad := rfl
@[simp] theorem State.modCore_reqs (s : State) (k : Nat) (f : TileCore → TileCore) : (s.modCore k f).reqs = s.reqs := rfl
@[simp] theorem State.modCore_holders (s : State) (k : Nat) (f : TileCore → TileCore) : (s.modCore k f).holders = s.holders := rfl
@[simp] theorem State.modCore_counters (s : State) (k : Nat) (f : TileCore → TileCore) : (s.modCore k f).counters = s.counters := rfl
@[simp] theorem State.modCore_stationErrs (s : State) (k : Nat) (f : TileCore → TileCore) : (s.modCore k f).stationErrs = s.stationErrs := rfl
@[simp] theorem State.modCore_xcnt (s : State) (k : Nat) (f : TileCore → TileCore) : (s.modCore k f).xcnt = s.xcnt := rfl
@[simp] theorem State.modCore_trej (s : State) (k : Nat) (f : TileCore → TileCore) : (s.modCore k f).trej = s.trej := rfl
@[simp] theorem State.modCore_linkErrs (s : State) (k : Nat) (f : TileCore → TileCore) : (s.modCore k f).linkErrs = s.linkErrs := rfl
@[simp] theorem State.modCore_lastIn (s : State) (k : Nat) (f : TileCore → TileCore) : (s.modCore k f).lastIn = s.lastIn := rfl
@[simp] theorem State.modCore_outFree (s : State) (k : Nat) (f : TileCore → TileCore) : (s.modCore k f).outFree = s.outFree := rfl
@[simp] theorem State.modCore_windows (s : State) (k : Nat) (f : TileCore → TileCore) : (s.modCore k f).windows = s.windows := rfl
@[simp] theorem State.modCore_notes (s : State) (k : Nat) (f : TileCore → TileCore) : (s.modCore k f).notes = s.notes := rfl
@[simp] theorem State.modCore_gclk (s : State) (k : Nat) (f : TileCore → TileCore) : (s.modCore k f).gclk = s.gclk := rfl
@[simp] theorem State.modCore_cyc (s : State) (k : Nat) (f : TileCore → TileCore) : (s.modCore k f).cyc = s.cyc := rfl
@[simp] theorem State.modCore_links (s : State) (k : Nat) (f : TileCore → TileCore) : (s.modCore k f).links = s.links := rfl
@[simp] theorem State.modCore_linkEvents (s : State) (k : Nat) (f : TileCore → TileCore) : (s.modCore k f).linkEvents = s.linkEvents := rfl
@[simp] theorem State.modCore_l2p (s : State) (k : Nat) (f : TileCore → TileCore) : (s.modCore k f).l2p = s.l2p := rfl
@[simp] theorem State.modCore_pts (s : State) (k : Nat) (f : TileCore → TileCore) : (s.modCore k f).pts = s.pts := rfl
@[simp] theorem State.modCore_l2pOk (s : State) (k : Nat) (f : TileCore → TileCore) : (s.modCore k f).l2pOk = s.l2pOk := rfl
@[simp] theorem State.modCore_caps (s : State) (k : Nat) (f : TileCore → TileCore) : (s.modCore k f).caps = s.caps := rfl
@[simp] theorem State.modCore_fused (s : State) (k : Nat) (f : TileCore → TileCore) : (s.modCore k f).fused = s.fused := rfl
@[simp] theorem State.modCore_keyFuse (s : State) (k : Nat) (f : TileCore → TileCore) : (s.modCore k f).keyFuse = s.keyFuse := rfl
@[simp] theorem State.modCore_minFuse (s : State) (k : Nat) (f : TileCore → TileCore) : (s.modCore k f).minFuse = s.minFuse := rfl
@[simp] theorem State.modCore_firmware (s : State) (k : Nat) (f : TileCore → TileCore) : (s.modCore k f).firmware = s.firmware := rfl
@[simp] theorem State.modCore_devId (s : State) (k : Nat) (f : TileCore → TileCore) : (s.modCore k f).devId = s.devId := rfl
@[simp] theorem State.modCore_ngroups (s : State) (k : Nat) (f : TileCore → TileCore) : (s.modCore k f).ngroups = s.ngroups := rfl
@[simp] theorem State.modCore_devstat (s : State) (k : Nat) (f : TileCore → TileCore) : (s.modCore k f).devstat = s.devstat := rfl
@[simp] theorem State.modCore_entryPc (s : State) (k : Nat) (f : TileCore → TileCore) : (s.modCore k f).entryPc = s.entryPc := rfl
@[simp] theorem State.modCore_pwrbal (s : State) (k : Nat) (f : TileCore → TileCore) : (s.modCore k f).pwrbal = s.pwrbal := rfl
@[simp] theorem State.modCore_pwravg (s : State) (k : Nat) (f : TileCore → TileCore) : (s.modCore k f).pwravg = s.pwravg := rfl
@[simp] theorem State.modCore_duty (s : State) (k : Nat) (f : TileCore → TileCore) : (s.modCore k f).duty = s.duty := rfl
@[simp] theorem State.modCore_clkstep (s : State) (k : Nat) (f : TileCore → TileCore) : (s.modCore k f).clkstep = s.clkstep := rfl
@[simp] theorem State.modCore_reqBal (s : State) (k : Nat) (f : TileCore → TileCore) : (s.modCore k f).reqBal = s.reqBal := rfl
@[simp] theorem State.modCore_balDue (s : State) (k : Nat) (f : TileCore → TileCore) : (s.modCore k f).balDue = s.balDue := rfl
@[simp] theorem State.modCore_energy (s : State) (k : Nat) (f : TileCore → TileCore) : (s.modCore k f).energy = s.energy := rfl
@[simp] theorem State.modCore_moved (s : State) (k : Nat) (f : TileCore → TileCore) : (s.modCore k f).moved = s.moved := rfl
@[simp] theorem State.modCore_hostHeld (s : State) (k : Nat) (f : TileCore → TileCore) : (s.modCore k f).hostHeld = s.hostHeld := rfl
@[simp] theorem State.modCore_flooded (s : State) (k : Nat) (f : TileCore → TileCore) : (s.modCore k f).flooded = s.flooded := rfl
@[simp] theorem State.modCore_stones (s : State) (k : Nat) (f : TileCore → TileCore) : (s.modCore k f).stones = s.stones := rfl
@[simp] theorem State.modCore_functions (s : State) (k : Nat) (f : TileCore → TileCore) : (s.modCore k f).functions = s.functions := rfl
@[simp] theorem State.modCore_directory (s : State) (k : Nat) (f : TileCore → TileCore) : (s.modCore k f).directory = s.directory := rfl
@[simp] theorem State.modCore_regions (s : State) (k : Nat) (f : TileCore → TileCore) : (s.modCore k f).regions = s.regions := rfl
@[simp] theorem State.modCore_firkins (s : State) (k : Nat) (f : TileCore → TileCore) : (s.modCore k f).firkins = s.firkins := rfl
@[simp] theorem State.modCore_saved (s : State) (k : Nat) (f : TileCore → TileCore) : (s.modCore k f).saved = s.saved := rfl
@[simp] theorem State.modCore_moving (s : State) (k : Nat) (f : TileCore → TileCore) : (s.modCore k f).moving = s.moving := rfl
@[simp] theorem State.modCore_steals (s : State) (k : Nat) (f : TileCore → TileCore) : (s.modCore k f).steals = s.steals := rfl
@[simp] theorem State.modCore_xinvs (s : State) (k : Nat) (f : TileCore → TileCore) : (s.modCore k f).xinvs = s.xinvs := rfl
@[simp] theorem State.modCore_stale (s : State) (k : Nat) (f : TileCore → TileCore) : (s.modCore k f).stale = s.stale := rfl
@[simp] theorem State.modCore_takes (s : State) (k : Nat) (f : TileCore → TileCore) : (s.modCore k f).takes = s.takes := rfl
@[simp] theorem State.modCore_out (s : State) (k : Nat) (f : TileCore → TileCore) : (s.modCore k f).out = s.out := rfl
@[simp] theorem State.modCore_cur (s : State) (k : Nat) (f : TileCore → TileCore) : (s.modCore k f).cur = s.cur := rfl
@[simp] theorem State.modCore_agenda (s : State) (k : Nat) (f : TileCore → TileCore) : (s.modCore k f).agenda = s.agenda := rfl
@[simp] theorem State.modCore_turn (s : State) (k : Nat) (f : TileCore → TileCore) : (s.modCore k f).turn = s.turn := rfl
@[simp] theorem State.modCore_alternate (s : State) (k : Nat) (f : TileCore → TileCore) : (s.modCore k f).alternate = s.alternate := rfl
@[simp] theorem State.modCore_missing (s : State) (k : Nat) (f : TileCore → TileCore) : (s.modCore k f).missing = s.missing := rfl
@[simp] theorem State.modCore_snag (s : State) (k : Nat) (f : TileCore → TileCore) : (s.modCore k f).snag = s.snag := rfl
@[simp] theorem State.modCore_wants (s : State) (k : Nat) (f : TileCore → TileCore) : (s.modCore k f).wants = s.wants := rfl
@[simp] theorem State.modCore_freeCtr (s : State) (k : Nat) (f : TileCore → TileCore) : (s.modCore k f).freeCtr = s.freeCtr := rfl
@[simp] theorem State.modCore_nextReq (s : State) (k : Nat) (f : TileCore → TileCore) : (s.modCore k f).nextReq = s.nextReq := rfl
@[simp] theorem State.modEng_parts (s : State) (k : Nat) (f : TileEng → TileEng) : (s.modEng k f).parts = s.parts := rfl
@[simp] theorem State.modEng_hbm (s : State) (k : Nat) (f : TileEng → TileEng) : (s.modEng k f).hbm = s.hbm := rfl
@[simp] theorem State.modEng_hbmBad (s : State) (k : Nat) (f : TileEng → TileEng) : (s.modEng k f).hbmBad = s.hbmBad := rfl
@[simp] theorem State.modEng_reqs (s : State) (k : Nat) (f : TileEng → TileEng) : (s.modEng k f).reqs = s.reqs := rfl
@[simp] theorem State.modEng_holders (s : State) (k : Nat) (f : TileEng → TileEng) : (s.modEng k f).holders = s.holders := rfl
@[simp] theorem State.modEng_counters (s : State) (k : Nat) (f : TileEng → TileEng) : (s.modEng k f).counters = s.counters := rfl
@[simp] theorem State.modEng_stationErrs (s : State) (k : Nat) (f : TileEng → TileEng) : (s.modEng k f).stationErrs = s.stationErrs := rfl
@[simp] theorem State.modEng_xcnt (s : State) (k : Nat) (f : TileEng → TileEng) : (s.modEng k f).xcnt = s.xcnt := rfl
@[simp] theorem State.modEng_trej (s : State) (k : Nat) (f : TileEng → TileEng) : (s.modEng k f).trej = s.trej := rfl
@[simp] theorem State.modEng_linkErrs (s : State) (k : Nat) (f : TileEng → TileEng) : (s.modEng k f).linkErrs = s.linkErrs := rfl
@[simp] theorem State.modEng_lastIn (s : State) (k : Nat) (f : TileEng → TileEng) : (s.modEng k f).lastIn = s.lastIn := rfl
@[simp] theorem State.modEng_outFree (s : State) (k : Nat) (f : TileEng → TileEng) : (s.modEng k f).outFree = s.outFree := rfl
@[simp] theorem State.modEng_windows (s : State) (k : Nat) (f : TileEng → TileEng) : (s.modEng k f).windows = s.windows := rfl
@[simp] theorem State.modEng_notes (s : State) (k : Nat) (f : TileEng → TileEng) : (s.modEng k f).notes = s.notes := rfl
@[simp] theorem State.modEng_gclk (s : State) (k : Nat) (f : TileEng → TileEng) : (s.modEng k f).gclk = s.gclk := rfl
@[simp] theorem State.modEng_cyc (s : State) (k : Nat) (f : TileEng → TileEng) : (s.modEng k f).cyc = s.cyc := rfl
@[simp] theorem State.modEng_links (s : State) (k : Nat) (f : TileEng → TileEng) : (s.modEng k f).links = s.links := rfl
@[simp] theorem State.modEng_linkEvents (s : State) (k : Nat) (f : TileEng → TileEng) : (s.modEng k f).linkEvents = s.linkEvents := rfl
@[simp] theorem State.modEng_l2p (s : State) (k : Nat) (f : TileEng → TileEng) : (s.modEng k f).l2p = s.l2p := rfl
@[simp] theorem State.modEng_pts (s : State) (k : Nat) (f : TileEng → TileEng) : (s.modEng k f).pts = s.pts := rfl
@[simp] theorem State.modEng_l2pOk (s : State) (k : Nat) (f : TileEng → TileEng) : (s.modEng k f).l2pOk = s.l2pOk := rfl
@[simp] theorem State.modEng_caps (s : State) (k : Nat) (f : TileEng → TileEng) : (s.modEng k f).caps = s.caps := rfl
@[simp] theorem State.modEng_fused (s : State) (k : Nat) (f : TileEng → TileEng) : (s.modEng k f).fused = s.fused := rfl
@[simp] theorem State.modEng_keyFuse (s : State) (k : Nat) (f : TileEng → TileEng) : (s.modEng k f).keyFuse = s.keyFuse := rfl
@[simp] theorem State.modEng_minFuse (s : State) (k : Nat) (f : TileEng → TileEng) : (s.modEng k f).minFuse = s.minFuse := rfl
@[simp] theorem State.modEng_firmware (s : State) (k : Nat) (f : TileEng → TileEng) : (s.modEng k f).firmware = s.firmware := rfl
@[simp] theorem State.modEng_devId (s : State) (k : Nat) (f : TileEng → TileEng) : (s.modEng k f).devId = s.devId := rfl
@[simp] theorem State.modEng_ngroups (s : State) (k : Nat) (f : TileEng → TileEng) : (s.modEng k f).ngroups = s.ngroups := rfl
@[simp] theorem State.modEng_devstat (s : State) (k : Nat) (f : TileEng → TileEng) : (s.modEng k f).devstat = s.devstat := rfl
@[simp] theorem State.modEng_entryPc (s : State) (k : Nat) (f : TileEng → TileEng) : (s.modEng k f).entryPc = s.entryPc := rfl
@[simp] theorem State.modEng_pwrbal (s : State) (k : Nat) (f : TileEng → TileEng) : (s.modEng k f).pwrbal = s.pwrbal := rfl
@[simp] theorem State.modEng_pwravg (s : State) (k : Nat) (f : TileEng → TileEng) : (s.modEng k f).pwravg = s.pwravg := rfl
@[simp] theorem State.modEng_duty (s : State) (k : Nat) (f : TileEng → TileEng) : (s.modEng k f).duty = s.duty := rfl
@[simp] theorem State.modEng_clkstep (s : State) (k : Nat) (f : TileEng → TileEng) : (s.modEng k f).clkstep = s.clkstep := rfl
@[simp] theorem State.modEng_reqBal (s : State) (k : Nat) (f : TileEng → TileEng) : (s.modEng k f).reqBal = s.reqBal := rfl
@[simp] theorem State.modEng_balDue (s : State) (k : Nat) (f : TileEng → TileEng) : (s.modEng k f).balDue = s.balDue := rfl
@[simp] theorem State.modEng_energy (s : State) (k : Nat) (f : TileEng → TileEng) : (s.modEng k f).energy = s.energy := rfl
@[simp] theorem State.modEng_moved (s : State) (k : Nat) (f : TileEng → TileEng) : (s.modEng k f).moved = s.moved := rfl
@[simp] theorem State.modEng_hostHeld (s : State) (k : Nat) (f : TileEng → TileEng) : (s.modEng k f).hostHeld = s.hostHeld := rfl
@[simp] theorem State.modEng_flooded (s : State) (k : Nat) (f : TileEng → TileEng) : (s.modEng k f).flooded = s.flooded := rfl
@[simp] theorem State.modEng_stones (s : State) (k : Nat) (f : TileEng → TileEng) : (s.modEng k f).stones = s.stones := rfl
@[simp] theorem State.modEng_functions (s : State) (k : Nat) (f : TileEng → TileEng) : (s.modEng k f).functions = s.functions := rfl
@[simp] theorem State.modEng_directory (s : State) (k : Nat) (f : TileEng → TileEng) : (s.modEng k f).directory = s.directory := rfl
@[simp] theorem State.modEng_regions (s : State) (k : Nat) (f : TileEng → TileEng) : (s.modEng k f).regions = s.regions := rfl
@[simp] theorem State.modEng_firkins (s : State) (k : Nat) (f : TileEng → TileEng) : (s.modEng k f).firkins = s.firkins := rfl
@[simp] theorem State.modEng_saved (s : State) (k : Nat) (f : TileEng → TileEng) : (s.modEng k f).saved = s.saved := rfl
@[simp] theorem State.modEng_moving (s : State) (k : Nat) (f : TileEng → TileEng) : (s.modEng k f).moving = s.moving := rfl
@[simp] theorem State.modEng_steals (s : State) (k : Nat) (f : TileEng → TileEng) : (s.modEng k f).steals = s.steals := rfl
@[simp] theorem State.modEng_xinvs (s : State) (k : Nat) (f : TileEng → TileEng) : (s.modEng k f).xinvs = s.xinvs := rfl
@[simp] theorem State.modEng_stale (s : State) (k : Nat) (f : TileEng → TileEng) : (s.modEng k f).stale = s.stale := rfl
@[simp] theorem State.modEng_takes (s : State) (k : Nat) (f : TileEng → TileEng) : (s.modEng k f).takes = s.takes := rfl
@[simp] theorem State.modEng_out (s : State) (k : Nat) (f : TileEng → TileEng) : (s.modEng k f).out = s.out := rfl
@[simp] theorem State.modEng_cur (s : State) (k : Nat) (f : TileEng → TileEng) : (s.modEng k f).cur = s.cur := rfl
@[simp] theorem State.modEng_agenda (s : State) (k : Nat) (f : TileEng → TileEng) : (s.modEng k f).agenda = s.agenda := rfl
@[simp] theorem State.modEng_turn (s : State) (k : Nat) (f : TileEng → TileEng) : (s.modEng k f).turn = s.turn := rfl
@[simp] theorem State.modEng_alternate (s : State) (k : Nat) (f : TileEng → TileEng) : (s.modEng k f).alternate = s.alternate := rfl
@[simp] theorem State.modEng_missing (s : State) (k : Nat) (f : TileEng → TileEng) : (s.modEng k f).missing = s.missing := rfl
@[simp] theorem State.modEng_snag (s : State) (k : Nat) (f : TileEng → TileEng) : (s.modEng k f).snag = s.snag := rfl
@[simp] theorem State.modEng_wants (s : State) (k : Nat) (f : TileEng → TileEng) : (s.modEng k f).wants = s.wants := rfl
@[simp] theorem State.modEng_freeCtr (s : State) (k : Nat) (f : TileEng → TileEng) : (s.modEng k f).freeCtr = s.freeCtr := rfl
@[simp] theorem State.modEng_nextReq (s : State) (k : Nat) (f : TileEng → TileEng) : (s.modEng k f).nextReq = s.nextReq := rfl
@[simp] theorem State.modStrand_parts (s : State) (k n : Nat) (f : Strand → Strand) : (s.modStrand k n f).parts = s.parts := rfl
@[simp] theorem State.modStrand_hbm (s : State) (k n : Nat) (f : Strand → Strand) : (s.modStrand k n f).hbm = s.hbm := rfl
@[simp] theorem State.modStrand_hbmBad (s : State) (k n : Nat) (f : Strand → Strand) : (s.modStrand k n f).hbmBad = s.hbmBad := rfl
@[simp] theorem State.modStrand_reqs (s : State) (k n : Nat) (f : Strand → Strand) : (s.modStrand k n f).reqs = s.reqs := rfl
@[simp] theorem State.modStrand_holders (s : State) (k n : Nat) (f : Strand → Strand) : (s.modStrand k n f).holders = s.holders := rfl
@[simp] theorem State.modStrand_counters (s : State) (k n : Nat) (f : Strand → Strand) : (s.modStrand k n f).counters = s.counters := rfl
@[simp] theorem State.modStrand_stationErrs (s : State) (k n : Nat) (f : Strand → Strand) : (s.modStrand k n f).stationErrs = s.stationErrs := rfl
@[simp] theorem State.modStrand_xcnt (s : State) (k n : Nat) (f : Strand → Strand) : (s.modStrand k n f).xcnt = s.xcnt := rfl
@[simp] theorem State.modStrand_trej (s : State) (k n : Nat) (f : Strand → Strand) : (s.modStrand k n f).trej = s.trej := rfl
@[simp] theorem State.modStrand_linkErrs (s : State) (k n : Nat) (f : Strand → Strand) : (s.modStrand k n f).linkErrs = s.linkErrs := rfl
@[simp] theorem State.modStrand_lastIn (s : State) (k n : Nat) (f : Strand → Strand) : (s.modStrand k n f).lastIn = s.lastIn := rfl
@[simp] theorem State.modStrand_outFree (s : State) (k n : Nat) (f : Strand → Strand) : (s.modStrand k n f).outFree = s.outFree := rfl
@[simp] theorem State.modStrand_windows (s : State) (k n : Nat) (f : Strand → Strand) : (s.modStrand k n f).windows = s.windows := rfl
@[simp] theorem State.modStrand_notes (s : State) (k n : Nat) (f : Strand → Strand) : (s.modStrand k n f).notes = s.notes := rfl
@[simp] theorem State.modStrand_gclk (s : State) (k n : Nat) (f : Strand → Strand) : (s.modStrand k n f).gclk = s.gclk := rfl
@[simp] theorem State.modStrand_cyc (s : State) (k n : Nat) (f : Strand → Strand) : (s.modStrand k n f).cyc = s.cyc := rfl
@[simp] theorem State.modStrand_links (s : State) (k n : Nat) (f : Strand → Strand) : (s.modStrand k n f).links = s.links := rfl
@[simp] theorem State.modStrand_linkEvents (s : State) (k n : Nat) (f : Strand → Strand) : (s.modStrand k n f).linkEvents = s.linkEvents := rfl
@[simp] theorem State.modStrand_l2p (s : State) (k n : Nat) (f : Strand → Strand) : (s.modStrand k n f).l2p = s.l2p := rfl
@[simp] theorem State.modStrand_pts (s : State) (k n : Nat) (f : Strand → Strand) : (s.modStrand k n f).pts = s.pts := rfl
@[simp] theorem State.modStrand_l2pOk (s : State) (k n : Nat) (f : Strand → Strand) : (s.modStrand k n f).l2pOk = s.l2pOk := rfl
@[simp] theorem State.modStrand_caps (s : State) (k n : Nat) (f : Strand → Strand) : (s.modStrand k n f).caps = s.caps := rfl
@[simp] theorem State.modStrand_fused (s : State) (k n : Nat) (f : Strand → Strand) : (s.modStrand k n f).fused = s.fused := rfl
@[simp] theorem State.modStrand_keyFuse (s : State) (k n : Nat) (f : Strand → Strand) : (s.modStrand k n f).keyFuse = s.keyFuse := rfl
@[simp] theorem State.modStrand_minFuse (s : State) (k n : Nat) (f : Strand → Strand) : (s.modStrand k n f).minFuse = s.minFuse := rfl
@[simp] theorem State.modStrand_firmware (s : State) (k n : Nat) (f : Strand → Strand) : (s.modStrand k n f).firmware = s.firmware := rfl
@[simp] theorem State.modStrand_devId (s : State) (k n : Nat) (f : Strand → Strand) : (s.modStrand k n f).devId = s.devId := rfl
@[simp] theorem State.modStrand_ngroups (s : State) (k n : Nat) (f : Strand → Strand) : (s.modStrand k n f).ngroups = s.ngroups := rfl
@[simp] theorem State.modStrand_devstat (s : State) (k n : Nat) (f : Strand → Strand) : (s.modStrand k n f).devstat = s.devstat := rfl
@[simp] theorem State.modStrand_entryPc (s : State) (k n : Nat) (f : Strand → Strand) : (s.modStrand k n f).entryPc = s.entryPc := rfl
@[simp] theorem State.modStrand_pwrbal (s : State) (k n : Nat) (f : Strand → Strand) : (s.modStrand k n f).pwrbal = s.pwrbal := rfl
@[simp] theorem State.modStrand_pwravg (s : State) (k n : Nat) (f : Strand → Strand) : (s.modStrand k n f).pwravg = s.pwravg := rfl
@[simp] theorem State.modStrand_duty (s : State) (k n : Nat) (f : Strand → Strand) : (s.modStrand k n f).duty = s.duty := rfl
@[simp] theorem State.modStrand_clkstep (s : State) (k n : Nat) (f : Strand → Strand) : (s.modStrand k n f).clkstep = s.clkstep := rfl
@[simp] theorem State.modStrand_reqBal (s : State) (k n : Nat) (f : Strand → Strand) : (s.modStrand k n f).reqBal = s.reqBal := rfl
@[simp] theorem State.modStrand_balDue (s : State) (k n : Nat) (f : Strand → Strand) : (s.modStrand k n f).balDue = s.balDue := rfl
@[simp] theorem State.modStrand_energy (s : State) (k n : Nat) (f : Strand → Strand) : (s.modStrand k n f).energy = s.energy := rfl
@[simp] theorem State.modStrand_moved (s : State) (k n : Nat) (f : Strand → Strand) : (s.modStrand k n f).moved = s.moved := rfl
@[simp] theorem State.modStrand_hostHeld (s : State) (k n : Nat) (f : Strand → Strand) : (s.modStrand k n f).hostHeld = s.hostHeld := rfl
@[simp] theorem State.modStrand_flooded (s : State) (k n : Nat) (f : Strand → Strand) : (s.modStrand k n f).flooded = s.flooded := rfl
@[simp] theorem State.modStrand_stones (s : State) (k n : Nat) (f : Strand → Strand) : (s.modStrand k n f).stones = s.stones := rfl
@[simp] theorem State.modStrand_functions (s : State) (k n : Nat) (f : Strand → Strand) : (s.modStrand k n f).functions = s.functions := rfl
@[simp] theorem State.modStrand_directory (s : State) (k n : Nat) (f : Strand → Strand) : (s.modStrand k n f).directory = s.directory := rfl
@[simp] theorem State.modStrand_regions (s : State) (k n : Nat) (f : Strand → Strand) : (s.modStrand k n f).regions = s.regions := rfl
@[simp] theorem State.modStrand_firkins (s : State) (k n : Nat) (f : Strand → Strand) : (s.modStrand k n f).firkins = s.firkins := rfl
@[simp] theorem State.modStrand_saved (s : State) (k n : Nat) (f : Strand → Strand) : (s.modStrand k n f).saved = s.saved := rfl
@[simp] theorem State.modStrand_moving (s : State) (k n : Nat) (f : Strand → Strand) : (s.modStrand k n f).moving = s.moving := rfl
@[simp] theorem State.modStrand_steals (s : State) (k n : Nat) (f : Strand → Strand) : (s.modStrand k n f).steals = s.steals := rfl
@[simp] theorem State.modStrand_xinvs (s : State) (k n : Nat) (f : Strand → Strand) : (s.modStrand k n f).xinvs = s.xinvs := rfl
@[simp] theorem State.modStrand_stale (s : State) (k n : Nat) (f : Strand → Strand) : (s.modStrand k n f).stale = s.stale := rfl
@[simp] theorem State.modStrand_takes (s : State) (k n : Nat) (f : Strand → Strand) : (s.modStrand k n f).takes = s.takes := rfl
@[simp] theorem State.modStrand_out (s : State) (k n : Nat) (f : Strand → Strand) : (s.modStrand k n f).out = s.out := rfl
@[simp] theorem State.modStrand_cur (s : State) (k n : Nat) (f : Strand → Strand) : (s.modStrand k n f).cur = s.cur := rfl
@[simp] theorem State.modStrand_agenda (s : State) (k n : Nat) (f : Strand → Strand) : (s.modStrand k n f).agenda = s.agenda := rfl
@[simp] theorem State.modStrand_turn (s : State) (k n : Nat) (f : Strand → Strand) : (s.modStrand k n f).turn = s.turn := rfl
@[simp] theorem State.modStrand_alternate (s : State) (k n : Nat) (f : Strand → Strand) : (s.modStrand k n f).alternate = s.alternate := rfl
@[simp] theorem State.modStrand_missing (s : State) (k n : Nat) (f : Strand → Strand) : (s.modStrand k n f).missing = s.missing := rfl
@[simp] theorem State.modStrand_snag (s : State) (k n : Nat) (f : Strand → Strand) : (s.modStrand k n f).snag = s.snag := rfl
@[simp] theorem State.modStrand_wants (s : State) (k n : Nat) (f : Strand → Strand) : (s.modStrand k n f).wants = s.wants := rfl
@[simp] theorem State.modStrand_freeCtr (s : State) (k n : Nat) (f : Strand → Strand) : (s.modStrand k n f).freeCtr = s.freeCtr := rfl
@[simp] theorem State.modStrand_nextReq (s : State) (k n : Nat) (f : Strand → Strand) : (s.modStrand k n f).nextReq = s.nextReq := rfl
@[simp] theorem State.modMe_parts (s : State) (f : Strand → Strand) : (s.modMe f).parts = s.parts := rfl
@[simp] theorem State.modMe_hbm (s : State) (f : Strand → Strand) : (s.modMe f).hbm = s.hbm := rfl
@[simp] theorem State.modMe_hbmBad (s : State) (f : Strand → Strand) : (s.modMe f).hbmBad = s.hbmBad := rfl
@[simp] theorem State.modMe_reqs (s : State) (f : Strand → Strand) : (s.modMe f).reqs = s.reqs := rfl
@[simp] theorem State.modMe_holders (s : State) (f : Strand → Strand) : (s.modMe f).holders = s.holders := rfl
@[simp] theorem State.modMe_counters (s : State) (f : Strand → Strand) : (s.modMe f).counters = s.counters := rfl
@[simp] theorem State.modMe_stationErrs (s : State) (f : Strand → Strand) : (s.modMe f).stationErrs = s.stationErrs := rfl
@[simp] theorem State.modMe_xcnt (s : State) (f : Strand → Strand) : (s.modMe f).xcnt = s.xcnt := rfl
@[simp] theorem State.modMe_trej (s : State) (f : Strand → Strand) : (s.modMe f).trej = s.trej := rfl
@[simp] theorem State.modMe_linkErrs (s : State) (f : Strand → Strand) : (s.modMe f).linkErrs = s.linkErrs := rfl
@[simp] theorem State.modMe_lastIn (s : State) (f : Strand → Strand) : (s.modMe f).lastIn = s.lastIn := rfl
@[simp] theorem State.modMe_outFree (s : State) (f : Strand → Strand) : (s.modMe f).outFree = s.outFree := rfl
@[simp] theorem State.modMe_windows (s : State) (f : Strand → Strand) : (s.modMe f).windows = s.windows := rfl
@[simp] theorem State.modMe_notes (s : State) (f : Strand → Strand) : (s.modMe f).notes = s.notes := rfl
@[simp] theorem State.modMe_gclk (s : State) (f : Strand → Strand) : (s.modMe f).gclk = s.gclk := rfl
@[simp] theorem State.modMe_cyc (s : State) (f : Strand → Strand) : (s.modMe f).cyc = s.cyc := rfl
@[simp] theorem State.modMe_links (s : State) (f : Strand → Strand) : (s.modMe f).links = s.links := rfl
@[simp] theorem State.modMe_linkEvents (s : State) (f : Strand → Strand) : (s.modMe f).linkEvents = s.linkEvents := rfl
@[simp] theorem State.modMe_l2p (s : State) (f : Strand → Strand) : (s.modMe f).l2p = s.l2p := rfl
@[simp] theorem State.modMe_pts (s : State) (f : Strand → Strand) : (s.modMe f).pts = s.pts := rfl
@[simp] theorem State.modMe_l2pOk (s : State) (f : Strand → Strand) : (s.modMe f).l2pOk = s.l2pOk := rfl
@[simp] theorem State.modMe_caps (s : State) (f : Strand → Strand) : (s.modMe f).caps = s.caps := rfl
@[simp] theorem State.modMe_fused (s : State) (f : Strand → Strand) : (s.modMe f).fused = s.fused := rfl
@[simp] theorem State.modMe_keyFuse (s : State) (f : Strand → Strand) : (s.modMe f).keyFuse = s.keyFuse := rfl
@[simp] theorem State.modMe_minFuse (s : State) (f : Strand → Strand) : (s.modMe f).minFuse = s.minFuse := rfl
@[simp] theorem State.modMe_firmware (s : State) (f : Strand → Strand) : (s.modMe f).firmware = s.firmware := rfl
@[simp] theorem State.modMe_devId (s : State) (f : Strand → Strand) : (s.modMe f).devId = s.devId := rfl
@[simp] theorem State.modMe_ngroups (s : State) (f : Strand → Strand) : (s.modMe f).ngroups = s.ngroups := rfl
@[simp] theorem State.modMe_devstat (s : State) (f : Strand → Strand) : (s.modMe f).devstat = s.devstat := rfl
@[simp] theorem State.modMe_entryPc (s : State) (f : Strand → Strand) : (s.modMe f).entryPc = s.entryPc := rfl
@[simp] theorem State.modMe_pwrbal (s : State) (f : Strand → Strand) : (s.modMe f).pwrbal = s.pwrbal := rfl
@[simp] theorem State.modMe_pwravg (s : State) (f : Strand → Strand) : (s.modMe f).pwravg = s.pwravg := rfl
@[simp] theorem State.modMe_duty (s : State) (f : Strand → Strand) : (s.modMe f).duty = s.duty := rfl
@[simp] theorem State.modMe_clkstep (s : State) (f : Strand → Strand) : (s.modMe f).clkstep = s.clkstep := rfl
@[simp] theorem State.modMe_reqBal (s : State) (f : Strand → Strand) : (s.modMe f).reqBal = s.reqBal := rfl
@[simp] theorem State.modMe_balDue (s : State) (f : Strand → Strand) : (s.modMe f).balDue = s.balDue := rfl
@[simp] theorem State.modMe_energy (s : State) (f : Strand → Strand) : (s.modMe f).energy = s.energy := rfl
@[simp] theorem State.modMe_moved (s : State) (f : Strand → Strand) : (s.modMe f).moved = s.moved := rfl
@[simp] theorem State.modMe_hostHeld (s : State) (f : Strand → Strand) : (s.modMe f).hostHeld = s.hostHeld := rfl
@[simp] theorem State.modMe_flooded (s : State) (f : Strand → Strand) : (s.modMe f).flooded = s.flooded := rfl
@[simp] theorem State.modMe_stones (s : State) (f : Strand → Strand) : (s.modMe f).stones = s.stones := rfl
@[simp] theorem State.modMe_functions (s : State) (f : Strand → Strand) : (s.modMe f).functions = s.functions := rfl
@[simp] theorem State.modMe_directory (s : State) (f : Strand → Strand) : (s.modMe f).directory = s.directory := rfl
@[simp] theorem State.modMe_regions (s : State) (f : Strand → Strand) : (s.modMe f).regions = s.regions := rfl
@[simp] theorem State.modMe_firkins (s : State) (f : Strand → Strand) : (s.modMe f).firkins = s.firkins := rfl
@[simp] theorem State.modMe_saved (s : State) (f : Strand → Strand) : (s.modMe f).saved = s.saved := rfl
@[simp] theorem State.modMe_moving (s : State) (f : Strand → Strand) : (s.modMe f).moving = s.moving := rfl
@[simp] theorem State.modMe_steals (s : State) (f : Strand → Strand) : (s.modMe f).steals = s.steals := rfl
@[simp] theorem State.modMe_xinvs (s : State) (f : Strand → Strand) : (s.modMe f).xinvs = s.xinvs := rfl
@[simp] theorem State.modMe_stale (s : State) (f : Strand → Strand) : (s.modMe f).stale = s.stale := rfl
@[simp] theorem State.modMe_takes (s : State) (f : Strand → Strand) : (s.modMe f).takes = s.takes := rfl
@[simp] theorem State.modMe_out (s : State) (f : Strand → Strand) : (s.modMe f).out = s.out := rfl
@[simp] theorem State.modMe_cur (s : State) (f : Strand → Strand) : (s.modMe f).cur = s.cur := rfl
@[simp] theorem State.modMe_agenda (s : State) (f : Strand → Strand) : (s.modMe f).agenda = s.agenda := rfl
@[simp] theorem State.modMe_turn (s : State) (f : Strand → Strand) : (s.modMe f).turn = s.turn := rfl
@[simp] theorem State.modMe_alternate (s : State) (f : Strand → Strand) : (s.modMe f).alternate = s.alternate := rfl
@[simp] theorem State.modMe_missing (s : State) (f : Strand → Strand) : (s.modMe f).missing = s.missing := rfl
@[simp] theorem State.modMe_snag (s : State) (f : Strand → Strand) : (s.modMe f).snag = s.snag := rfl
@[simp] theorem State.modMe_wants (s : State) (f : Strand → Strand) : (s.modMe f).wants = s.wants := rfl
@[simp] theorem State.modMe_freeCtr (s : State) (f : Strand → Strand) : (s.modMe f).freeCtr = s.freeCtr := rfl
@[simp] theorem State.modMe_nextReq (s : State) (f : Strand → Strand) : (s.modMe f).nextReq = s.nextReq := rfl
@[simp] theorem State.putX_parts (s : State) (lat : Nat) (r : Reg) (v : Word) : (s.putX lat r v).parts = s.parts := rfl
@[simp] theorem State.putX_hbm (s : State) (lat : Nat) (r : Reg) (v : Word) : (s.putX lat r v).hbm = s.hbm := rfl
@[simp] theorem State.putX_hbmBad (s : State) (lat : Nat) (r : Reg) (v : Word) : (s.putX lat r v).hbmBad = s.hbmBad := rfl
@[simp] theorem State.putX_reqs (s : State) (lat : Nat) (r : Reg) (v : Word) : (s.putX lat r v).reqs = s.reqs := rfl
@[simp] theorem State.putX_holders (s : State) (lat : Nat) (r : Reg) (v : Word) : (s.putX lat r v).holders = s.holders := rfl
@[simp] theorem State.putX_counters (s : State) (lat : Nat) (r : Reg) (v : Word) : (s.putX lat r v).counters = s.counters := rfl
@[simp] theorem State.putX_stationErrs (s : State) (lat : Nat) (r : Reg) (v : Word) : (s.putX lat r v).stationErrs = s.stationErrs := rfl
@[simp] theorem State.putX_xcnt (s : State) (lat : Nat) (r : Reg) (v : Word) : (s.putX lat r v).xcnt = s.xcnt := rfl
@[simp] theorem State.putX_trej (s : State) (lat : Nat) (r : Reg) (v : Word) : (s.putX lat r v).trej = s.trej := rfl
@[simp] theorem State.putX_linkErrs (s : State) (lat : Nat) (r : Reg) (v : Word) : (s.putX lat r v).linkErrs = s.linkErrs := rfl
@[simp] theorem State.putX_lastIn (s : State) (lat : Nat) (r : Reg) (v : Word) : (s.putX lat r v).lastIn = s.lastIn := rfl
@[simp] theorem State.putX_outFree (s : State) (lat : Nat) (r : Reg) (v : Word) : (s.putX lat r v).outFree = s.outFree := rfl
@[simp] theorem State.putX_windows (s : State) (lat : Nat) (r : Reg) (v : Word) : (s.putX lat r v).windows = s.windows := rfl
@[simp] theorem State.putX_notes (s : State) (lat : Nat) (r : Reg) (v : Word) : (s.putX lat r v).notes = s.notes := rfl
@[simp] theorem State.putX_gclk (s : State) (lat : Nat) (r : Reg) (v : Word) : (s.putX lat r v).gclk = s.gclk := rfl
@[simp] theorem State.putX_cyc (s : State) (lat : Nat) (r : Reg) (v : Word) : (s.putX lat r v).cyc = s.cyc := rfl
@[simp] theorem State.putX_links (s : State) (lat : Nat) (r : Reg) (v : Word) : (s.putX lat r v).links = s.links := rfl
@[simp] theorem State.putX_linkEvents (s : State) (lat : Nat) (r : Reg) (v : Word) : (s.putX lat r v).linkEvents = s.linkEvents := rfl
@[simp] theorem State.putX_l2p (s : State) (lat : Nat) (r : Reg) (v : Word) : (s.putX lat r v).l2p = s.l2p := rfl
@[simp] theorem State.putX_pts (s : State) (lat : Nat) (r : Reg) (v : Word) : (s.putX lat r v).pts = s.pts := rfl
@[simp] theorem State.putX_l2pOk (s : State) (lat : Nat) (r : Reg) (v : Word) : (s.putX lat r v).l2pOk = s.l2pOk := rfl
@[simp] theorem State.putX_caps (s : State) (lat : Nat) (r : Reg) (v : Word) : (s.putX lat r v).caps = s.caps := rfl
@[simp] theorem State.putX_fused (s : State) (lat : Nat) (r : Reg) (v : Word) : (s.putX lat r v).fused = s.fused := rfl
@[simp] theorem State.putX_keyFuse (s : State) (lat : Nat) (r : Reg) (v : Word) : (s.putX lat r v).keyFuse = s.keyFuse := rfl
@[simp] theorem State.putX_minFuse (s : State) (lat : Nat) (r : Reg) (v : Word) : (s.putX lat r v).minFuse = s.minFuse := rfl
@[simp] theorem State.putX_firmware (s : State) (lat : Nat) (r : Reg) (v : Word) : (s.putX lat r v).firmware = s.firmware := rfl
@[simp] theorem State.putX_devId (s : State) (lat : Nat) (r : Reg) (v : Word) : (s.putX lat r v).devId = s.devId := rfl
@[simp] theorem State.putX_ngroups (s : State) (lat : Nat) (r : Reg) (v : Word) : (s.putX lat r v).ngroups = s.ngroups := rfl
@[simp] theorem State.putX_devstat (s : State) (lat : Nat) (r : Reg) (v : Word) : (s.putX lat r v).devstat = s.devstat := rfl
@[simp] theorem State.putX_entryPc (s : State) (lat : Nat) (r : Reg) (v : Word) : (s.putX lat r v).entryPc = s.entryPc := rfl
@[simp] theorem State.putX_pwrbal (s : State) (lat : Nat) (r : Reg) (v : Word) : (s.putX lat r v).pwrbal = s.pwrbal := rfl
@[simp] theorem State.putX_pwravg (s : State) (lat : Nat) (r : Reg) (v : Word) : (s.putX lat r v).pwravg = s.pwravg := rfl
@[simp] theorem State.putX_duty (s : State) (lat : Nat) (r : Reg) (v : Word) : (s.putX lat r v).duty = s.duty := rfl
@[simp] theorem State.putX_clkstep (s : State) (lat : Nat) (r : Reg) (v : Word) : (s.putX lat r v).clkstep = s.clkstep := rfl
@[simp] theorem State.putX_reqBal (s : State) (lat : Nat) (r : Reg) (v : Word) : (s.putX lat r v).reqBal = s.reqBal := rfl
@[simp] theorem State.putX_balDue (s : State) (lat : Nat) (r : Reg) (v : Word) : (s.putX lat r v).balDue = s.balDue := rfl
@[simp] theorem State.putX_energy (s : State) (lat : Nat) (r : Reg) (v : Word) : (s.putX lat r v).energy = s.energy := rfl
@[simp] theorem State.putX_moved (s : State) (lat : Nat) (r : Reg) (v : Word) : (s.putX lat r v).moved = s.moved := rfl
@[simp] theorem State.putX_hostHeld (s : State) (lat : Nat) (r : Reg) (v : Word) : (s.putX lat r v).hostHeld = s.hostHeld := rfl
@[simp] theorem State.putX_flooded (s : State) (lat : Nat) (r : Reg) (v : Word) : (s.putX lat r v).flooded = s.flooded := rfl
@[simp] theorem State.putX_stones (s : State) (lat : Nat) (r : Reg) (v : Word) : (s.putX lat r v).stones = s.stones := rfl
@[simp] theorem State.putX_functions (s : State) (lat : Nat) (r : Reg) (v : Word) : (s.putX lat r v).functions = s.functions := rfl
@[simp] theorem State.putX_directory (s : State) (lat : Nat) (r : Reg) (v : Word) : (s.putX lat r v).directory = s.directory := rfl
@[simp] theorem State.putX_regions (s : State) (lat : Nat) (r : Reg) (v : Word) : (s.putX lat r v).regions = s.regions := rfl
@[simp] theorem State.putX_firkins (s : State) (lat : Nat) (r : Reg) (v : Word) : (s.putX lat r v).firkins = s.firkins := rfl
@[simp] theorem State.putX_saved (s : State) (lat : Nat) (r : Reg) (v : Word) : (s.putX lat r v).saved = s.saved := rfl
@[simp] theorem State.putX_moving (s : State) (lat : Nat) (r : Reg) (v : Word) : (s.putX lat r v).moving = s.moving := rfl
@[simp] theorem State.putX_steals (s : State) (lat : Nat) (r : Reg) (v : Word) : (s.putX lat r v).steals = s.steals := rfl
@[simp] theorem State.putX_xinvs (s : State) (lat : Nat) (r : Reg) (v : Word) : (s.putX lat r v).xinvs = s.xinvs := rfl
@[simp] theorem State.putX_stale (s : State) (lat : Nat) (r : Reg) (v : Word) : (s.putX lat r v).stale = s.stale := rfl
@[simp] theorem State.putX_takes (s : State) (lat : Nat) (r : Reg) (v : Word) : (s.putX lat r v).takes = s.takes := rfl
@[simp] theorem State.putX_out (s : State) (lat : Nat) (r : Reg) (v : Word) : (s.putX lat r v).out = s.out := rfl
@[simp] theorem State.putX_cur (s : State) (lat : Nat) (r : Reg) (v : Word) : (s.putX lat r v).cur = s.cur := rfl
@[simp] theorem State.putX_agenda (s : State) (lat : Nat) (r : Reg) (v : Word) : (s.putX lat r v).agenda = s.agenda := rfl
@[simp] theorem State.putX_turn (s : State) (lat : Nat) (r : Reg) (v : Word) : (s.putX lat r v).turn = s.turn := rfl
@[simp] theorem State.putX_alternate (s : State) (lat : Nat) (r : Reg) (v : Word) : (s.putX lat r v).alternate = s.alternate := rfl
@[simp] theorem State.putX_missing (s : State) (lat : Nat) (r : Reg) (v : Word) : (s.putX lat r v).missing = s.missing := rfl
@[simp] theorem State.putX_snag (s : State) (lat : Nat) (r : Reg) (v : Word) : (s.putX lat r v).snag = s.snag := rfl
@[simp] theorem State.putX_wants (s : State) (lat : Nat) (r : Reg) (v : Word) : (s.putX lat r v).wants = s.wants := rfl
@[simp] theorem State.putX_freeCtr (s : State) (lat : Nat) (r : Reg) (v : Word) : (s.putX lat r v).freeCtr = s.freeCtr := rfl
@[simp] theorem State.putX_nextReq (s : State) (lat : Nat) (r : Reg) (v : Word) : (s.putX lat r v).nextReq = s.nextReq := rfl
@[simp] theorem State.putP_parts (s : State) (lat : Nat) (r : PredReg) (v : Bool) : (s.putP lat r v).parts = s.parts := rfl
@[simp] theorem State.putP_hbm (s : State) (lat : Nat) (r : PredReg) (v : Bool) : (s.putP lat r v).hbm = s.hbm := rfl
@[simp] theorem State.putP_hbmBad (s : State) (lat : Nat) (r : PredReg) (v : Bool) : (s.putP lat r v).hbmBad = s.hbmBad := rfl
@[simp] theorem State.putP_reqs (s : State) (lat : Nat) (r : PredReg) (v : Bool) : (s.putP lat r v).reqs = s.reqs := rfl
@[simp] theorem State.putP_holders (s : State) (lat : Nat) (r : PredReg) (v : Bool) : (s.putP lat r v).holders = s.holders := rfl
@[simp] theorem State.putP_counters (s : State) (lat : Nat) (r : PredReg) (v : Bool) : (s.putP lat r v).counters = s.counters := rfl
@[simp] theorem State.putP_stationErrs (s : State) (lat : Nat) (r : PredReg) (v : Bool) : (s.putP lat r v).stationErrs = s.stationErrs := rfl
@[simp] theorem State.putP_xcnt (s : State) (lat : Nat) (r : PredReg) (v : Bool) : (s.putP lat r v).xcnt = s.xcnt := rfl
@[simp] theorem State.putP_trej (s : State) (lat : Nat) (r : PredReg) (v : Bool) : (s.putP lat r v).trej = s.trej := rfl
@[simp] theorem State.putP_linkErrs (s : State) (lat : Nat) (r : PredReg) (v : Bool) : (s.putP lat r v).linkErrs = s.linkErrs := rfl
@[simp] theorem State.putP_lastIn (s : State) (lat : Nat) (r : PredReg) (v : Bool) : (s.putP lat r v).lastIn = s.lastIn := rfl
@[simp] theorem State.putP_outFree (s : State) (lat : Nat) (r : PredReg) (v : Bool) : (s.putP lat r v).outFree = s.outFree := rfl
@[simp] theorem State.putP_windows (s : State) (lat : Nat) (r : PredReg) (v : Bool) : (s.putP lat r v).windows = s.windows := rfl
@[simp] theorem State.putP_notes (s : State) (lat : Nat) (r : PredReg) (v : Bool) : (s.putP lat r v).notes = s.notes := rfl
@[simp] theorem State.putP_gclk (s : State) (lat : Nat) (r : PredReg) (v : Bool) : (s.putP lat r v).gclk = s.gclk := rfl
@[simp] theorem State.putP_cyc (s : State) (lat : Nat) (r : PredReg) (v : Bool) : (s.putP lat r v).cyc = s.cyc := rfl
@[simp] theorem State.putP_links (s : State) (lat : Nat) (r : PredReg) (v : Bool) : (s.putP lat r v).links = s.links := rfl
@[simp] theorem State.putP_linkEvents (s : State) (lat : Nat) (r : PredReg) (v : Bool) : (s.putP lat r v).linkEvents = s.linkEvents := rfl
@[simp] theorem State.putP_l2p (s : State) (lat : Nat) (r : PredReg) (v : Bool) : (s.putP lat r v).l2p = s.l2p := rfl
@[simp] theorem State.putP_pts (s : State) (lat : Nat) (r : PredReg) (v : Bool) : (s.putP lat r v).pts = s.pts := rfl
@[simp] theorem State.putP_l2pOk (s : State) (lat : Nat) (r : PredReg) (v : Bool) : (s.putP lat r v).l2pOk = s.l2pOk := rfl
@[simp] theorem State.putP_caps (s : State) (lat : Nat) (r : PredReg) (v : Bool) : (s.putP lat r v).caps = s.caps := rfl
@[simp] theorem State.putP_fused (s : State) (lat : Nat) (r : PredReg) (v : Bool) : (s.putP lat r v).fused = s.fused := rfl
@[simp] theorem State.putP_keyFuse (s : State) (lat : Nat) (r : PredReg) (v : Bool) : (s.putP lat r v).keyFuse = s.keyFuse := rfl
@[simp] theorem State.putP_minFuse (s : State) (lat : Nat) (r : PredReg) (v : Bool) : (s.putP lat r v).minFuse = s.minFuse := rfl
@[simp] theorem State.putP_firmware (s : State) (lat : Nat) (r : PredReg) (v : Bool) : (s.putP lat r v).firmware = s.firmware := rfl
@[simp] theorem State.putP_devId (s : State) (lat : Nat) (r : PredReg) (v : Bool) : (s.putP lat r v).devId = s.devId := rfl
@[simp] theorem State.putP_ngroups (s : State) (lat : Nat) (r : PredReg) (v : Bool) : (s.putP lat r v).ngroups = s.ngroups := rfl
@[simp] theorem State.putP_devstat (s : State) (lat : Nat) (r : PredReg) (v : Bool) : (s.putP lat r v).devstat = s.devstat := rfl
@[simp] theorem State.putP_entryPc (s : State) (lat : Nat) (r : PredReg) (v : Bool) : (s.putP lat r v).entryPc = s.entryPc := rfl
@[simp] theorem State.putP_pwrbal (s : State) (lat : Nat) (r : PredReg) (v : Bool) : (s.putP lat r v).pwrbal = s.pwrbal := rfl
@[simp] theorem State.putP_pwravg (s : State) (lat : Nat) (r : PredReg) (v : Bool) : (s.putP lat r v).pwravg = s.pwravg := rfl
@[simp] theorem State.putP_duty (s : State) (lat : Nat) (r : PredReg) (v : Bool) : (s.putP lat r v).duty = s.duty := rfl
@[simp] theorem State.putP_clkstep (s : State) (lat : Nat) (r : PredReg) (v : Bool) : (s.putP lat r v).clkstep = s.clkstep := rfl
@[simp] theorem State.putP_reqBal (s : State) (lat : Nat) (r : PredReg) (v : Bool) : (s.putP lat r v).reqBal = s.reqBal := rfl
@[simp] theorem State.putP_balDue (s : State) (lat : Nat) (r : PredReg) (v : Bool) : (s.putP lat r v).balDue = s.balDue := rfl
@[simp] theorem State.putP_energy (s : State) (lat : Nat) (r : PredReg) (v : Bool) : (s.putP lat r v).energy = s.energy := rfl
@[simp] theorem State.putP_moved (s : State) (lat : Nat) (r : PredReg) (v : Bool) : (s.putP lat r v).moved = s.moved := rfl
@[simp] theorem State.putP_hostHeld (s : State) (lat : Nat) (r : PredReg) (v : Bool) : (s.putP lat r v).hostHeld = s.hostHeld := rfl
@[simp] theorem State.putP_flooded (s : State) (lat : Nat) (r : PredReg) (v : Bool) : (s.putP lat r v).flooded = s.flooded := rfl
@[simp] theorem State.putP_stones (s : State) (lat : Nat) (r : PredReg) (v : Bool) : (s.putP lat r v).stones = s.stones := rfl
@[simp] theorem State.putP_functions (s : State) (lat : Nat) (r : PredReg) (v : Bool) : (s.putP lat r v).functions = s.functions := rfl
@[simp] theorem State.putP_directory (s : State) (lat : Nat) (r : PredReg) (v : Bool) : (s.putP lat r v).directory = s.directory := rfl
@[simp] theorem State.putP_regions (s : State) (lat : Nat) (r : PredReg) (v : Bool) : (s.putP lat r v).regions = s.regions := rfl
@[simp] theorem State.putP_firkins (s : State) (lat : Nat) (r : PredReg) (v : Bool) : (s.putP lat r v).firkins = s.firkins := rfl
@[simp] theorem State.putP_saved (s : State) (lat : Nat) (r : PredReg) (v : Bool) : (s.putP lat r v).saved = s.saved := rfl
@[simp] theorem State.putP_moving (s : State) (lat : Nat) (r : PredReg) (v : Bool) : (s.putP lat r v).moving = s.moving := rfl
@[simp] theorem State.putP_steals (s : State) (lat : Nat) (r : PredReg) (v : Bool) : (s.putP lat r v).steals = s.steals := rfl
@[simp] theorem State.putP_xinvs (s : State) (lat : Nat) (r : PredReg) (v : Bool) : (s.putP lat r v).xinvs = s.xinvs := rfl
@[simp] theorem State.putP_stale (s : State) (lat : Nat) (r : PredReg) (v : Bool) : (s.putP lat r v).stale = s.stale := rfl
@[simp] theorem State.putP_takes (s : State) (lat : Nat) (r : PredReg) (v : Bool) : (s.putP lat r v).takes = s.takes := rfl
@[simp] theorem State.putP_out (s : State) (lat : Nat) (r : PredReg) (v : Bool) : (s.putP lat r v).out = s.out := rfl
@[simp] theorem State.putP_cur (s : State) (lat : Nat) (r : PredReg) (v : Bool) : (s.putP lat r v).cur = s.cur := rfl
@[simp] theorem State.putP_agenda (s : State) (lat : Nat) (r : PredReg) (v : Bool) : (s.putP lat r v).agenda = s.agenda := rfl
@[simp] theorem State.putP_turn (s : State) (lat : Nat) (r : PredReg) (v : Bool) : (s.putP lat r v).turn = s.turn := rfl
@[simp] theorem State.putP_alternate (s : State) (lat : Nat) (r : PredReg) (v : Bool) : (s.putP lat r v).alternate = s.alternate := rfl
@[simp] theorem State.putP_missing (s : State) (lat : Nat) (r : PredReg) (v : Bool) : (s.putP lat r v).missing = s.missing := rfl
@[simp] theorem State.putP_snag (s : State) (lat : Nat) (r : PredReg) (v : Bool) : (s.putP lat r v).snag = s.snag := rfl
@[simp] theorem State.putP_wants (s : State) (lat : Nat) (r : PredReg) (v : Bool) : (s.putP lat r v).wants = s.wants := rfl
@[simp] theorem State.putP_freeCtr (s : State) (lat : Nat) (r : PredReg) (v : Bool) : (s.putP lat r v).freeCtr = s.freeCtr := rfl
@[simp] theorem State.putP_nextReq (s : State) (lat : Nat) (r : PredReg) (v : Bool) : (s.putP lat r v).nextReq = s.nextReq := rfl
@[simp] theorem State.markX_parts (s : State) (r : Reg) : (s.markX r).parts = s.parts := rfl
@[simp] theorem State.markX_hbm (s : State) (r : Reg) : (s.markX r).hbm = s.hbm := rfl
@[simp] theorem State.markX_hbmBad (s : State) (r : Reg) : (s.markX r).hbmBad = s.hbmBad := rfl
@[simp] theorem State.markX_reqs (s : State) (r : Reg) : (s.markX r).reqs = s.reqs := rfl
@[simp] theorem State.markX_holders (s : State) (r : Reg) : (s.markX r).holders = s.holders := rfl
@[simp] theorem State.markX_counters (s : State) (r : Reg) : (s.markX r).counters = s.counters := rfl
@[simp] theorem State.markX_stationErrs (s : State) (r : Reg) : (s.markX r).stationErrs = s.stationErrs := rfl
@[simp] theorem State.markX_xcnt (s : State) (r : Reg) : (s.markX r).xcnt = s.xcnt := rfl
@[simp] theorem State.markX_trej (s : State) (r : Reg) : (s.markX r).trej = s.trej := rfl
@[simp] theorem State.markX_linkErrs (s : State) (r : Reg) : (s.markX r).linkErrs = s.linkErrs := rfl
@[simp] theorem State.markX_lastIn (s : State) (r : Reg) : (s.markX r).lastIn = s.lastIn := rfl
@[simp] theorem State.markX_outFree (s : State) (r : Reg) : (s.markX r).outFree = s.outFree := rfl
@[simp] theorem State.markX_windows (s : State) (r : Reg) : (s.markX r).windows = s.windows := rfl
@[simp] theorem State.markX_notes (s : State) (r : Reg) : (s.markX r).notes = s.notes := rfl
@[simp] theorem State.markX_gclk (s : State) (r : Reg) : (s.markX r).gclk = s.gclk := rfl
@[simp] theorem State.markX_cyc (s : State) (r : Reg) : (s.markX r).cyc = s.cyc := rfl
@[simp] theorem State.markX_links (s : State) (r : Reg) : (s.markX r).links = s.links := rfl
@[simp] theorem State.markX_linkEvents (s : State) (r : Reg) : (s.markX r).linkEvents = s.linkEvents := rfl
@[simp] theorem State.markX_l2p (s : State) (r : Reg) : (s.markX r).l2p = s.l2p := rfl
@[simp] theorem State.markX_pts (s : State) (r : Reg) : (s.markX r).pts = s.pts := rfl
@[simp] theorem State.markX_l2pOk (s : State) (r : Reg) : (s.markX r).l2pOk = s.l2pOk := rfl
@[simp] theorem State.markX_caps (s : State) (r : Reg) : (s.markX r).caps = s.caps := rfl
@[simp] theorem State.markX_fused (s : State) (r : Reg) : (s.markX r).fused = s.fused := rfl
@[simp] theorem State.markX_keyFuse (s : State) (r : Reg) : (s.markX r).keyFuse = s.keyFuse := rfl
@[simp] theorem State.markX_minFuse (s : State) (r : Reg) : (s.markX r).minFuse = s.minFuse := rfl
@[simp] theorem State.markX_firmware (s : State) (r : Reg) : (s.markX r).firmware = s.firmware := rfl
@[simp] theorem State.markX_devId (s : State) (r : Reg) : (s.markX r).devId = s.devId := rfl
@[simp] theorem State.markX_ngroups (s : State) (r : Reg) : (s.markX r).ngroups = s.ngroups := rfl
@[simp] theorem State.markX_devstat (s : State) (r : Reg) : (s.markX r).devstat = s.devstat := rfl
@[simp] theorem State.markX_entryPc (s : State) (r : Reg) : (s.markX r).entryPc = s.entryPc := rfl
@[simp] theorem State.markX_pwrbal (s : State) (r : Reg) : (s.markX r).pwrbal = s.pwrbal := rfl
@[simp] theorem State.markX_pwravg (s : State) (r : Reg) : (s.markX r).pwravg = s.pwravg := rfl
@[simp] theorem State.markX_duty (s : State) (r : Reg) : (s.markX r).duty = s.duty := rfl
@[simp] theorem State.markX_clkstep (s : State) (r : Reg) : (s.markX r).clkstep = s.clkstep := rfl
@[simp] theorem State.markX_reqBal (s : State) (r : Reg) : (s.markX r).reqBal = s.reqBal := rfl
@[simp] theorem State.markX_balDue (s : State) (r : Reg) : (s.markX r).balDue = s.balDue := rfl
@[simp] theorem State.markX_energy (s : State) (r : Reg) : (s.markX r).energy = s.energy := rfl
@[simp] theorem State.markX_moved (s : State) (r : Reg) : (s.markX r).moved = s.moved := rfl
@[simp] theorem State.markX_hostHeld (s : State) (r : Reg) : (s.markX r).hostHeld = s.hostHeld := rfl
@[simp] theorem State.markX_flooded (s : State) (r : Reg) : (s.markX r).flooded = s.flooded := rfl
@[simp] theorem State.markX_stones (s : State) (r : Reg) : (s.markX r).stones = s.stones := rfl
@[simp] theorem State.markX_functions (s : State) (r : Reg) : (s.markX r).functions = s.functions := rfl
@[simp] theorem State.markX_directory (s : State) (r : Reg) : (s.markX r).directory = s.directory := rfl
@[simp] theorem State.markX_regions (s : State) (r : Reg) : (s.markX r).regions = s.regions := rfl
@[simp] theorem State.markX_firkins (s : State) (r : Reg) : (s.markX r).firkins = s.firkins := rfl
@[simp] theorem State.markX_saved (s : State) (r : Reg) : (s.markX r).saved = s.saved := rfl
@[simp] theorem State.markX_moving (s : State) (r : Reg) : (s.markX r).moving = s.moving := rfl
@[simp] theorem State.markX_steals (s : State) (r : Reg) : (s.markX r).steals = s.steals := rfl
@[simp] theorem State.markX_xinvs (s : State) (r : Reg) : (s.markX r).xinvs = s.xinvs := rfl
@[simp] theorem State.markX_stale (s : State) (r : Reg) : (s.markX r).stale = s.stale := rfl
@[simp] theorem State.markX_takes (s : State) (r : Reg) : (s.markX r).takes = s.takes := rfl
@[simp] theorem State.markX_out (s : State) (r : Reg) : (s.markX r).out = s.out := rfl
@[simp] theorem State.markX_cur (s : State) (r : Reg) : (s.markX r).cur = s.cur := rfl
@[simp] theorem State.markX_agenda (s : State) (r : Reg) : (s.markX r).agenda = s.agenda := rfl
@[simp] theorem State.markX_turn (s : State) (r : Reg) : (s.markX r).turn = s.turn := rfl
@[simp] theorem State.markX_alternate (s : State) (r : Reg) : (s.markX r).alternate = s.alternate := rfl
@[simp] theorem State.markX_missing (s : State) (r : Reg) : (s.markX r).missing = s.missing := rfl
@[simp] theorem State.markX_snag (s : State) (r : Reg) : (s.markX r).snag = s.snag := rfl
@[simp] theorem State.markX_wants (s : State) (r : Reg) : (s.markX r).wants = s.wants := rfl
@[simp] theorem State.markX_freeCtr (s : State) (r : Reg) : (s.markX r).freeCtr = s.freeCtr := rfl
@[simp] theorem State.markX_nextReq (s : State) (r : Reg) : (s.markX r).nextReq = s.nextReq := rfl
@[simp] theorem State.landX_parts (s : State) (k n : Nat) (r : Reg) (v : Word) : (s.landX k n r v).parts = s.parts := rfl
@[simp] theorem State.landX_hbm (s : State) (k n : Nat) (r : Reg) (v : Word) : (s.landX k n r v).hbm = s.hbm := rfl
@[simp] theorem State.landX_hbmBad (s : State) (k n : Nat) (r : Reg) (v : Word) : (s.landX k n r v).hbmBad = s.hbmBad := rfl
@[simp] theorem State.landX_reqs (s : State) (k n : Nat) (r : Reg) (v : Word) : (s.landX k n r v).reqs = s.reqs := rfl
@[simp] theorem State.landX_holders (s : State) (k n : Nat) (r : Reg) (v : Word) : (s.landX k n r v).holders = s.holders := rfl
@[simp] theorem State.landX_counters (s : State) (k n : Nat) (r : Reg) (v : Word) : (s.landX k n r v).counters = s.counters := rfl
@[simp] theorem State.landX_stationErrs (s : State) (k n : Nat) (r : Reg) (v : Word) : (s.landX k n r v).stationErrs = s.stationErrs := rfl
@[simp] theorem State.landX_xcnt (s : State) (k n : Nat) (r : Reg) (v : Word) : (s.landX k n r v).xcnt = s.xcnt := rfl
@[simp] theorem State.landX_trej (s : State) (k n : Nat) (r : Reg) (v : Word) : (s.landX k n r v).trej = s.trej := rfl
@[simp] theorem State.landX_linkErrs (s : State) (k n : Nat) (r : Reg) (v : Word) : (s.landX k n r v).linkErrs = s.linkErrs := rfl
@[simp] theorem State.landX_lastIn (s : State) (k n : Nat) (r : Reg) (v : Word) : (s.landX k n r v).lastIn = s.lastIn := rfl
@[simp] theorem State.landX_outFree (s : State) (k n : Nat) (r : Reg) (v : Word) : (s.landX k n r v).outFree = s.outFree := rfl
@[simp] theorem State.landX_windows (s : State) (k n : Nat) (r : Reg) (v : Word) : (s.landX k n r v).windows = s.windows := rfl
@[simp] theorem State.landX_notes (s : State) (k n : Nat) (r : Reg) (v : Word) : (s.landX k n r v).notes = s.notes := rfl
@[simp] theorem State.landX_gclk (s : State) (k n : Nat) (r : Reg) (v : Word) : (s.landX k n r v).gclk = s.gclk := rfl
@[simp] theorem State.landX_cyc (s : State) (k n : Nat) (r : Reg) (v : Word) : (s.landX k n r v).cyc = s.cyc := rfl
@[simp] theorem State.landX_links (s : State) (k n : Nat) (r : Reg) (v : Word) : (s.landX k n r v).links = s.links := rfl
@[simp] theorem State.landX_linkEvents (s : State) (k n : Nat) (r : Reg) (v : Word) : (s.landX k n r v).linkEvents = s.linkEvents := rfl
@[simp] theorem State.landX_l2p (s : State) (k n : Nat) (r : Reg) (v : Word) : (s.landX k n r v).l2p = s.l2p := rfl
@[simp] theorem State.landX_pts (s : State) (k n : Nat) (r : Reg) (v : Word) : (s.landX k n r v).pts = s.pts := rfl
@[simp] theorem State.landX_l2pOk (s : State) (k n : Nat) (r : Reg) (v : Word) : (s.landX k n r v).l2pOk = s.l2pOk := rfl
@[simp] theorem State.landX_caps (s : State) (k n : Nat) (r : Reg) (v : Word) : (s.landX k n r v).caps = s.caps := rfl
@[simp] theorem State.landX_fused (s : State) (k n : Nat) (r : Reg) (v : Word) : (s.landX k n r v).fused = s.fused := rfl
@[simp] theorem State.landX_keyFuse (s : State) (k n : Nat) (r : Reg) (v : Word) : (s.landX k n r v).keyFuse = s.keyFuse := rfl
@[simp] theorem State.landX_minFuse (s : State) (k n : Nat) (r : Reg) (v : Word) : (s.landX k n r v).minFuse = s.minFuse := rfl
@[simp] theorem State.landX_firmware (s : State) (k n : Nat) (r : Reg) (v : Word) : (s.landX k n r v).firmware = s.firmware := rfl
@[simp] theorem State.landX_devId (s : State) (k n : Nat) (r : Reg) (v : Word) : (s.landX k n r v).devId = s.devId := rfl
@[simp] theorem State.landX_ngroups (s : State) (k n : Nat) (r : Reg) (v : Word) : (s.landX k n r v).ngroups = s.ngroups := rfl
@[simp] theorem State.landX_devstat (s : State) (k n : Nat) (r : Reg) (v : Word) : (s.landX k n r v).devstat = s.devstat := rfl
@[simp] theorem State.landX_entryPc (s : State) (k n : Nat) (r : Reg) (v : Word) : (s.landX k n r v).entryPc = s.entryPc := rfl
@[simp] theorem State.landX_pwrbal (s : State) (k n : Nat) (r : Reg) (v : Word) : (s.landX k n r v).pwrbal = s.pwrbal := rfl
@[simp] theorem State.landX_pwravg (s : State) (k n : Nat) (r : Reg) (v : Word) : (s.landX k n r v).pwravg = s.pwravg := rfl
@[simp] theorem State.landX_duty (s : State) (k n : Nat) (r : Reg) (v : Word) : (s.landX k n r v).duty = s.duty := rfl
@[simp] theorem State.landX_clkstep (s : State) (k n : Nat) (r : Reg) (v : Word) : (s.landX k n r v).clkstep = s.clkstep := rfl
@[simp] theorem State.landX_reqBal (s : State) (k n : Nat) (r : Reg) (v : Word) : (s.landX k n r v).reqBal = s.reqBal := rfl
@[simp] theorem State.landX_balDue (s : State) (k n : Nat) (r : Reg) (v : Word) : (s.landX k n r v).balDue = s.balDue := rfl
@[simp] theorem State.landX_energy (s : State) (k n : Nat) (r : Reg) (v : Word) : (s.landX k n r v).energy = s.energy := rfl
@[simp] theorem State.landX_moved (s : State) (k n : Nat) (r : Reg) (v : Word) : (s.landX k n r v).moved = s.moved := rfl
@[simp] theorem State.landX_hostHeld (s : State) (k n : Nat) (r : Reg) (v : Word) : (s.landX k n r v).hostHeld = s.hostHeld := rfl
@[simp] theorem State.landX_flooded (s : State) (k n : Nat) (r : Reg) (v : Word) : (s.landX k n r v).flooded = s.flooded := rfl
@[simp] theorem State.landX_stones (s : State) (k n : Nat) (r : Reg) (v : Word) : (s.landX k n r v).stones = s.stones := rfl
@[simp] theorem State.landX_functions (s : State) (k n : Nat) (r : Reg) (v : Word) : (s.landX k n r v).functions = s.functions := rfl
@[simp] theorem State.landX_directory (s : State) (k n : Nat) (r : Reg) (v : Word) : (s.landX k n r v).directory = s.directory := rfl
@[simp] theorem State.landX_regions (s : State) (k n : Nat) (r : Reg) (v : Word) : (s.landX k n r v).regions = s.regions := rfl
@[simp] theorem State.landX_firkins (s : State) (k n : Nat) (r : Reg) (v : Word) : (s.landX k n r v).firkins = s.firkins := rfl
@[simp] theorem State.landX_saved (s : State) (k n : Nat) (r : Reg) (v : Word) : (s.landX k n r v).saved = s.saved := rfl
@[simp] theorem State.landX_moving (s : State) (k n : Nat) (r : Reg) (v : Word) : (s.landX k n r v).moving = s.moving := rfl
@[simp] theorem State.landX_steals (s : State) (k n : Nat) (r : Reg) (v : Word) : (s.landX k n r v).steals = s.steals := rfl
@[simp] theorem State.landX_xinvs (s : State) (k n : Nat) (r : Reg) (v : Word) : (s.landX k n r v).xinvs = s.xinvs := rfl
@[simp] theorem State.landX_stale (s : State) (k n : Nat) (r : Reg) (v : Word) : (s.landX k n r v).stale = s.stale := rfl
@[simp] theorem State.landX_takes (s : State) (k n : Nat) (r : Reg) (v : Word) : (s.landX k n r v).takes = s.takes := rfl
@[simp] theorem State.landX_out (s : State) (k n : Nat) (r : Reg) (v : Word) : (s.landX k n r v).out = s.out := rfl
@[simp] theorem State.landX_cur (s : State) (k n : Nat) (r : Reg) (v : Word) : (s.landX k n r v).cur = s.cur := rfl
@[simp] theorem State.landX_agenda (s : State) (k n : Nat) (r : Reg) (v : Word) : (s.landX k n r v).agenda = s.agenda := rfl
@[simp] theorem State.landX_turn (s : State) (k n : Nat) (r : Reg) (v : Word) : (s.landX k n r v).turn = s.turn := rfl
@[simp] theorem State.landX_alternate (s : State) (k n : Nat) (r : Reg) (v : Word) : (s.landX k n r v).alternate = s.alternate := rfl
@[simp] theorem State.landX_missing (s : State) (k n : Nat) (r : Reg) (v : Word) : (s.landX k n r v).missing = s.missing := rfl
@[simp] theorem State.landX_snag (s : State) (k n : Nat) (r : Reg) (v : Word) : (s.landX k n r v).snag = s.snag := rfl
@[simp] theorem State.landX_wants (s : State) (k n : Nat) (r : Reg) (v : Word) : (s.landX k n r v).wants = s.wants := rfl
@[simp] theorem State.landX_freeCtr (s : State) (k n : Nat) (r : Reg) (v : Word) : (s.landX k n r v).freeCtr = s.freeCtr := rfl
@[simp] theorem State.landX_nextReq (s : State) (k n : Nat) (r : Reg) (v : Word) : (s.landX k n r v).nextReq = s.nextReq := rfl
@[simp] theorem State.sleepOn_parts (s : State) (w : Sleep) : (s.sleepOn w).parts = s.parts := rfl
@[simp] theorem State.sleepOn_hbm (s : State) (w : Sleep) : (s.sleepOn w).hbm = s.hbm := rfl
@[simp] theorem State.sleepOn_hbmBad (s : State) (w : Sleep) : (s.sleepOn w).hbmBad = s.hbmBad := rfl
@[simp] theorem State.sleepOn_reqs (s : State) (w : Sleep) : (s.sleepOn w).reqs = s.reqs := rfl
@[simp] theorem State.sleepOn_holders (s : State) (w : Sleep) : (s.sleepOn w).holders = s.holders := rfl
@[simp] theorem State.sleepOn_counters (s : State) (w : Sleep) : (s.sleepOn w).counters = s.counters := rfl
@[simp] theorem State.sleepOn_stationErrs (s : State) (w : Sleep) : (s.sleepOn w).stationErrs = s.stationErrs := rfl
@[simp] theorem State.sleepOn_xcnt (s : State) (w : Sleep) : (s.sleepOn w).xcnt = s.xcnt := rfl
@[simp] theorem State.sleepOn_trej (s : State) (w : Sleep) : (s.sleepOn w).trej = s.trej := rfl
@[simp] theorem State.sleepOn_linkErrs (s : State) (w : Sleep) : (s.sleepOn w).linkErrs = s.linkErrs := rfl
@[simp] theorem State.sleepOn_lastIn (s : State) (w : Sleep) : (s.sleepOn w).lastIn = s.lastIn := rfl
@[simp] theorem State.sleepOn_outFree (s : State) (w : Sleep) : (s.sleepOn w).outFree = s.outFree := rfl
@[simp] theorem State.sleepOn_windows (s : State) (w : Sleep) : (s.sleepOn w).windows = s.windows := rfl
@[simp] theorem State.sleepOn_notes (s : State) (w : Sleep) : (s.sleepOn w).notes = s.notes := rfl
@[simp] theorem State.sleepOn_gclk (s : State) (w : Sleep) : (s.sleepOn w).gclk = s.gclk := rfl
@[simp] theorem State.sleepOn_cyc (s : State) (w : Sleep) : (s.sleepOn w).cyc = s.cyc := rfl
@[simp] theorem State.sleepOn_links (s : State) (w : Sleep) : (s.sleepOn w).links = s.links := rfl
@[simp] theorem State.sleepOn_linkEvents (s : State) (w : Sleep) : (s.sleepOn w).linkEvents = s.linkEvents := rfl
@[simp] theorem State.sleepOn_l2p (s : State) (w : Sleep) : (s.sleepOn w).l2p = s.l2p := rfl
@[simp] theorem State.sleepOn_pts (s : State) (w : Sleep) : (s.sleepOn w).pts = s.pts := rfl
@[simp] theorem State.sleepOn_l2pOk (s : State) (w : Sleep) : (s.sleepOn w).l2pOk = s.l2pOk := rfl
@[simp] theorem State.sleepOn_caps (s : State) (w : Sleep) : (s.sleepOn w).caps = s.caps := rfl
@[simp] theorem State.sleepOn_fused (s : State) (w : Sleep) : (s.sleepOn w).fused = s.fused := rfl
@[simp] theorem State.sleepOn_keyFuse (s : State) (w : Sleep) : (s.sleepOn w).keyFuse = s.keyFuse := rfl
@[simp] theorem State.sleepOn_minFuse (s : State) (w : Sleep) : (s.sleepOn w).minFuse = s.minFuse := rfl
@[simp] theorem State.sleepOn_firmware (s : State) (w : Sleep) : (s.sleepOn w).firmware = s.firmware := rfl
@[simp] theorem State.sleepOn_devId (s : State) (w : Sleep) : (s.sleepOn w).devId = s.devId := rfl
@[simp] theorem State.sleepOn_ngroups (s : State) (w : Sleep) : (s.sleepOn w).ngroups = s.ngroups := rfl
@[simp] theorem State.sleepOn_devstat (s : State) (w : Sleep) : (s.sleepOn w).devstat = s.devstat := rfl
@[simp] theorem State.sleepOn_entryPc (s : State) (w : Sleep) : (s.sleepOn w).entryPc = s.entryPc := rfl
@[simp] theorem State.sleepOn_pwrbal (s : State) (w : Sleep) : (s.sleepOn w).pwrbal = s.pwrbal := rfl
@[simp] theorem State.sleepOn_pwravg (s : State) (w : Sleep) : (s.sleepOn w).pwravg = s.pwravg := rfl
@[simp] theorem State.sleepOn_duty (s : State) (w : Sleep) : (s.sleepOn w).duty = s.duty := rfl
@[simp] theorem State.sleepOn_clkstep (s : State) (w : Sleep) : (s.sleepOn w).clkstep = s.clkstep := rfl
@[simp] theorem State.sleepOn_reqBal (s : State) (w : Sleep) : (s.sleepOn w).reqBal = s.reqBal := rfl
@[simp] theorem State.sleepOn_balDue (s : State) (w : Sleep) : (s.sleepOn w).balDue = s.balDue := rfl
@[simp] theorem State.sleepOn_energy (s : State) (w : Sleep) : (s.sleepOn w).energy = s.energy := rfl
@[simp] theorem State.sleepOn_moved (s : State) (w : Sleep) : (s.sleepOn w).moved = s.moved := rfl
@[simp] theorem State.sleepOn_hostHeld (s : State) (w : Sleep) : (s.sleepOn w).hostHeld = s.hostHeld := rfl
@[simp] theorem State.sleepOn_flooded (s : State) (w : Sleep) : (s.sleepOn w).flooded = s.flooded := rfl
@[simp] theorem State.sleepOn_stones (s : State) (w : Sleep) : (s.sleepOn w).stones = s.stones := rfl
@[simp] theorem State.sleepOn_functions (s : State) (w : Sleep) : (s.sleepOn w).functions = s.functions := rfl
@[simp] theorem State.sleepOn_directory (s : State) (w : Sleep) : (s.sleepOn w).directory = s.directory := rfl
@[simp] theorem State.sleepOn_regions (s : State) (w : Sleep) : (s.sleepOn w).regions = s.regions := rfl
@[simp] theorem State.sleepOn_firkins (s : State) (w : Sleep) : (s.sleepOn w).firkins = s.firkins := rfl
@[simp] theorem State.sleepOn_saved (s : State) (w : Sleep) : (s.sleepOn w).saved = s.saved := rfl
@[simp] theorem State.sleepOn_moving (s : State) (w : Sleep) : (s.sleepOn w).moving = s.moving := rfl
@[simp] theorem State.sleepOn_steals (s : State) (w : Sleep) : (s.sleepOn w).steals = s.steals := rfl
@[simp] theorem State.sleepOn_xinvs (s : State) (w : Sleep) : (s.sleepOn w).xinvs = s.xinvs := rfl
@[simp] theorem State.sleepOn_stale (s : State) (w : Sleep) : (s.sleepOn w).stale = s.stale := rfl
@[simp] theorem State.sleepOn_takes (s : State) (w : Sleep) : (s.sleepOn w).takes = s.takes := rfl
@[simp] theorem State.sleepOn_out (s : State) (w : Sleep) : (s.sleepOn w).out = s.out := rfl
@[simp] theorem State.sleepOn_cur (s : State) (w : Sleep) : (s.sleepOn w).cur = s.cur := rfl
@[simp] theorem State.sleepOn_agenda (s : State) (w : Sleep) : (s.sleepOn w).agenda = s.agenda := rfl
@[simp] theorem State.sleepOn_turn (s : State) (w : Sleep) : (s.sleepOn w).turn = s.turn := rfl
@[simp] theorem State.sleepOn_alternate (s : State) (w : Sleep) : (s.sleepOn w).alternate = s.alternate := rfl
@[simp] theorem State.sleepOn_missing (s : State) (w : Sleep) : (s.sleepOn w).missing = s.missing := rfl
@[simp] theorem State.sleepOn_snag (s : State) (w : Sleep) : (s.sleepOn w).snag = s.snag := rfl
@[simp] theorem State.sleepOn_wants (s : State) (w : Sleep) : (s.sleepOn w).wants = s.wants := rfl
@[simp] theorem State.sleepOn_freeCtr (s : State) (w : Sleep) : (s.sleepOn w).freeCtr = s.freeCtr := rfl
@[simp] theorem State.sleepOn_nextReq (s : State) (w : Sleep) : (s.sleepOn w).nextReq = s.nextReq := rfl
@[simp] theorem State.modPart_tiles (s : State) (id : Nat) (f : Part → Part) : (s.modPart id f).tiles = s.tiles := rfl
@[simp] theorem State.modPart_hbm (s : State) (id : Nat) (f : Part → Part) : (s.modPart id f).hbm = s.hbm := rfl
@[simp] theorem State.modPart_hbmBad (s : State) (id : Nat) (f : Part → Part) : (s.modPart id f).hbmBad = s.hbmBad := rfl
@[simp] theorem State.modPart_reqs (s : State) (id : Nat) (f : Part → Part) : (s.modPart id f).reqs = s.reqs := rfl
@[simp] theorem State.modPart_holders (s : State) (id : Nat) (f : Part → Part) : (s.modPart id f).holders = s.holders := rfl
@[simp] theorem State.modPart_counters (s : State) (id : Nat) (f : Part → Part) : (s.modPart id f).counters = s.counters := rfl
@[simp] theorem State.modPart_stationErrs (s : State) (id : Nat) (f : Part → Part) : (s.modPart id f).stationErrs = s.stationErrs := rfl
@[simp] theorem State.modPart_xcnt (s : State) (id : Nat) (f : Part → Part) : (s.modPart id f).xcnt = s.xcnt := rfl
@[simp] theorem State.modPart_trej (s : State) (id : Nat) (f : Part → Part) : (s.modPart id f).trej = s.trej := rfl
@[simp] theorem State.modPart_linkErrs (s : State) (id : Nat) (f : Part → Part) : (s.modPart id f).linkErrs = s.linkErrs := rfl
@[simp] theorem State.modPart_lastIn (s : State) (id : Nat) (f : Part → Part) : (s.modPart id f).lastIn = s.lastIn := rfl
@[simp] theorem State.modPart_outFree (s : State) (id : Nat) (f : Part → Part) : (s.modPart id f).outFree = s.outFree := rfl
@[simp] theorem State.modPart_windows (s : State) (id : Nat) (f : Part → Part) : (s.modPart id f).windows = s.windows := rfl
@[simp] theorem State.modPart_notes (s : State) (id : Nat) (f : Part → Part) : (s.modPart id f).notes = s.notes := rfl
@[simp] theorem State.modPart_gclk (s : State) (id : Nat) (f : Part → Part) : (s.modPart id f).gclk = s.gclk := rfl
@[simp] theorem State.modPart_cyc (s : State) (id : Nat) (f : Part → Part) : (s.modPart id f).cyc = s.cyc := rfl
@[simp] theorem State.modPart_links (s : State) (id : Nat) (f : Part → Part) : (s.modPart id f).links = s.links := rfl
@[simp] theorem State.modPart_linkEvents (s : State) (id : Nat) (f : Part → Part) : (s.modPart id f).linkEvents = s.linkEvents := rfl
@[simp] theorem State.modPart_l2p (s : State) (id : Nat) (f : Part → Part) : (s.modPart id f).l2p = s.l2p := rfl
@[simp] theorem State.modPart_pts (s : State) (id : Nat) (f : Part → Part) : (s.modPart id f).pts = s.pts := rfl
@[simp] theorem State.modPart_l2pOk (s : State) (id : Nat) (f : Part → Part) : (s.modPart id f).l2pOk = s.l2pOk := rfl
@[simp] theorem State.modPart_caps (s : State) (id : Nat) (f : Part → Part) : (s.modPart id f).caps = s.caps := rfl
@[simp] theorem State.modPart_fused (s : State) (id : Nat) (f : Part → Part) : (s.modPart id f).fused = s.fused := rfl
@[simp] theorem State.modPart_keyFuse (s : State) (id : Nat) (f : Part → Part) : (s.modPart id f).keyFuse = s.keyFuse := rfl
@[simp] theorem State.modPart_minFuse (s : State) (id : Nat) (f : Part → Part) : (s.modPart id f).minFuse = s.minFuse := rfl
@[simp] theorem State.modPart_firmware (s : State) (id : Nat) (f : Part → Part) : (s.modPart id f).firmware = s.firmware := rfl
@[simp] theorem State.modPart_devId (s : State) (id : Nat) (f : Part → Part) : (s.modPart id f).devId = s.devId := rfl
@[simp] theorem State.modPart_ngroups (s : State) (id : Nat) (f : Part → Part) : (s.modPart id f).ngroups = s.ngroups := rfl
@[simp] theorem State.modPart_devstat (s : State) (id : Nat) (f : Part → Part) : (s.modPart id f).devstat = s.devstat := rfl
@[simp] theorem State.modPart_entryPc (s : State) (id : Nat) (f : Part → Part) : (s.modPart id f).entryPc = s.entryPc := rfl
@[simp] theorem State.modPart_pwrbal (s : State) (id : Nat) (f : Part → Part) : (s.modPart id f).pwrbal = s.pwrbal := rfl
@[simp] theorem State.modPart_pwravg (s : State) (id : Nat) (f : Part → Part) : (s.modPart id f).pwravg = s.pwravg := rfl
@[simp] theorem State.modPart_duty (s : State) (id : Nat) (f : Part → Part) : (s.modPart id f).duty = s.duty := rfl
@[simp] theorem State.modPart_clkstep (s : State) (id : Nat) (f : Part → Part) : (s.modPart id f).clkstep = s.clkstep := rfl
@[simp] theorem State.modPart_reqBal (s : State) (id : Nat) (f : Part → Part) : (s.modPart id f).reqBal = s.reqBal := rfl
@[simp] theorem State.modPart_balDue (s : State) (id : Nat) (f : Part → Part) : (s.modPart id f).balDue = s.balDue := rfl
@[simp] theorem State.modPart_energy (s : State) (id : Nat) (f : Part → Part) : (s.modPart id f).energy = s.energy := rfl
@[simp] theorem State.modPart_moved (s : State) (id : Nat) (f : Part → Part) : (s.modPart id f).moved = s.moved := rfl
@[simp] theorem State.modPart_hostHeld (s : State) (id : Nat) (f : Part → Part) : (s.modPart id f).hostHeld = s.hostHeld := rfl
@[simp] theorem State.modPart_flooded (s : State) (id : Nat) (f : Part → Part) : (s.modPart id f).flooded = s.flooded := rfl
@[simp] theorem State.modPart_stones (s : State) (id : Nat) (f : Part → Part) : (s.modPart id f).stones = s.stones := rfl
@[simp] theorem State.modPart_functions (s : State) (id : Nat) (f : Part → Part) : (s.modPart id f).functions = s.functions := rfl
@[simp] theorem State.modPart_directory (s : State) (id : Nat) (f : Part → Part) : (s.modPart id f).directory = s.directory := rfl
@[simp] theorem State.modPart_regions (s : State) (id : Nat) (f : Part → Part) : (s.modPart id f).regions = s.regions := rfl
@[simp] theorem State.modPart_firkins (s : State) (id : Nat) (f : Part → Part) : (s.modPart id f).firkins = s.firkins := rfl
@[simp] theorem State.modPart_saved (s : State) (id : Nat) (f : Part → Part) : (s.modPart id f).saved = s.saved := rfl
@[simp] theorem State.modPart_moving (s : State) (id : Nat) (f : Part → Part) : (s.modPart id f).moving = s.moving := rfl
@[simp] theorem State.modPart_steals (s : State) (id : Nat) (f : Part → Part) : (s.modPart id f).steals = s.steals := rfl
@[simp] theorem State.modPart_xinvs (s : State) (id : Nat) (f : Part → Part) : (s.modPart id f).xinvs = s.xinvs := rfl
@[simp] theorem State.modPart_stale (s : State) (id : Nat) (f : Part → Part) : (s.modPart id f).stale = s.stale := rfl
@[simp] theorem State.modPart_takes (s : State) (id : Nat) (f : Part → Part) : (s.modPart id f).takes = s.takes := rfl
@[simp] theorem State.modPart_out (s : State) (id : Nat) (f : Part → Part) : (s.modPart id f).out = s.out := rfl
@[simp] theorem State.modPart_cur (s : State) (id : Nat) (f : Part → Part) : (s.modPart id f).cur = s.cur := rfl
@[simp] theorem State.modPart_agenda (s : State) (id : Nat) (f : Part → Part) : (s.modPart id f).agenda = s.agenda := rfl
@[simp] theorem State.modPart_turn (s : State) (id : Nat) (f : Part → Part) : (s.modPart id f).turn = s.turn := rfl
@[simp] theorem State.modPart_alternate (s : State) (id : Nat) (f : Part → Part) : (s.modPart id f).alternate = s.alternate := rfl
@[simp] theorem State.modPart_missing (s : State) (id : Nat) (f : Part → Part) : (s.modPart id f).missing = s.missing := rfl
@[simp] theorem State.modPart_snag (s : State) (id : Nat) (f : Part → Part) : (s.modPart id f).snag = s.snag := rfl
@[simp] theorem State.modPart_wants (s : State) (id : Nat) (f : Part → Part) : (s.modPart id f).wants = s.wants := rfl
@[simp] theorem State.modPart_freeCtr (s : State) (id : Nat) (f : Part → Part) : (s.modPart id f).freeCtr = s.freeCtr := rfl
@[simp] theorem State.modPart_nextReq (s : State) (id : Nat) (f : Part → Part) : (s.modPart id f).nextReq = s.nextReq := rfl
@[simp] theorem State.modFunction_tiles (s : State) (fn : Nat) (f : Function → Function) : (s.modFunction fn f).tiles = s.tiles := rfl
@[simp] theorem State.modFunction_parts (s : State) (fn : Nat) (f : Function → Function) : (s.modFunction fn f).parts = s.parts := rfl
@[simp] theorem State.modFunction_hbm (s : State) (fn : Nat) (f : Function → Function) : (s.modFunction fn f).hbm = s.hbm := rfl
@[simp] theorem State.modFunction_hbmBad (s : State) (fn : Nat) (f : Function → Function) : (s.modFunction fn f).hbmBad = s.hbmBad := rfl
@[simp] theorem State.modFunction_reqs (s : State) (fn : Nat) (f : Function → Function) : (s.modFunction fn f).reqs = s.reqs := rfl
@[simp] theorem State.modFunction_holders (s : State) (fn : Nat) (f : Function → Function) : (s.modFunction fn f).holders = s.holders := rfl
@[simp] theorem State.modFunction_counters (s : State) (fn : Nat) (f : Function → Function) : (s.modFunction fn f).counters = s.counters := rfl
@[simp] theorem State.modFunction_stationErrs (s : State) (fn : Nat) (f : Function → Function) : (s.modFunction fn f).stationErrs = s.stationErrs := rfl
@[simp] theorem State.modFunction_xcnt (s : State) (fn : Nat) (f : Function → Function) : (s.modFunction fn f).xcnt = s.xcnt := rfl
@[simp] theorem State.modFunction_trej (s : State) (fn : Nat) (f : Function → Function) : (s.modFunction fn f).trej = s.trej := rfl
@[simp] theorem State.modFunction_linkErrs (s : State) (fn : Nat) (f : Function → Function) : (s.modFunction fn f).linkErrs = s.linkErrs := rfl
@[simp] theorem State.modFunction_lastIn (s : State) (fn : Nat) (f : Function → Function) : (s.modFunction fn f).lastIn = s.lastIn := rfl
@[simp] theorem State.modFunction_outFree (s : State) (fn : Nat) (f : Function → Function) : (s.modFunction fn f).outFree = s.outFree := rfl
@[simp] theorem State.modFunction_windows (s : State) (fn : Nat) (f : Function → Function) : (s.modFunction fn f).windows = s.windows := rfl
@[simp] theorem State.modFunction_notes (s : State) (fn : Nat) (f : Function → Function) : (s.modFunction fn f).notes = s.notes := rfl
@[simp] theorem State.modFunction_gclk (s : State) (fn : Nat) (f : Function → Function) : (s.modFunction fn f).gclk = s.gclk := rfl
@[simp] theorem State.modFunction_cyc (s : State) (fn : Nat) (f : Function → Function) : (s.modFunction fn f).cyc = s.cyc := rfl
@[simp] theorem State.modFunction_links (s : State) (fn : Nat) (f : Function → Function) : (s.modFunction fn f).links = s.links := rfl
@[simp] theorem State.modFunction_linkEvents (s : State) (fn : Nat) (f : Function → Function) : (s.modFunction fn f).linkEvents = s.linkEvents := rfl
@[simp] theorem State.modFunction_l2p (s : State) (fn : Nat) (f : Function → Function) : (s.modFunction fn f).l2p = s.l2p := rfl
@[simp] theorem State.modFunction_pts (s : State) (fn : Nat) (f : Function → Function) : (s.modFunction fn f).pts = s.pts := rfl
@[simp] theorem State.modFunction_l2pOk (s : State) (fn : Nat) (f : Function → Function) : (s.modFunction fn f).l2pOk = s.l2pOk := rfl
@[simp] theorem State.modFunction_caps (s : State) (fn : Nat) (f : Function → Function) : (s.modFunction fn f).caps = s.caps := rfl
@[simp] theorem State.modFunction_fused (s : State) (fn : Nat) (f : Function → Function) : (s.modFunction fn f).fused = s.fused := rfl
@[simp] theorem State.modFunction_keyFuse (s : State) (fn : Nat) (f : Function → Function) : (s.modFunction fn f).keyFuse = s.keyFuse := rfl
@[simp] theorem State.modFunction_minFuse (s : State) (fn : Nat) (f : Function → Function) : (s.modFunction fn f).minFuse = s.minFuse := rfl
@[simp] theorem State.modFunction_firmware (s : State) (fn : Nat) (f : Function → Function) : (s.modFunction fn f).firmware = s.firmware := rfl
@[simp] theorem State.modFunction_devId (s : State) (fn : Nat) (f : Function → Function) : (s.modFunction fn f).devId = s.devId := rfl
@[simp] theorem State.modFunction_ngroups (s : State) (fn : Nat) (f : Function → Function) : (s.modFunction fn f).ngroups = s.ngroups := rfl
@[simp] theorem State.modFunction_devstat (s : State) (fn : Nat) (f : Function → Function) : (s.modFunction fn f).devstat = s.devstat := rfl
@[simp] theorem State.modFunction_entryPc (s : State) (fn : Nat) (f : Function → Function) : (s.modFunction fn f).entryPc = s.entryPc := rfl
@[simp] theorem State.modFunction_pwrbal (s : State) (fn : Nat) (f : Function → Function) : (s.modFunction fn f).pwrbal = s.pwrbal := rfl
@[simp] theorem State.modFunction_pwravg (s : State) (fn : Nat) (f : Function → Function) : (s.modFunction fn f).pwravg = s.pwravg := rfl
@[simp] theorem State.modFunction_duty (s : State) (fn : Nat) (f : Function → Function) : (s.modFunction fn f).duty = s.duty := rfl
@[simp] theorem State.modFunction_clkstep (s : State) (fn : Nat) (f : Function → Function) : (s.modFunction fn f).clkstep = s.clkstep := rfl
@[simp] theorem State.modFunction_reqBal (s : State) (fn : Nat) (f : Function → Function) : (s.modFunction fn f).reqBal = s.reqBal := rfl
@[simp] theorem State.modFunction_balDue (s : State) (fn : Nat) (f : Function → Function) : (s.modFunction fn f).balDue = s.balDue := rfl
@[simp] theorem State.modFunction_energy (s : State) (fn : Nat) (f : Function → Function) : (s.modFunction fn f).energy = s.energy := rfl
@[simp] theorem State.modFunction_moved (s : State) (fn : Nat) (f : Function → Function) : (s.modFunction fn f).moved = s.moved := rfl
@[simp] theorem State.modFunction_hostHeld (s : State) (fn : Nat) (f : Function → Function) : (s.modFunction fn f).hostHeld = s.hostHeld := rfl
@[simp] theorem State.modFunction_flooded (s : State) (fn : Nat) (f : Function → Function) : (s.modFunction fn f).flooded = s.flooded := rfl
@[simp] theorem State.modFunction_stones (s : State) (fn : Nat) (f : Function → Function) : (s.modFunction fn f).stones = s.stones := rfl
@[simp] theorem State.modFunction_directory (s : State) (fn : Nat) (f : Function → Function) : (s.modFunction fn f).directory = s.directory := rfl
@[simp] theorem State.modFunction_regions (s : State) (fn : Nat) (f : Function → Function) : (s.modFunction fn f).regions = s.regions := rfl
@[simp] theorem State.modFunction_firkins (s : State) (fn : Nat) (f : Function → Function) : (s.modFunction fn f).firkins = s.firkins := rfl
@[simp] theorem State.modFunction_saved (s : State) (fn : Nat) (f : Function → Function) : (s.modFunction fn f).saved = s.saved := rfl
@[simp] theorem State.modFunction_moving (s : State) (fn : Nat) (f : Function → Function) : (s.modFunction fn f).moving = s.moving := rfl
@[simp] theorem State.modFunction_steals (s : State) (fn : Nat) (f : Function → Function) : (s.modFunction fn f).steals = s.steals := rfl
@[simp] theorem State.modFunction_xinvs (s : State) (fn : Nat) (f : Function → Function) : (s.modFunction fn f).xinvs = s.xinvs := rfl
@[simp] theorem State.modFunction_stale (s : State) (fn : Nat) (f : Function → Function) : (s.modFunction fn f).stale = s.stale := rfl
@[simp] theorem State.modFunction_takes (s : State) (fn : Nat) (f : Function → Function) : (s.modFunction fn f).takes = s.takes := rfl
@[simp] theorem State.modFunction_out (s : State) (fn : Nat) (f : Function → Function) : (s.modFunction fn f).out = s.out := rfl
@[simp] theorem State.modFunction_cur (s : State) (fn : Nat) (f : Function → Function) : (s.modFunction fn f).cur = s.cur := rfl
@[simp] theorem State.modFunction_agenda (s : State) (fn : Nat) (f : Function → Function) : (s.modFunction fn f).agenda = s.agenda := rfl
@[simp] theorem State.modFunction_turn (s : State) (fn : Nat) (f : Function → Function) : (s.modFunction fn f).turn = s.turn := rfl
@[simp] theorem State.modFunction_alternate (s : State) (fn : Nat) (f : Function → Function) : (s.modFunction fn f).alternate = s.alternate := rfl
@[simp] theorem State.modFunction_missing (s : State) (fn : Nat) (f : Function → Function) : (s.modFunction fn f).missing = s.missing := rfl
@[simp] theorem State.modFunction_snag (s : State) (fn : Nat) (f : Function → Function) : (s.modFunction fn f).snag = s.snag := rfl
@[simp] theorem State.modFunction_wants (s : State) (fn : Nat) (f : Function → Function) : (s.modFunction fn f).wants = s.wants := rfl
@[simp] theorem State.modFunction_freeCtr (s : State) (fn : Nat) (f : Function → Function) : (s.modFunction fn f).freeCtr = s.freeCtr := rfl
@[simp] theorem State.modFunction_nextReq (s : State) (fn : Nat) (f : Function → Function) : (s.modFunction fn f).nextReq = s.nextReq := rfl
@[simp] theorem State.emit_tiles (s : State) (o : Output) : (s.emit o).tiles = s.tiles := rfl
@[simp] theorem State.emit_parts (s : State) (o : Output) : (s.emit o).parts = s.parts := rfl
@[simp] theorem State.emit_hbm (s : State) (o : Output) : (s.emit o).hbm = s.hbm := rfl
@[simp] theorem State.emit_hbmBad (s : State) (o : Output) : (s.emit o).hbmBad = s.hbmBad := rfl
@[simp] theorem State.emit_reqs (s : State) (o : Output) : (s.emit o).reqs = s.reqs := rfl
@[simp] theorem State.emit_holders (s : State) (o : Output) : (s.emit o).holders = s.holders := rfl
@[simp] theorem State.emit_counters (s : State) (o : Output) : (s.emit o).counters = s.counters := rfl
@[simp] theorem State.emit_stationErrs (s : State) (o : Output) : (s.emit o).stationErrs = s.stationErrs := rfl
@[simp] theorem State.emit_xcnt (s : State) (o : Output) : (s.emit o).xcnt = s.xcnt := rfl
@[simp] theorem State.emit_trej (s : State) (o : Output) : (s.emit o).trej = s.trej := rfl
@[simp] theorem State.emit_linkErrs (s : State) (o : Output) : (s.emit o).linkErrs = s.linkErrs := rfl
@[simp] theorem State.emit_lastIn (s : State) (o : Output) : (s.emit o).lastIn = s.lastIn := rfl
@[simp] theorem State.emit_outFree (s : State) (o : Output) : (s.emit o).outFree = s.outFree := rfl
@[simp] theorem State.emit_windows (s : State) (o : Output) : (s.emit o).windows = s.windows := rfl
@[simp] theorem State.emit_notes (s : State) (o : Output) : (s.emit o).notes = s.notes := rfl
@[simp] theorem State.emit_gclk (s : State) (o : Output) : (s.emit o).gclk = s.gclk := rfl
@[simp] theorem State.emit_cyc (s : State) (o : Output) : (s.emit o).cyc = s.cyc := rfl
@[simp] theorem State.emit_links (s : State) (o : Output) : (s.emit o).links = s.links := rfl
@[simp] theorem State.emit_linkEvents (s : State) (o : Output) : (s.emit o).linkEvents = s.linkEvents := rfl
@[simp] theorem State.emit_l2p (s : State) (o : Output) : (s.emit o).l2p = s.l2p := rfl
@[simp] theorem State.emit_pts (s : State) (o : Output) : (s.emit o).pts = s.pts := rfl
@[simp] theorem State.emit_l2pOk (s : State) (o : Output) : (s.emit o).l2pOk = s.l2pOk := rfl
@[simp] theorem State.emit_caps (s : State) (o : Output) : (s.emit o).caps = s.caps := rfl
@[simp] theorem State.emit_fused (s : State) (o : Output) : (s.emit o).fused = s.fused := rfl
@[simp] theorem State.emit_keyFuse (s : State) (o : Output) : (s.emit o).keyFuse = s.keyFuse := rfl
@[simp] theorem State.emit_minFuse (s : State) (o : Output) : (s.emit o).minFuse = s.minFuse := rfl
@[simp] theorem State.emit_firmware (s : State) (o : Output) : (s.emit o).firmware = s.firmware := rfl
@[simp] theorem State.emit_devId (s : State) (o : Output) : (s.emit o).devId = s.devId := rfl
@[simp] theorem State.emit_ngroups (s : State) (o : Output) : (s.emit o).ngroups = s.ngroups := rfl
@[simp] theorem State.emit_devstat (s : State) (o : Output) : (s.emit o).devstat = s.devstat := rfl
@[simp] theorem State.emit_entryPc (s : State) (o : Output) : (s.emit o).entryPc = s.entryPc := rfl
@[simp] theorem State.emit_pwrbal (s : State) (o : Output) : (s.emit o).pwrbal = s.pwrbal := rfl
@[simp] theorem State.emit_pwravg (s : State) (o : Output) : (s.emit o).pwravg = s.pwravg := rfl
@[simp] theorem State.emit_duty (s : State) (o : Output) : (s.emit o).duty = s.duty := rfl
@[simp] theorem State.emit_clkstep (s : State) (o : Output) : (s.emit o).clkstep = s.clkstep := rfl
@[simp] theorem State.emit_reqBal (s : State) (o : Output) : (s.emit o).reqBal = s.reqBal := rfl
@[simp] theorem State.emit_balDue (s : State) (o : Output) : (s.emit o).balDue = s.balDue := rfl
@[simp] theorem State.emit_energy (s : State) (o : Output) : (s.emit o).energy = s.energy := rfl
@[simp] theorem State.emit_moved (s : State) (o : Output) : (s.emit o).moved = s.moved := rfl
@[simp] theorem State.emit_hostHeld (s : State) (o : Output) : (s.emit o).hostHeld = s.hostHeld := rfl
@[simp] theorem State.emit_flooded (s : State) (o : Output) : (s.emit o).flooded = s.flooded := rfl
@[simp] theorem State.emit_stones (s : State) (o : Output) : (s.emit o).stones = s.stones := rfl
@[simp] theorem State.emit_functions (s : State) (o : Output) : (s.emit o).functions = s.functions := rfl
@[simp] theorem State.emit_directory (s : State) (o : Output) : (s.emit o).directory = s.directory := rfl
@[simp] theorem State.emit_regions (s : State) (o : Output) : (s.emit o).regions = s.regions := rfl
@[simp] theorem State.emit_firkins (s : State) (o : Output) : (s.emit o).firkins = s.firkins := rfl
@[simp] theorem State.emit_saved (s : State) (o : Output) : (s.emit o).saved = s.saved := rfl
@[simp] theorem State.emit_moving (s : State) (o : Output) : (s.emit o).moving = s.moving := rfl
@[simp] theorem State.emit_steals (s : State) (o : Output) : (s.emit o).steals = s.steals := rfl
@[simp] theorem State.emit_xinvs (s : State) (o : Output) : (s.emit o).xinvs = s.xinvs := rfl
@[simp] theorem State.emit_stale (s : State) (o : Output) : (s.emit o).stale = s.stale := rfl
@[simp] theorem State.emit_takes (s : State) (o : Output) : (s.emit o).takes = s.takes := rfl
@[simp] theorem State.emit_cur (s : State) (o : Output) : (s.emit o).cur = s.cur := rfl
@[simp] theorem State.emit_agenda (s : State) (o : Output) : (s.emit o).agenda = s.agenda := rfl
@[simp] theorem State.emit_turn (s : State) (o : Output) : (s.emit o).turn = s.turn := rfl
@[simp] theorem State.emit_alternate (s : State) (o : Output) : (s.emit o).alternate = s.alternate := rfl
@[simp] theorem State.emit_missing (s : State) (o : Output) : (s.emit o).missing = s.missing := rfl
@[simp] theorem State.emit_snag (s : State) (o : Output) : (s.emit o).snag = s.snag := rfl
@[simp] theorem State.emit_wants (s : State) (o : Output) : (s.emit o).wants = s.wants := rfl
@[simp] theorem State.emit_freeCtr (s : State) (o : Output) : (s.emit o).freeCtr = s.freeCtr := rfl
@[simp] theorem State.emit_nextReq (s : State) (o : Output) : (s.emit o).nextReq = s.nextReq := rfl
@[simp] theorem State.used_tiles (s : State) (n : Nat) : (s.used n).tiles = s.tiles := rfl
@[simp] theorem State.used_parts (s : State) (n : Nat) : (s.used n).parts = s.parts := rfl
@[simp] theorem State.used_hbm (s : State) (n : Nat) : (s.used n).hbm = s.hbm := rfl
@[simp] theorem State.used_hbmBad (s : State) (n : Nat) : (s.used n).hbmBad = s.hbmBad := rfl
@[simp] theorem State.used_reqs (s : State) (n : Nat) : (s.used n).reqs = s.reqs := rfl
@[simp] theorem State.used_holders (s : State) (n : Nat) : (s.used n).holders = s.holders := rfl
@[simp] theorem State.used_counters (s : State) (n : Nat) : (s.used n).counters = s.counters := rfl
@[simp] theorem State.used_stationErrs (s : State) (n : Nat) : (s.used n).stationErrs = s.stationErrs := rfl
@[simp] theorem State.used_xcnt (s : State) (n : Nat) : (s.used n).xcnt = s.xcnt := rfl
@[simp] theorem State.used_trej (s : State) (n : Nat) : (s.used n).trej = s.trej := rfl
@[simp] theorem State.used_linkErrs (s : State) (n : Nat) : (s.used n).linkErrs = s.linkErrs := rfl
@[simp] theorem State.used_lastIn (s : State) (n : Nat) : (s.used n).lastIn = s.lastIn := rfl
@[simp] theorem State.used_outFree (s : State) (n : Nat) : (s.used n).outFree = s.outFree := rfl
@[simp] theorem State.used_windows (s : State) (n : Nat) : (s.used n).windows = s.windows := rfl
@[simp] theorem State.used_notes (s : State) (n : Nat) : (s.used n).notes = s.notes := rfl
@[simp] theorem State.used_gclk (s : State) (n : Nat) : (s.used n).gclk = s.gclk := rfl
@[simp] theorem State.used_cyc (s : State) (n : Nat) : (s.used n).cyc = s.cyc := rfl
@[simp] theorem State.used_links (s : State) (n : Nat) : (s.used n).links = s.links := rfl
@[simp] theorem State.used_linkEvents (s : State) (n : Nat) : (s.used n).linkEvents = s.linkEvents := rfl
@[simp] theorem State.used_l2p (s : State) (n : Nat) : (s.used n).l2p = s.l2p := rfl
@[simp] theorem State.used_pts (s : State) (n : Nat) : (s.used n).pts = s.pts := rfl
@[simp] theorem State.used_l2pOk (s : State) (n : Nat) : (s.used n).l2pOk = s.l2pOk := rfl
@[simp] theorem State.used_caps (s : State) (n : Nat) : (s.used n).caps = s.caps := rfl
@[simp] theorem State.used_fused (s : State) (n : Nat) : (s.used n).fused = s.fused := rfl
@[simp] theorem State.used_keyFuse (s : State) (n : Nat) : (s.used n).keyFuse = s.keyFuse := rfl
@[simp] theorem State.used_minFuse (s : State) (n : Nat) : (s.used n).minFuse = s.minFuse := rfl
@[simp] theorem State.used_firmware (s : State) (n : Nat) : (s.used n).firmware = s.firmware := rfl
@[simp] theorem State.used_devId (s : State) (n : Nat) : (s.used n).devId = s.devId := rfl
@[simp] theorem State.used_ngroups (s : State) (n : Nat) : (s.used n).ngroups = s.ngroups := rfl
@[simp] theorem State.used_devstat (s : State) (n : Nat) : (s.used n).devstat = s.devstat := rfl
@[simp] theorem State.used_entryPc (s : State) (n : Nat) : (s.used n).entryPc = s.entryPc := rfl
@[simp] theorem State.used_pwrbal (s : State) (n : Nat) : (s.used n).pwrbal = s.pwrbal := rfl
@[simp] theorem State.used_pwravg (s : State) (n : Nat) : (s.used n).pwravg = s.pwravg := rfl
@[simp] theorem State.used_duty (s : State) (n : Nat) : (s.used n).duty = s.duty := rfl
@[simp] theorem State.used_clkstep (s : State) (n : Nat) : (s.used n).clkstep = s.clkstep := rfl
@[simp] theorem State.used_reqBal (s : State) (n : Nat) : (s.used n).reqBal = s.reqBal := rfl
@[simp] theorem State.used_balDue (s : State) (n : Nat) : (s.used n).balDue = s.balDue := rfl
@[simp] theorem State.used_energy (s : State) (n : Nat) : (s.used n).energy = s.energy := rfl
@[simp] theorem State.used_moved (s : State) (n : Nat) : (s.used n).moved = s.moved := rfl
@[simp] theorem State.used_hostHeld (s : State) (n : Nat) : (s.used n).hostHeld = s.hostHeld := rfl
@[simp] theorem State.used_flooded (s : State) (n : Nat) : (s.used n).flooded = s.flooded := rfl
@[simp] theorem State.used_stones (s : State) (n : Nat) : (s.used n).stones = s.stones := rfl
@[simp] theorem State.used_functions (s : State) (n : Nat) : (s.used n).functions = s.functions := rfl
@[simp] theorem State.used_directory (s : State) (n : Nat) : (s.used n).directory = s.directory := rfl
@[simp] theorem State.used_regions (s : State) (n : Nat) : (s.used n).regions = s.regions := rfl
@[simp] theorem State.used_firkins (s : State) (n : Nat) : (s.used n).firkins = s.firkins := rfl
@[simp] theorem State.used_saved (s : State) (n : Nat) : (s.used n).saved = s.saved := rfl
@[simp] theorem State.used_moving (s : State) (n : Nat) : (s.used n).moving = s.moving := rfl
@[simp] theorem State.used_steals (s : State) (n : Nat) : (s.used n).steals = s.steals := rfl
@[simp] theorem State.used_xinvs (s : State) (n : Nat) : (s.used n).xinvs = s.xinvs := rfl
@[simp] theorem State.used_stale (s : State) (n : Nat) : (s.used n).stale = s.stale := rfl
@[simp] theorem State.used_takes (s : State) (n : Nat) : (s.used n).takes = s.takes := rfl
@[simp] theorem State.used_out (s : State) (n : Nat) : (s.used n).out = s.out := rfl
@[simp] theorem State.used_cur (s : State) (n : Nat) : (s.used n).cur = s.cur := rfl
@[simp] theorem State.used_agenda (s : State) (n : Nat) : (s.used n).agenda = s.agenda := rfl
@[simp] theorem State.used_turn (s : State) (n : Nat) : (s.used n).turn = s.turn := rfl
@[simp] theorem State.used_alternate (s : State) (n : Nat) : (s.used n).alternate = s.alternate := rfl
@[simp] theorem State.used_missing (s : State) (n : Nat) : (s.used n).missing = s.missing := rfl
@[simp] theorem State.used_snag (s : State) (n : Nat) : (s.used n).snag = s.snag := rfl
@[simp] theorem State.used_wants (s : State) (n : Nat) : (s.used n).wants = s.wants := rfl
@[simp] theorem State.used_nextReq (s : State) (n : Nat) : (s.used n).nextReq = s.nextReq := rfl
@[simp] theorem State.begin_tiles (s : State) : (s.begin).tiles = s.tiles := rfl
@[simp] theorem State.begin_parts (s : State) : (s.begin).parts = s.parts := rfl
@[simp] theorem State.begin_hbm (s : State) : (s.begin).hbm = s.hbm := rfl
@[simp] theorem State.begin_hbmBad (s : State) : (s.begin).hbmBad = s.hbmBad := rfl
@[simp] theorem State.begin_reqs (s : State) : (s.begin).reqs = s.reqs := rfl
@[simp] theorem State.begin_holders (s : State) : (s.begin).holders = s.holders := rfl
@[simp] theorem State.begin_counters (s : State) : (s.begin).counters = s.counters := rfl
@[simp] theorem State.begin_stationErrs (s : State) : (s.begin).stationErrs = s.stationErrs := rfl
@[simp] theorem State.begin_xcnt (s : State) : (s.begin).xcnt = s.xcnt := rfl
@[simp] theorem State.begin_trej (s : State) : (s.begin).trej = s.trej := rfl
@[simp] theorem State.begin_linkErrs (s : State) : (s.begin).linkErrs = s.linkErrs := rfl
@[simp] theorem State.begin_lastIn (s : State) : (s.begin).lastIn = s.lastIn := rfl
@[simp] theorem State.begin_outFree (s : State) : (s.begin).outFree = s.outFree := rfl
@[simp] theorem State.begin_windows (s : State) : (s.begin).windows = s.windows := rfl
@[simp] theorem State.begin_notes (s : State) : (s.begin).notes = s.notes := rfl
@[simp] theorem State.begin_gclk (s : State) : (s.begin).gclk = s.gclk := rfl
@[simp] theorem State.begin_cyc (s : State) : (s.begin).cyc = s.cyc := rfl
@[simp] theorem State.begin_links (s : State) : (s.begin).links = s.links := rfl
@[simp] theorem State.begin_linkEvents (s : State) : (s.begin).linkEvents = s.linkEvents := rfl
@[simp] theorem State.begin_l2p (s : State) : (s.begin).l2p = s.l2p := rfl
@[simp] theorem State.begin_pts (s : State) : (s.begin).pts = s.pts := rfl
@[simp] theorem State.begin_l2pOk (s : State) : (s.begin).l2pOk = s.l2pOk := rfl
@[simp] theorem State.begin_caps (s : State) : (s.begin).caps = s.caps := rfl
@[simp] theorem State.begin_fused (s : State) : (s.begin).fused = s.fused := rfl
@[simp] theorem State.begin_keyFuse (s : State) : (s.begin).keyFuse = s.keyFuse := rfl
@[simp] theorem State.begin_minFuse (s : State) : (s.begin).minFuse = s.minFuse := rfl
@[simp] theorem State.begin_firmware (s : State) : (s.begin).firmware = s.firmware := rfl
@[simp] theorem State.begin_devId (s : State) : (s.begin).devId = s.devId := rfl
@[simp] theorem State.begin_ngroups (s : State) : (s.begin).ngroups = s.ngroups := rfl
@[simp] theorem State.begin_devstat (s : State) : (s.begin).devstat = s.devstat := rfl
@[simp] theorem State.begin_entryPc (s : State) : (s.begin).entryPc = s.entryPc := rfl
@[simp] theorem State.begin_pwrbal (s : State) : (s.begin).pwrbal = s.pwrbal := rfl
@[simp] theorem State.begin_pwravg (s : State) : (s.begin).pwravg = s.pwravg := rfl
@[simp] theorem State.begin_duty (s : State) : (s.begin).duty = s.duty := rfl
@[simp] theorem State.begin_clkstep (s : State) : (s.begin).clkstep = s.clkstep := rfl
@[simp] theorem State.begin_reqBal (s : State) : (s.begin).reqBal = s.reqBal := rfl
@[simp] theorem State.begin_balDue (s : State) : (s.begin).balDue = s.balDue := rfl
@[simp] theorem State.begin_energy (s : State) : (s.begin).energy = s.energy := rfl
@[simp] theorem State.begin_moved (s : State) : (s.begin).moved = s.moved := rfl
@[simp] theorem State.begin_hostHeld (s : State) : (s.begin).hostHeld = s.hostHeld := rfl
@[simp] theorem State.begin_flooded (s : State) : (s.begin).flooded = s.flooded := rfl
@[simp] theorem State.begin_stones (s : State) : (s.begin).stones = s.stones := rfl
@[simp] theorem State.begin_functions (s : State) : (s.begin).functions = s.functions := rfl
@[simp] theorem State.begin_directory (s : State) : (s.begin).directory = s.directory := rfl
@[simp] theorem State.begin_regions (s : State) : (s.begin).regions = s.regions := rfl
@[simp] theorem State.begin_firkins (s : State) : (s.begin).firkins = s.firkins := rfl
@[simp] theorem State.begin_saved (s : State) : (s.begin).saved = s.saved := rfl
@[simp] theorem State.begin_moving (s : State) : (s.begin).moving = s.moving := rfl
@[simp] theorem State.begin_steals (s : State) : (s.begin).steals = s.steals := rfl
@[simp] theorem State.begin_xinvs (s : State) : (s.begin).xinvs = s.xinvs := rfl
@[simp] theorem State.begin_stale (s : State) : (s.begin).stale = s.stale := rfl
@[simp] theorem State.begin_takes (s : State) : (s.begin).takes = s.takes := rfl
@[simp] theorem State.begin_out (s : State) : (s.begin).out = s.out := rfl
@[simp] theorem State.begin_cur (s : State) : (s.begin).cur = s.cur := rfl
@[simp] theorem State.begin_agenda (s : State) : (s.begin).agenda = s.agenda := rfl
@[simp] theorem State.begin_turn (s : State) : (s.begin).turn = s.turn := rfl
@[simp] theorem State.begin_alternate (s : State) : (s.begin).alternate = s.alternate := rfl
@[simp] theorem State.begin_freeCtr (s : State) : (s.begin).freeCtr = s.freeCtr := rfl
@[simp] theorem State.begin_nextReq (s : State) : (s.begin).nextReq = s.nextReq := rfl

/-! ### Vectors -/

@[simp] theorem vget_vset {α : Type} {m : Nat} (v : Vector α m) (i j : Nat) (a d : α) :
    vget (vset v i a) j d = if i = j ∧ j < m then a else vget v j d := by
  unfold vget vset
  rw [Vector.getElem?_setIfInBounds]
  by_cases h : i = j
  · subst h
    by_cases hm : i < m <;> simp [hm]
  · simp [h]

theorem vset_vset {α : Type} {m : Nat} (v : Vector α m) (i : Nat) (a b : α) : vset (vset v i a) i b = vset v i b := by
  apply Vector.ext
  intro j hj
  simp [vset, Vector.getElem_setIfInBounds]

/-! ### Tiles and strands -/

@[simp] theorem State.tile_setTile (s : State) (k j : Nat) (t : Tile) :
    (s.setTile k t).tile j = if k = j then t else s.tile j := by
  simp only [State.tile, State.setTile, assoc_assocPut]
  split <;> rfl

theorem State.setTile_setTile (s : State) (k : Nat) (t u : Tile) : (s.setTile k t).setTile k u = s.setTile k u := by
  simp [State.setTile, assocPut_assocPut]

@[simp] theorem State.tile_modTile (s : State) (k j : Nat) (f : Tile → Tile) :
    (s.modTile k f).tile j = if k = j then f (s.tile k) else s.tile j := State.tile_setTile ..

@[simp] theorem State.tile_modCore (s : State) (k j : Nat) (f : TileCore → TileCore) :
    (s.modCore k f).tile j = if k = j then { s.tile k with core := f (s.tile k).core } else s.tile j := State.tile_modTile ..

@[simp] theorem State.tile_modEng (s : State) (k j : Nat) (f : TileEng → TileEng) :
    (s.modEng k f).tile j = if k = j then { s.tile k with eng := f (s.tile k).eng } else s.tile j := State.tile_modTile ..

theorem State.tile_modStrand (s : State) (k n j : Nat) (f : Strand → Strand) :
    (s.modStrand k n f).tile j =
      if k = j then { s.tile k with core := (s.tile k).core.modStrand n f } else s.tile j := State.tile_modCore ..

@[simp] theorem TileCore.strand_modStrand (c : TileCore) (n m : Nat) (f : Strand → Strand) :
    (c.modStrand n f).strand m = if n = m ∧ m < 16 then f (c.strand n) else c.strand m := by
  simp only [TileCore.strand, TileCore.modStrand, vget_vset]

@[simp] theorem State.strand_modStrand (s : State) (k n j m : Nat) (f : Strand → Strand) :
    (s.modStrand k n f).strand j m = if k = j ∧ n = m ∧ m < 16 then f (s.strand k n) else s.strand j m := by
  unfold State.strand
  rw [State.tile_modStrand]
  by_cases h : k = j
  · subst h
    simp
  · simp [h]

@[simp] theorem State.strand_modEng (s : State) (k j m : Nat) (f : TileEng → TileEng) : (s.modEng k f).strand j m = s.strand j m := by
  unfold State.strand
  rw [State.tile_modEng]
  split
  · rename_i h; subst h; rfl
  · rfl

/-- The issuing strand after a change of it. -/
@[simp] theorem State.me_modMe (s : State) (f : Strand → Strand) (h : s.cur.slot < 16) : (s.modMe f).me = f s.me := by
  unfold State.me State.modMe
  rw [State.strand_modStrand]
  simp [h]

/-- What a tile holds beside its strands is unchanged by a change of a strand. -/
theorem State.tile_modStrand_rest (s : State) (k n j : Nat) (f : Strand → Strand) :
    ((s.modStrand k n f).tile j).eng = (s.tile j).eng ∧ ((s.modStrand k n f).tile j).tlm = (s.tile j).tlm ∧
      ((s.modStrand k n f).tile j).undo = (s.tile j).undo ∧ ((s.modStrand k n f).tile j).own = (s.tile j).own := by
  rw [State.tile_modStrand]
  split
  · rename_i h; subst h; exact ⟨rfl, rfl, rfl, rfl⟩
  · exact ⟨rfl, rfl, rfl, rfl⟩

/-- The bytes that a tile reads are unchanged by a change of a strand. -/
theorem State.byte_modStrand (s : State) (k n j a : Nat) (f : Strand → Strand) :
    ((s.modStrand k n f).tile j).byte a = (s.tile j).byte a := by
  rw [State.tile_modStrand]
  split
  · rename_i h; subst h; rfl
  · rfl

theorem State.modStrand_modStrand (s : State) (k n : Nat) (f g : Strand → Strand) (h : n < 16) :
    (s.modStrand k n f).modStrand k n g = s.modStrand k n fun st => g (f st) := by
  unfold State.modStrand State.modCore State.modTile
  rw [State.setTile_setTile, State.tile_setTile, if_pos rfl]
  simp only [TileCore.modStrand, TileCore.strand, vget_vset, vset_vset, h, and_self, if_true]

/-! ### Partitions and functions -/

@[simp] theorem State.part_modPart (s : State) (id j : Nat) (f : Part → Part) :
    (s.modPart id f).part j = if id = j then f (s.part id) else s.part j := by
  simp only [State.part, State.modPart, assoc_assocPut]
  split <;> rfl

@[simp] theorem State.function_modFunction (s : State) (fn j : Nat) (f : Function → Function) :
    (s.modFunction fn f).function j = if fn = j then f (s.function fn) else s.function j := by
  simp only [State.function, State.modFunction, assoc_assocPut]
  split <;> rfl

end Sys2Proof.Machine
end

