-- ==== Sys2Proof/Laws/Canonical.lean ====
section
/-! SUPPORT. The shared operations of the machine keep memory in its canonical form and leave alone what manufacture fixes: one
lemma for each operation, for proofs about every step. -/

namespace Sys2Proof.Machine

/-! ### Memory keeps its canonical form -/

/-- The form of memory depends on three fields of the state alone. -/
theorem State.memoryCanonical_of_eq {s t : State} (h : s.memoryCanonical) (hh : t.hbm = s.hbm) (ht : t.tiles = s.tiles)
    (hf : t.firkins = s.firkins) : t.memoryCanonical := by
  unfold State.memoryCanonical at *
  rwa [hh, ht, hf]

theorem Tile.reset_wf : Memory.wf Tile.reset.tlm = true := rfl

/-- What a keyed list gives is one of its entries. -/
theorem assoc_some_mem {α : Type} {l : List (Nat × α)} {n : Nat} {v : α} (h : assoc l n = some v) : ∃ p ∈ l, p.2 = v := by
  induction l with
  | nil => simp [assoc] at h
  | cons p l ih =>
    unfold assoc at h
    split at h
    · exact ⟨p, List.mem_cons_self .., by simpa using h⟩
    · obtain ⟨q, hq, rfl⟩ := ih h
      exact ⟨q, List.mem_cons_of_mem _ hq, rfl⟩

/-- A tile of a state with canonical memory has a canonical TLM. -/
theorem State.tile_wf {s : State} (h : s.memoryCanonical) (k : Nat) : Memory.wf (s.tile k).tlm = true := by
  unfold State.tile
  cases ha : assoc s.tiles k with
  | none => exact Tile.reset_wf
  | some t =>
    obtain ⟨p, hp, rfl⟩ := assoc_some_mem ha
    exact h.2.1 p hp

theorem State.memoryCanonical_setTile {s : State} (h : s.memoryCanonical) (k : Nat) {t : Tile} (ht : Memory.wf t.tlm = true) :
    (s.setTile k t).memoryCanonical := by
  refine ⟨h.1, fun p hp => ?_, h.2.2⟩
  rcases assocPut_mem hp with hp | hp
  · rw [hp]; exact ht
  · exact h.2.1 p hp

theorem State.memoryCanonical_modTile {s : State} (h : s.memoryCanonical) (k : Nat) {f : Tile → Tile}
    (hf : ∀ t : Tile, Memory.wf t.tlm = true → Memory.wf (f t).tlm = true) : (s.modTile k f).memoryCanonical :=
  State.memoryCanonical_setTile h k (hf _ (State.tile_wf h k))

theorem State.memoryCanonical_modCore {s : State} (h : s.memoryCanonical) (k : Nat) (f : TileCore → TileCore) :
    (s.modCore k f).memoryCanonical := State.memoryCanonical_modTile h k fun _ ht => ht

theorem State.memoryCanonical_modEng {s : State} (h : s.memoryCanonical) (k : Nat) (f : TileEng → TileEng) :
    (s.modEng k f).memoryCanonical := State.memoryCanonical_modTile h k fun _ ht => ht

theorem State.memoryCanonical_modStrand {s : State} (h : s.memoryCanonical) (k n : Nat) (f : Strand → Strand) :
    (s.modStrand k n f).memoryCanonical := State.memoryCanonical_modCore h k _

theorem State.memoryCanonical_modMe {s : State} (h : s.memoryCanonical) (f : Strand → Strand) : (s.modMe f).memoryCanonical :=
  State.memoryCanonical_modStrand h _ _ f

theorem State.memoryCanonical_putX {s : State} (h : s.memoryCanonical) (lat : Nat) (r : Reg) (v : Word) :
    (s.putX lat r v).memoryCanonical := State.memoryCanonical_modMe h _

theorem State.memoryCanonical_putP {s : State} (h : s.memoryCanonical) (lat : Nat) (r : PredReg) (v : Bool) :
    (s.putP lat r v).memoryCanonical := State.memoryCanonical_modMe h _

theorem State.memoryCanonical_markX {s : State} (h : s.memoryCanonical) (r : Reg) : (s.markX r).memoryCanonical :=
  State.memoryCanonical_modMe h _

theorem State.memoryCanonical_landX {s : State} (h : s.memoryCanonical) (k n : Nat) (r : Reg) (v : Word) :
    (s.landX k n r v).memoryCanonical := State.memoryCanonical_modStrand h k n _

theorem State.memoryCanonical_sleepOn {s : State} (h : s.memoryCanonical) (w : Sleep) : (s.sleepOn w).memoryCanonical :=
  State.memoryCanonical_modMe h _

theorem State.memoryCanonical_hold {s : State} (h : s.memoryCanonical) : s.hold.memoryCanonical := by
  unfold State.hold
  split <;> first | exact State.memoryCanonical_modMe h _ | exact State.memoryCanonical_of_eq h rfl rfl rfl

theorem State.memoryCanonical_modPart {s : State} (h : s.memoryCanonical) (id : Nat) (f : Part → Part) :
    (s.modPart id f).memoryCanonical := State.memoryCanonical_of_eq h rfl rfl rfl

theorem State.memoryCanonical_modFunction {s : State} (h : s.memoryCanonical) (fn : Nat) (f : Function → Function) :
    (s.modFunction fn f).memoryCanonical := State.memoryCanonical_of_eq h rfl rfl rfl

theorem State.memoryCanonical_emit {s : State} (h : s.memoryCanonical) (o : Output) : (s.emit o).memoryCanonical :=
  State.memoryCanonical_of_eq h rfl rfl rfl

theorem State.memoryCanonical_used {s : State} (h : s.memoryCanonical) (n : Nat) : (s.used n).memoryCanonical :=
  State.memoryCanonical_of_eq h rfl rfl rfl

theorem State.memoryCanonical_begin {s : State} (h : s.memoryCanonical) : s.begin.memoryCanonical :=
  State.memoryCanonical_of_eq h rfl rfl rfl

theorem State.memoryCanonical_record {s : State} (h : s.memoryCanonical) (k cause : Nat) : (s.record k cause).memoryCanonical :=
  State.memoryCanonical_modTile h k fun _ ht => ht

theorem State.memoryCanonical_castAbort {s : State} (h : s.memoryCanonical) (k cause : Nat) :
    (s.castAbort k cause).memoryCanonical := by
  unfold State.castAbort
  split_ifs
  · exact h
  · exact State.memoryCanonical_modTile h k fun _ ht => ht
  · exact State.memoryCanonical_modTile (State.memoryCanonical_record h k cause) k fun _ ht => ht

theorem State.memoryCanonical_stickyVote {s : State} (h : s.memoryCanonical) (k cause : Nat) :
    (s.stickyVote k cause).memoryCanonical := by
  unfold State.stickyVote
  split_ifs
  · exact h
  · exact State.memoryCanonical_modTile (State.memoryCanonical_record h k cause) k fun _ ht => ht

theorem State.memoryCanonical_capacity {s : State} (h : s.memoryCanonical) (k cause : Nat) :
    (s.capacity k cause).memoryCanonical := by
  unfold State.capacity
  split_ifs
  · exact State.memoryCanonical_castAbort h k cause
  · exact State.memoryCanonical_modTile (State.memoryCanonical_castAbort h k cause) k fun _ ht => ht

/-- A tile's write of its own TLM, or the capacity cause that stands in its place. -/
theorem State.memoryCanonical_tlmWrite {s : State} (h : s.memoryCanonical) (k a : Nat) (l : List Byte) :
    (s.tlmWrite k a l).memoryCanonical := by
  unfold State.tlmWrite
  dsimp only
  split
  · exact State.memoryCanonical_capacity h k _
  · exact State.memoryCanonical_setTile h k (Tile.write_wf (State.tile_wf h k) ..)

/-- A write of committed HBM. -/
theorem State.memoryCanonical_hbm {s : State} (h : s.memoryCanonical) (a : Nat) (l : List Byte) :
    ({ s with hbm := memWrite s.hbm a l } : State).memoryCanonical := ⟨memWrite_wf h.1 a l, h.2.1, h.2.2⟩

/-- A fold of operations that keep the form keeps it. -/
theorem State.memoryCanonical_foldl {α : Type} {f : State → α → State}
    (hf : ∀ s a, State.memoryCanonical s → (f s a).memoryCanonical) (l : List α) {s : State} (h : s.memoryCanonical) :
    (l.foldl f s).memoryCanonical := by
  induction l generalizing s with
  | nil => exact h
  | cons a l ih => exact ih (hf s a h)

/-! ### Stops of partitions, and traps (17 R385, R394, R405) -/

theorem State.memoryCanonical_stopTile {s : State} (h : s.memoryCanonical) (k : Nat) : (s.stopTile k).memoryCanonical := by
  unfold State.stopTile
  apply State.memoryCanonical_modTile
  · apply State.memoryCanonical_foldl
    · exact fun s r hs => State.memoryCanonical_modStrand hs ..
    · exact State.memoryCanonical_of_eq h rfl rfl rfl
  · intro t ht
    split_ifs <;> exact ht

theorem State.memoryCanonical_modEntry {s : State} (h : s.memoryCanonical) (id : Nat) (f : ContextEntry → ContextEntry) :
    (s.modEntry id f).memoryCanonical := by
  unfold State.modEntry
  dsimp only
  split
  · exact h
  · split
    · exact h
    · exact State.memoryCanonical_of_eq h rfl rfl rfl

theorem State.memoryCanonical_raiseBit {s : State} (h : s.memoryCanonical) (fn bit : Nat) : (s.raiseBit fn bit).memoryCanonical := by
  unfold State.raiseBit
  dsimp only
  split_ifs <;> exact State.memoryCanonical_of_eq h rfl rfl rfl

theorem State.memoryCanonical_modSlot {s : State} (h : s.memoryCanonical) (fn n : Nat) (f : LaunchSlot → LaunchSlot) :
    (s.modSlot fn n f).memoryCanonical := by
  unfold State.modSlot
  split
  · exact State.memoryCanonical_modFunction h fn _
  · exact h

theorem State.memoryCanonical_refuseBound (fn fuel : Nat) {s : State} (h : s.memoryCanonical) (n : Nat) :
    (State.refuseBound fn fuel s n).memoryCanonical := by
  induction fuel generalizing s n with
  | zero => exact h
  | succ fuel ih =>
    unfold State.refuseBound
    refine State.memoryCanonical_foldl (fun s q hs => ?_) _ h
    dsimp only
    split_ifs
    · exact ih (State.memoryCanonical_raiseBit (State.memoryCanonical_modFunction hs fn _) fn 1) _
    · exact hs

theorem State.memoryCanonical_failLaunch {s : State} (h : s.memoryCanonical) (id cause : Nat) :
    (s.failLaunch id cause).memoryCanonical := by
  unfold State.failLaunch
  split
  · exact h
  · exact State.memoryCanonical_modPart (State.memoryCanonical_refuseBound _ _
      (State.memoryCanonical_raiseBit (State.memoryCanonical_modSlot h ..) ..) _) id _

theorem State.memoryCanonical_failPart {s : State} (h : s.memoryCanonical) (id cause : Nat) :
    (s.failPart id cause).memoryCanonical :=
  State.memoryCanonical_emit (State.memoryCanonical_failLaunch
    (State.memoryCanonical_modEntry (State.memoryCanonical_modPart h id _) ..) id cause) _

theorem State.memoryCanonical_fatal {s : State} (h : s.memoryCanonical) (k cause : Nat) : (s.fatal k cause).memoryCanonical := by
  unfold State.fatal
  split
  · have ht := State.memoryCanonical_modTile h k (f := fun t => { t with halted := true }) fun _ ht => ht
    exact State.memoryCanonical_of_eq ht rfl rfl rfl
  · exact State.memoryCanonical_failPart (State.memoryCanonical_stopTile (State.memoryCanonical_record h k cause) k) _ cause

theorem State.memoryCanonical_enterTrap {s : State} (h : s.memoryCanonical) (k n : Nat) (t : TrapInfo) :
    (s.enterTrap k n t).memoryCanonical :=
  State.memoryCanonical_modStrand (State.memoryCanonical_tlmWrite (State.memoryCanonical_modStrand h k n _) ..) k n _

theorem State.memoryCanonical_takeTrap {s : State} (h : s.memoryCanonical) (k n : Nat) (t : TrapInfo) :
    (s.takeTrap k n t).memoryCanonical := by
  have hs : (if (s.partOf k).isSome then s.record k t.cause else s).memoryCanonical := by
    split_ifs
    · exact State.memoryCanonical_record h k _
    · exact h
  unfold State.takeTrap
  dsimp only
  generalize (if (s.partOf k).isSome then s.record k t.cause else s) = s' at hs
  split_ifs
  · exact State.memoryCanonical_fatal hs k _
  · exact State.memoryCanonical_modStrand hs k n _
  · exact State.memoryCanonical_enterTrap hs k n t

theorem State.memoryCanonical_trapAtIssue {s : State} (h : s.memoryCanonical) (cause : Nat) (tval : Word) :
    (s.trapAtIssue cause tval).memoryCanonical := by
  unfold State.trapAtIssue
  split_ifs
  all_goals first
    | exact State.memoryCanonical_of_eq h rfl rfl rfl
    | exact State.memoryCanonical_used (State.memoryCanonical_takeTrap (State.memoryCanonical_modMe h _) ..) 1

theorem State.memoryCanonical_trapAfter {s : State} (h : s.memoryCanonical) (cause : Nat) (tval : Word) :
    (s.trapAfter cause tval).memoryCanonical := State.memoryCanonical_takeTrap h ..

theorem State.memoryCanonical_trapNext {s : State} (h : s.memoryCanonical) (cause : Nat) (tval : Word) :
    (s.trapNext cause tval).memoryCanonical := State.memoryCanonical_takeTrap h ..

theorem State.memoryCanonical_returnTrap {s : State} (h : s.memoryCanonical) (k n : Nat) : (s.returnTrap k n).memoryCanonical :=
  State.memoryCanonical_modStrand h k n _

/-! ### Firkins (13 R296) -/

/-- Memory without part of its bytes. -/
theorem filter_wf {m : Memory} (h : Memory.wf m = true) (q : Host.Cell → Bool) : Memory.wf (m.filter q) = true := by
  rw [Memory.wf_iff] at *
  refine ⟨?_, fun c hc => h.2 c (List.mem_of_mem_filter hc)⟩
  have hr := h.1
  clear h
  induction m with
  | nil => rfl
  | cons c m ih =>
    have ih := ih (rising_tail hr)
    rw [List.filter_cons]
    split_ifs
    · refine Bool.and_eq_true_iff.mpr ⟨List.all_eq_true.mpr fun d hd => ?_, ih⟩
      exact decide_eq_true (rising_lt hr (List.mem_of_mem_filter hd))
    · exact ih

theorem State.memoryCanonical_fillPart {s : State} (h : s.memoryCanonical) (base off n : Nat) (known : List Byte) :
    (s.fillPart base off n known).memoryCanonical := State.memoryCanonical_hbm h ..

theorem State.memoryCanonical_writeParts {s : State} (h : s.memoryCanonical) (base off k ssnum : Nat) (t : Tile) :
    (s.writeParts base off k ssnum t).memoryCanonical := by
  unfold State.writeParts
  apply State.memoryCanonical_foldl
  · exact fun s m hs => State.memoryCanonical_fillPart hs ..
  · exact State.memoryCanonical_fillPart (State.memoryCanonical_fillPart (State.memoryCanonical_fillPart
      (State.memoryCanonical_fillPart (State.memoryCanonical_fillPart h ..) ..) ..) ..) ..

theorem putCells_wf {m : Memory} (h : Memory.wf m = true) (a : Nat) (l : List (Nat × BitVec 32)) :
    Memory.wf (putCells m a l) = true := by
  unfold putCells
  induction l generalizing m with
  | nil => exact h
  | cons c l ih => exact ih (memWrite_wf h ..)

theorem putBytes_wf {m : Memory} (h : Memory.wf m = true) (a : Nat) (l : Memory) : Memory.wf (putBytes m a l) = true := by
  unfold putBytes
  induction l generalizing m with
  | nil => exact h
  | cons c l ih => exact ih (memPut_wf h ..)

theorem State.memoryCanonical_writeSlot {s : State} (h : s.memoryCanonical) (base off k ssnum : Nat) (t : Tile) :
    (s.writeSlot base off k ssnum t).memoryCanonical := by
  have h' := State.memoryCanonical_writeParts h base off k ssnum t
  unfold State.writeSlot
  generalize s.writeParts base off k ssnum t = s' at h'
  generalize t.bytes 0 0x1000 = l
  exact ⟨memWrite_wf (putBytes_wf (putCells_wf h'.1 ..) ..) .., h'.2.1, h'.2.2⟩

/-- Writing an image keeps the canonical form. -/
theorem State.memoryCanonical_writeImage {s : State} (h : s.memoryCanonical) (base : Nat) (f : Firkin) :
    (s.writeImage base f).memoryCanonical := by
  unfold State.writeImage
  dsimp only
  refine State.memoryCanonical_used (State.memoryCanonical_fillPart
    (State.memoryCanonical_foldl (fun s t hs => State.memoryCanonical_writeSlot hs ..) _ ?_) ..) _
  exact ⟨filter_wf h.1 _, h.2.1, h.2.2⟩

end Sys2Proof.Machine
end

