-- ==== Sys2Proof/Laws/Ops.lean ====
section
/-! SUPPORT. What each shared operation of the machine can do, said once: results in flight, the issuing strand's registers,
requests, tile-local memory and traps. -/

namespace Sys2Proof.Machine

/-! ### Registers and results in flight (02 R40-R43) -/

theorem regName_x_inj {r q : Reg} : RegName.x r = RegName.x q ↔ r = q := by simp

/-- The general register after one write. -/
theorem Strand.setReg_x (st : Strand) (n : RegName) (v : Word) (r : Reg) :
    vget (st.setReg n v).x r.toNat 0 = if n = .x r then v else vget st.x r.toNat 0 := by
  cases n with
  | x q =>
    simp only [Strand.setReg, vget_vset, regName_x_inj]
    have hr := r.isLt
    have hq := q.isLt
    by_cases h : q = r
    · subst h; simp [hq]
    · have : ¬ q.toNat = r.toNat := fun e => h (BitVec.eq_of_toNat_eq e)
      simp [h, this]
  | p q =>
    simp only [Strand.setReg]
    split
    · simp
    · split <;> simp

/-- One predicate's bit. -/
theorem predBit (p q : PredReg) : (1#8 <<< q.toNat).getLsbD p.toNat = decide (q = p) := by
  revert p q
  decide

/-- The predicate after one write. -/
theorem Strand.setReg_pred (st : Strand) (n : RegName) (v : Word) (p : PredReg) (hp : p ≠ 0) :
    (st.setReg n v).pred.getLsbD p.toNat = if n = .p p then bitOf v 0 else st.pred.getLsbD p.toNat := by
  cases n with
  | x q => simp [Strand.setReg]
  | p q =>
    simp only [Strand.setReg]
    have hlt : p.toNat < 8 := p.isLt
    split
    · rename_i h
      have : q ≠ p := fun e => hp (e.symm.trans h)
      simp [this]
    · split <;> rename_i hb
      · simp only [BitVec.getLsbD_or, predBit, RegName.p.injEq, hb]
        split <;> simp_all
      · simp only [BitVec.getLsbD_and, BitVec.getLsbD_not, predBit, RegName.p.injEq, hb]
        split <;> simp_all

/-- What a list of results leaves in a register that holds `v`. -/
def settleReg (n : RegName) (l : List InFlight) (v : Word) : Word := l.foldl (fun v f => if f.reg = n then f.val else v) v

/-- What a list of results leaves in a predicate that holds `b`. -/
def settlePred (n : RegName) (l : List InFlight) (b : Bool) : Bool :=
  l.foldl (fun b f => if f.reg = n then bitOf f.val 0 else b) b

theorem foldl_setReg_x (l : List InFlight) (st : Strand) (r : Reg) :
    vget (l.foldl (fun st f => st.setReg f.reg f.val) st).x r.toNat 0 = settleReg (.x r) l (vget st.x r.toNat 0) := by
  induction l generalizing st with
  | nil => rfl
  | cons f l ih => simp only [List.foldl_cons, ih, settleReg, Strand.setReg_x]

theorem foldl_setReg_pred (l : List InFlight) (st : Strand) (p : PredReg) (hp : p ≠ 0) :
    (l.foldl (fun st f => st.setReg f.reg f.val) st).pred.getLsbD p.toNat =
      settlePred (.p p) l (st.pred.getLsbD p.toNat) := by
  induction l generalizing st with
  | nil => rfl
  | cons f l ih => simp only [List.foldl_cons, ih, settlePred, Strand.setReg_pred _ _ _ _ hp]

/-- A general register as later bundles read it, from the results in flight. -/
theorem Strand.xv_eq (st : Strand) (r : Reg) : st.xv r = settleReg (.x r) st.flight (vget st.x r.toNat 0) :=
  foldl_setReg_x st.flight st r

/-- A predicate as later bundles read it, from the results in flight. -/
theorem Strand.pv_eq (st : Strand) (p : PredReg) :
    st.pv p = (p == 0 || settlePred (.p p) st.flight (st.pred.getLsbD p.toNat)) := by
  unfold Strand.pv
  by_cases hp : p = 0
  · simp [hp]
  · simp only [Strand.endShadows, foldl_setReg_pred _ _ _ hp]

theorem settleReg_filter_self (n : RegName) (l : List InFlight) (v : Word) :
    settleReg n (l.filter fun f => f.reg != n) v = v := by
  induction l with
  | nil => rfl
  | cons f l ih =>
    by_cases h : f.reg = n
    · simpa [h] using ih
    · simpa [h, settleReg] using ih

theorem settleReg_filter_other (n m : RegName) (h : n ≠ m) (l : List InFlight) (v : Word) :
    settleReg n (l.filter fun f => f.reg != m) v = settleReg n l v := by
  induction l generalizing v with
  | nil => rfl
  | cons f l ih =>
    by_cases hm : f.reg = m
    · have : f.reg ≠ n := fun e => h (e ▸ hm)
      simpa [hm, settleReg, Ne.symm h] using ih v
    · by_cases hn : f.reg = n
      · simpa [hm, hn, settleReg, h] using ih f.val
      · simpa [hm, hn, settleReg] using ih v

theorem settlePred_filter_self (n : RegName) (l : List InFlight) (v : Bool) :
    settlePred n (l.filter fun f => f.reg != n) v = v := by
  induction l with
  | nil => rfl
  | cons f l ih =>
    by_cases h : f.reg = n
    · simpa [h] using ih
    · simpa [h, settlePred] using ih

theorem settlePred_filter_other (n m : RegName) (h : n ≠ m) (l : List InFlight) (v : Bool) :
    settlePred n (l.filter fun f => f.reg != m) v = settlePred n l v := by
  induction l generalizing v with
  | nil => rfl
  | cons f l ih =>
    by_cases hm : f.reg = m
    · simpa [hm, settlePred, Ne.symm h] using ih v
    · by_cases hn : f.reg = n
      · simpa [hm, hn, settlePred, h] using ih (bitOf f.val 0)
      · simpa [hm, hn, settlePred] using ih v

/-- A fixed-latency result changes the register that it names and no other, once it is visible. -/
theorem Strand.result_xv (st : Strand) (lat : Nat) (n : RegName) (v : Word) (r : Reg) :
    (st.result lat n v).xv r = if n = .x r then v else st.xv r := by
  unfold Strand.result
  split
  · rename_i h; subst h; simp
  split
  · simp only [Strand.put, Strand.xv_eq, Strand.setReg_x]
    split
    · rename_i h; subst h; exact settleReg_filter_self _ _ _
    · rename_i h; exact settleReg_filter_other _ _ (Ne.symm h) _ _
  · simp only [Strand.xv_eq, settleReg, List.foldl_append, List.foldl_cons, List.foldl_nil]

/-- A fixed-latency result changes the predicate that it names and no other, once it is visible; p0 always reads 1. -/
theorem Strand.result_pv (st : Strand) (lat : Nat) (n : RegName) (v : Word) (p : PredReg) :
    (st.result lat n v).pv p = if p = 0 then true else if n = .p p then bitOf v 0 else st.pv p := by
  by_cases hp : p = 0
  · simp [hp, Strand.pv]
  simp only [hp, if_false]
  unfold Strand.result
  split
  · rename_i h; subst h
    rw [if_neg]
    intro e
    injection e with e
    exact hp e.symm
  split
  · simp only [Strand.put, Strand.pv_eq, Strand.setReg_pred _ _ _ _ hp]
    have h0 : (p == 0) = false := by simpa using hp
    simp only [h0, Bool.false_or]
    split
    · rename_i h; subst h; exact settlePred_filter_self _ _ _
    · rename_i h; exact settlePred_filter_other _ _ (Ne.symm h) _ _
  · have h0 : (p == 0) = false := by simpa using hp
    simp only [Strand.pv_eq, settlePred, List.foldl_append, List.foldl_cons, List.foldl_nil, h0, Bool.false_or]

theorem Strand.setReg_bare (st : Strand) (n : RegName) (v : Word) : (st.setReg n v).bare = st.bare := by
  cases n with
  | x r => rfl
  | p r =>
    simp only [Strand.setReg]
    split
    · rfl
    · split <;> rfl

/-- A fixed-latency result changes nothing of the strand but its registers. -/
theorem Strand.result_bare (st : Strand) (lat : Nat) (n : RegName) (v : Word) : (st.result lat n v).bare = st.bare := by
  unfold Strand.result
  split
  · rfl
  split
  · have := Strand.setReg_bare st n v
    simpa [Strand.put, Strand.bare] using this
  · rfl

/-! ### The issuing strand -/

/-- A change of a strand is invisible once the strand is set aside. -/
theorem State.apart_modStrand (s : State) (k n : Nat) (f : Strand → Strand) (h : n < 16) :
    (s.modStrand k n f).apart k n = s.apart k n := by
  simp only [State.apart, State.modStrand_modStrand _ _ _ _ _ h]

/-- A change of a strand leaves every byte of memory. -/
theorem sameMemory_modStrand (s : State) (k n : Nat) (f : Strand → Strand) : SameMemory s (s.modStrand k n f) :=
  ⟨fun j a => State.byte_modStrand s k n j a f, fun _ => rfl⟩

/-- A change of the issuing strand, read again. -/
theorem State.onlyRegs_modMe {s : State} (h : s.cur.slot < 16) {f : Strand → Strand} {xs : List Reg} {ps : List PredReg}
    (hb : (f s.me).bare = s.me.bare) (hx : ∀ r, r ∉ xs → (f s.me).xv r = s.me.xv r)
    (hp : ∀ p, p ∉ ps → (f s.me).pv p = s.me.pv p) : OnlyRegs s (s.modMe f) xs ps := by
  refine ⟨State.apart_modStrand s _ _ f h, ?_, ?_, ?_, sameMemory_modStrand s _ _ f⟩
  · rw [State.me_modMe s f h]; exact hb
  · intro r hr; rw [State.me_modMe s f h]; exact hx r hr
  · intro p hr; rw [State.me_modMe s f h]; exact hp p hr

/-- A fixed-latency result in a general register (02 R41): the value, and nothing else. -/
theorem State.putX_spec (s : State) (h : s.cur.slot < 16) (lat : Nat) (r : Reg) (v : Word) :
    (s.putX lat r v).me.xv r = v ∧ OnlyRegs s (s.putX lat r v) [r] [] := by
  refine ⟨?_, State.onlyRegs_modMe h (Strand.result_bare _ _ _ _) ?_ ?_⟩
  · rw [State.putX, State.me_modMe s _ h, Strand.result_xv, if_pos rfl]
  · intro q hq
    rw [Strand.result_xv, if_neg]
    simpa [eq_comm] using hq
  · intro p _
    rw [Strand.result_pv, if_neg (by simp : ¬ RegName.x r = RegName.p p)]
    split
    · rename_i h0; simp [Strand.pv, h0]
    · rfl

/-- A fixed-latency result in a predicate (02 R37, R41): the value, or nothing for p0, and nothing else. -/
theorem State.putP_spec (s : State) (h : s.cur.slot < 16) (lat : Nat) (p : PredReg) (v : Bool) :
    (s.putP lat p v).me.pv p = (p == 0 || v) ∧ OnlyRegs s (s.putP lat p v) [] [p] := by
  refine ⟨?_, State.onlyRegs_modMe h (Strand.result_bare _ _ _ _) ?_ ?_⟩
  · rw [State.putP, State.me_modMe s _ h, Strand.result_pv]
    by_cases hp : p = 0
    · simp [hp]
    · rw [if_neg hp, if_pos rfl, beq_eq_false_iff_ne.2 hp]
      cases v <;> rfl
  · intro q _
    rw [Strand.result_xv]
    simp
  · intro q hq
    have hq' : p ≠ q := fun e => hq (by simp [e])
    rw [Strand.result_pv]
    by_cases h0 : q = 0
    · rw [if_pos h0]; simp [h0, Strand.pv]
    · rw [if_neg h0, if_neg (by simpa using hq')]

/-! ### Engine commands (11 R228, 12 R256) -/

/-- A matrix instruction enters its command in the queue. -/
theorem exec_matrixOf {s : State} {i : Instr} {ck} {c : Cmd} (h : matrixOf s i = some (ck, c)) :
    exec i s = s.enterMatrix ck c := by
  unfold matrixOf at h
  split at h <;> first
    | (cases h; rfl)
    | simp at h

/-- A vector instruction enters its form in the queue. -/
theorem exec_vectorOf {s : State} {i : Instr} {v : VecForm} (h : vectorOf s i = some v) :
    exec i s = s.enterVector i v.rd v.rm v.msk v.param v.ptrs v.a v.b v.c := by
  unfold vectorOf at h
  split at h <;> first
    | (cases h; rfl)
    | (rename_i src; cases src <;> cases h <;> rfl)
    | simp at h

end Sys2Proof.Machine
end

