-- ==== Sys2Proof/Laws/PerInstr.lean ====
section
/-! SUPPORT. What holds of each instruction as syntax: its code and operand fields read back to it, field by field, and an operation of
another agent has neither (02 Table 2.4, 03 Tables 3.2-3.5). -/

namespace Sys2Proof.Laws.Encoding

open Sys2Proof

/-- Reading the operand fields under their code, in their format, gives the instruction. -/
def Reads (r : Option Raw) (i : Instr) : Prop :=
  match r with
  | none => i.space = none
  | some (.rrrr op f) => i.space = some .a ∧ immForm op = none ∧ decRRRR op f = .ok i
  | some (.rri op rd ra imm) =>
    i.space = some .a ∧ immForm op = some .wide ∧ decRRI op rd ra imm = .ok i ∧ (immPred op && rd.extractLsb' 3 1 == 1) = false
  | some (.bits op rd ra pw) =>
    i.space = some .a ∧ immForm op = some .bits ∧ immPred op = false ∧ ∀ imm : BitVec 32, imm.setWidth 12 = pw → decRRI op rd ra imm = .ok i
  | some (.movi rd imm) => i = .movi rd imm
  | some (.movl op rd lane ext) => i.space = some .a ∧ i.fitsPaired = false ∧ decLoneA op (rd ++ 0#8 ++ lane) ext = .ok i
  | some (.none op) => i.space = some .c ∧ decNone op = some i
  | some (.rrr op f) =>
    i.space = some .c ∧ decNone op = none ∧ isMemCode op = false ∧ isRRBCode op = false ∧ decRRR op f = .ok i
  | some (.b op off) => op = 0x04 ∧ i = .bri off ∨ op = 0x05 ∧ i = .brli off
  | some (.rrb op ra rb off) => i.space = some .c ∧ isRRBCode op = true ∧ decRRB op ra rb off = .ok i
  | some (.fence c) => i.space = some .c ∧ decFence (0#9 ++ c) = .ok i
  | some (.mem op rd m) =>
    i.space = some .c ∧ i.memOp? = some m ∧ isMemCode op = true ∧ decMem op rd m = .ok i ∧ (noNb op && m.nb) = false
  | some (.loneC op rd ra rb ext) => i.space = some .c ∧ i.fitsPaired = false ∧ decLoneC op (rd ++ ra ++ rb ++ 0#2) ext = .ok i

/-- The fields of a well-formed instruction read back to it; an operation of another agent has none. -/
def Statement (i : Instr) : Prop := i.operandsOk = true → Reads i.raw i

/-! ### Fields -/

/-- The low three bits of a P or K field. -/
theorem extract_low (p : BitVec 3) : (pField p).extractLsb' 0 3 = p := by revert p; decide
/-- Bit 3 of a P or K field is 0. -/
theorem extract_top (p : BitVec 3) : (pField p).extractLsb' 3 1 = 0 := by revert p; decide

theorem pOf_pField (n : Nat) (p : BitVec 3) (k : BitVec 3 → Enc Instr) : pOf n (pField p) k = k p := by
  simp [pOf, extract_top, extract_low]

theorem pairOf_even (n : Nat) (p : RegPair) (k : RegPair → Enc Instr) : pairOf n (RegPair.even p) k = k p := by
  have h0 : (RegPair.even p).extractLsb' 0 1 = 0 := by revert p; decide
  have h1 : (RegPair.even p).extractLsb' 1 3 = p := by revert p; decide
  simp [pairOf, h0, h1]

theorem zero4_zero (n : Nat) (k : Enc Instr) : zero4 n 0#4 k = k := rfl

theorem bitOf_bitFn (b : Bool) (k : Bool → Enc Instr) : bitOf (bitFn b) k = k b := by cases b <;> rfl

theorem classFn_append (q : SlackReg) (k : SlackReg → Enc Instr) : classFn (q ++ 0#1) k = k q := by
  have h0 : (q ++ 0#1).extractLsb' 0 1 = 0 := by revert q; decide
  have h1 : (q ++ 0#1).extractLsb' 1 3 = q := by revert q; decide
  simp only [classFn, h1]
  rw [if_neg (by rw [h0]; decide)]

theorem slackOf_append (q : SlackReg) (b : Bool) : (q ++ BitVec.ofBool b).extractLsb' 1 3 = q := by revert q b; decide
theorem bitOf_append (q : SlackReg) (b : Bool) : decide ((q ++ BitVec.ofBool b).extractLsb' 0 1 = 1#1) = b := by revert q b; decide

/-! ### The shapes of codes and fields -/

theorem reads_none {i : Instr} (h : i.raw = none) (hs : i.space = none) : Reads i.raw i := by rw [h]; exact hs

theorem reads_rrrr {i : Instr} {op : BitVec 8} {f : RRRR} (h : i.raw = some (.rrrr op f)) (hs : i.space = some .a) (hf : immForm op = none)
    (hd : decRRRR op f = .ok i) : Reads i.raw i := by rw [h]; exact ⟨hs, hf, hd⟩

theorem reads_rri {i : Instr} {op : BitVec 8} {d a : Reg} {v : BitVec 32} (h : i.raw = some (.rri op d a v)) (hs : i.space = some .a)
    (hf : immForm op = some .wide) (hd : decRRI op d a v = .ok i) (hp : (immPred op && d.extractLsb' 3 1 == 1) = false) : Reads i.raw i := by
  rw [h]; exact ⟨hs, hf, hd, hp⟩

theorem reads_rrr {i : Instr} {op : BitVec 8} {f : RRR} (h : i.raw = some (.rrr op f)) (hs : i.space = some .c)
    (hc : decNone op = none ∧ isMemCode op = false ∧ isRRBCode op = false) (hd : decRRR op f = .ok i) : Reads i.raw i := by
  rw [h]; exact ⟨hs, hc.1, hc.2.1, hc.2.2, hd⟩

theorem reads_fieldless {i : Instr} {op : BitVec 8} (h : i.raw = some (.none op)) (hs : i.space = some .c) (hd : decNone op = some i) :
    Reads i.raw i := by rw [h]; exact ⟨hs, hd⟩

theorem reads_rrb {i : Instr} {op : BitVec 8} {a b : Reg} {v : BitVec 32} (h : i.raw = some (.rrb op a b v)) (hs : i.space = some .c)
    (hc : isRRBCode op = true) (hd : decRRB op a b v = .ok i) : Reads i.raw i := by rw [h]; exact ⟨hs, hc, hd⟩

theorem reads_mem {i : Instr} {op : BitVec 8} {d : Reg} {m : MemOp} (h : i.raw = some (.mem op d m)) (hs : i.space = some .c)
    (hm : i.memOp? = some m) (hc : isMemCode op = true) (hd : decMem op d m = .ok i) (hn : (noNb op && m.nb) = false) : Reads i.raw i := by
  rw [h]; exact ⟨hs, hm, hc, hd, hn⟩

theorem reads_loneC {i : Instr} {op : BitVec 8} {d a b : Reg} {v : BitVec 32} (h : i.raw = some (.loneC op d a b v)) (hs : i.space = some .c)
    (hp : i.fitsPaired = false) (hd : decLoneC op (d ++ a ++ b ++ 0#2) v = .ok i) : Reads i.raw i := by rw [h]; exact ⟨hs, hp, hd⟩

/-- Bits of the upper part of two fields. -/
theorem extract_upper {n m : Nat} (x : BitVec n) (y : BitVec m) (s l : Nat) : (x ++ y).extractLsb' (s + m) l = x.extractLsb' s l := by
  ext i hi
  have : ¬ s + m + i < m := by omega
  simp [BitVec.getLsbD_append, this, show s + m + i - m = s + i by omega]

/-- Bits of the lower part of two fields. -/
theorem extract_lower {n m : Nat} (x : BitVec n) (y : BitVec m) (s l : Nat) (h : s + l ≤ m) :
    (x ++ y).extractLsb' s l = y.extractLsb' s l := by
  ext i hi
  have : s + i < m := by omega
  simp [BitVec.getLsbD_append, this]

/-- The whole of a field. -/
theorem extract_all {n : Nat} (x : BitVec n) : x.extractLsb' 0 n = x := by
  ext i hi
  simp

/-- The fields of a lone word 0. -/
theorem lone_rd (d a b : Reg) (n : BitVec 2) : (d ++ a ++ b ++ n).extractLsb' 10 4 = d :=
  (extract_upper (d ++ a ++ b) n 8 4).trans ((extract_upper (d ++ a) b 4 4).trans ((extract_upper d a 0 4).trans (extract_all d)))
theorem lone_ra (d a b : Reg) (n : BitVec 2) : (d ++ a ++ b ++ n).extractLsb' 6 4 = a :=
  (extract_upper (d ++ a ++ b) n 4 4).trans ((extract_upper (d ++ a) b 0 4).trans ((extract_lower d a 0 4 (by omega)).trans (extract_all a)))
theorem lone_rb (d a b : Reg) (n : BitVec 2) : (d ++ a ++ b ++ n).extractLsb' 2 4 = b :=
  (extract_upper (d ++ a ++ b) n 0 4).trans ((extract_lower (d ++ a) b 0 4 (by omega)).trans (extract_all b))
theorem lone_fn (d a b : Reg) (n : BitVec 2) : (d ++ a ++ b ++ n).extractLsb' 0 2 = n :=
  (extract_lower (d ++ a ++ b) n 0 2 (by omega)).trans (extract_all n)

/-- A short field in the extension word: its low bits, and zeros above it. -/
theorem setWidth_low {n : Nat} (v : BitVec n) (h : n ≤ 32) : (v.setWidth 32).extractLsb' 0 n = v := by
  ext i hi
  simp [BitVec.getLsbD_eq_getElem hi]
  omega
theorem setWidth_high {n : Nat} (v : BitVec n) (l : Nat) : (v.setWidth 32).extractLsb' n l = 0 := by
  ext i hi
  simp

theorem noNb_ok {m : MemOp} {b : Bool} (h : (!m.nb) = true) : (b && m.nb) = false := by simp_all

/-! ### The irregular formats -/

theorem shiftImm_ok (d a : Reg) (v : BitVec 6) (k : Reg → Reg → BitVec 6 → Instr) : shiftImm d a (v.setWidth 32) k = .ok (k d a v) := by
  have h : v.toNat < 64 := v.isLt
  have h1 : (v.setWidth 32).toNat < 64 := by rw [BitVec.toNat_setWidth]; omega
  have h2 : (v.setWidth 32).setWidth 6 = v := by
    apply BitVec.eq_of_toNat_eq
    rw [BitVec.toNat_setWidth, BitVec.toNat_setWidth]
    omega
  simp only [shiftImm, h1, h2, if_true]

theorem pField_setWidth (p : BitVec 3) : (pField p).setWidth 3 = p := by revert p; decide

theorem pred_field (b : Bool) (p : BitVec 3) : (b && (pField p).extractLsb' 3 1 == 1) = false := by rw [extract_top]; cases b <;> rfl

theorem low12 (v : BitVec 32) (p w : BitVec 6) (h : v.setWidth 12 = w ++ p) : v.extractLsb' 0 6 = p ∧ v.extractLsb' 6 6 = w := by
  have cut (s : Nat) (hs : s + 6 ≤ 12) : v.extractLsb' s 6 = (v.setWidth 12).extractLsb' s 6 := by
    ext i hi
    have : s + i < 12 := by omega
    simp [this]
  constructor
  · rw [cut 0 (by omega), h]
    exact (extract_lower w p 0 6 (by omega)).trans (extract_all p)
  · rw [cut 6 (by omega), h]
    exact (extract_upper w p 0 6).trans (extract_all w)

theorem bitField_ok (d a : Reg) (v : BitVec 32) (p w : BitVec 6) (k : Reg → Reg → BitVec 6 → BitVec 6 → Instr)
    (hk : decide (p.toNat + w.toNat < 64) = true) (h : v.setWidth 12 = w ++ p) : bitField d a v k = .ok (k d a p w) := by
  simp [bitField, (low12 v p w h).1, (low12 v p w h).2, of_decide_eq_true hk]

theorem reads_bits {i : Instr} {op : BitVec 8} {d a : Reg} {v : BitVec 12} (h : i.raw = some (.bits op d a v)) (hs : i.space = some .a)
    (hf : immForm op = some .bits ∧ immPred op = false) (hd : ∀ imm : BitVec 32, imm.setWidth 12 = v → decRRI op d a imm = .ok i) :
    Reads i.raw i := by rw [h]; exact ⟨hs, hf.1, hf.2, hd⟩

theorem reads_movl {i : Instr} {op : BitVec 8} {d : Reg} {n : BitVec 2} {v : BitVec 32} (h : i.raw = some (.movl op d n v))
    (hs : i.space = some .a) (hp : i.fitsPaired = false) (hd : decLoneA op (d ++ 0#8 ++ n) v = .ok i) : Reads i.raw i := by
  rw [h]; exact ⟨hs, hp, hd⟩

/-- The fields of MOVK and MOVX. -/
theorem movl_fields (d : Reg) (n : BitVec 2) : (d ++ 0#8 ++ n).extractLsb' 10 4 = d ∧ (d ++ 0#8 ++ n).extractLsb' 6 4 = 0 ∧
    (d ++ 0#8 ++ n).extractLsb' 2 4 = 0 ∧ (d ++ 0#8 ++ n).extractLsb' 0 2 = n :=
  ⟨(extract_upper (d ++ 0#8) n 8 4).trans ((extract_upper d 0#8 0 4).trans (extract_all d)),
    (extract_upper (d ++ 0#8) n 4 4).trans ((extract_lower d 0#8 4 4 (by omega)).trans (by decide)),
    (extract_upper (d ++ 0#8) n 0 4).trans ((extract_lower d 0#8 0 4 (by omega)).trans (by decide)),
    (extract_lower (d ++ 0#8) n 0 2 (by omega)).trans (extract_all n)⟩

theorem lone_movk (d : Reg) (n : BitVec 2) (v : BitVec 16) : decLoneA 0x31 (d ++ 0#8 ++ n) (v.setWidth 32) = .ok (.movk d n v) := by
  obtain ⟨h1, h2, h3, h4⟩ := movl_fields d n
  have e (x : BitVec 14) (w : BitVec 32) : decLoneA 0x31 x w = zero4 2 (x.extractLsb' 6 4) (zero4 3 (x.extractLsb' 2 4)
      (if w.extractLsb' 16 16 = 0 then .ok (.movk (x.extractLsb' 10 4) (x.extractLsb' 0 2) (w.extractLsb' 0 16)) else .error 0x12)) := rfl
  rw [e, h1, h2, h3, h4, setWidth_high, setWidth_low v (by omega)]
  rfl

theorem lone_movx (d : Reg) (v : BitVec 32) : decLoneA 0x32 (d ++ 0#8 ++ 0#2) v = .ok (.movx d v) := by
  obtain ⟨h1, h2, h3, h4⟩ := movl_fields d 0#2
  have e (x : BitVec 14) (w : BitVec 32) : decLoneA 0x32 x w = zero4 2 (x.extractLsb' 6 4) (zero4 3 (x.extractLsb' 2 4)
      (if x.extractLsb' 0 2 = 0 then .ok (.movx (x.extractLsb' 10 4) w) else .error 4)) := rfl
  rw [e, h1, h2, h3, h4]
  rfl

/-- A lone C instruction's fields when they name no register. -/
theorem lone_sigchk (v : BitVec 16) : decLoneC 0x11 ((0 : Reg) ++ (0 : Reg) ++ (0 : Reg) ++ 0#2) (v.setWidth 32) = .ok (.sigchk v) := by
  have e (x : BitVec 14) (w : BitVec 32) : decLoneC 0x11 x w = zero4 1 (x.extractLsb' 10 4) (zero4 2 (x.extractLsb' 6 4)
      (zero4 3 (x.extractLsb' 2 4) (if x.extractLsb' 0 2 = 0 then
        (if w.extractLsb' 16 16 = 0 then .ok (.sigchk (w.extractLsb' 0 16)) else .error 0x12) else .error 4))) := rfl
  rw [e, lone_rd, lone_ra, lone_rb, lone_fn, setWidth_high, setWidth_low v (by omega)]
  rfl

theorem lone_trap (v : BitVec 16) : decLoneC 0xD4 ((0 : Reg) ++ (0 : Reg) ++ (0 : Reg) ++ 0#2) (v.setWidth 32) = .ok (.trap v) := by
  have e (x : BitVec 14) (w : BitVec 32) : decLoneC 0xD4 x w = zero4 1 (x.extractLsb' 10 4) (zero4 2 (x.extractLsb' 6 4)
      (zero4 3 (x.extractLsb' 2 4) (if x.extractLsb' 0 2 = 0 then
        (if w.extractLsb' 16 16 = 0 then .ok (.trap (w.extractLsb' 0 16)) else .error 0x12) else .error 4))) := rfl
  rw [e, lone_rd, lone_ra, lone_rb, lone_fn, setWidth_high, setWidth_low v (by omega)]
  rfl

theorem lone_sendl (d a b : Reg) (v : BitVec 12) : decLoneC 0x81 (d ++ a ++ b ++ 0#2) (v.setWidth 32) = .ok (.sendl d a b v) := by
  have e (x : BitVec 14) (w : BitVec 32) : decLoneC 0x81 x w = (if x.extractLsb' 0 2 = 0 then
      (if w.extractLsb' 12 20 = 0 then .ok (.sendl (x.extractLsb' 10 4) (x.extractLsb' 6 4) (x.extractLsb' 2 4) (w.extractLsb' 0 12))
        else .error 0x12) else .error 4) := rfl
  rw [e, lone_rd, lone_ra, lone_rb, lone_fn, setWidth_high, setWidth_low v (by omega)]
  rfl

theorem lone_slkset (k : SlackReg) (v : BitVec 12) :
    decLoneC 0xC0 (pField k ++ (0 : Reg) ++ (0 : Reg) ++ 0#2) (v.setWidth 32) = .ok (.slkset k (.grains v)) := by
  have e (x : BitVec 14) (w : BitVec 32) : decLoneC 0xC0 x w = pOf 1 (x.extractLsb' 10 4) (fun k => zero4 2 (x.extractLsb' 6 4)
      (zero4 3 (x.extractLsb' 2 4) (if x.extractLsb' 0 2 = 0 then
        (if w.extractLsb' 12 20 = 0 then .ok (.slkset k (.grains (w.extractLsb' 0 12))) else .error 0x12) else .error 4))) := rfl
  rw [e, lone_rd, lone_ra, lone_rb, lone_fn, setWidth_high, setWidth_low v (by omega), pOf_pField]
  rfl

theorem lone_csrr (d a : Reg) (v : BitVec 12) (h : (v == dmapNumber || a == 0) = true) :
    decLoneC 0xD0 (d ++ a ++ (0 : Reg) ++ 0#2) (v.setWidth 32) = .ok (.csrr d a v) := by
  have e (x : BitVec 14) (w : BitVec 32) : decLoneC 0xD0 x w =
      if (x.extractLsb' 6 4 ≠ 0 && w.extractLsb' 0 12 ≠ dmapNumber) = true then .error 2
      else zero4 3 (x.extractLsb' 2 4) (if x.extractLsb' 0 2 = 0 then
        (if w.extractLsb' 12 20 = 0 then .ok (.csrr (x.extractLsb' 10 4) (x.extractLsb' 6 4) (w.extractLsb' 0 12)) else .error 0x12)
        else .error 4) := rfl
  rw [e, lone_rd, lone_ra, lone_rb, lone_fn, setWidth_high, setWidth_low v (by omega)]
  have hn : ¬ (decide (a ≠ 0) && decide (v ≠ dmapNumber)) = true := by
    rcases Bool.or_eq_true_iff.mp h with q | q <;> simp_all
  rw [if_neg hn]
  rfl

theorem lone_csrw (d a : Reg) (v : BitVec 12) : decLoneC 0xD1 (d ++ a ++ (0 : Reg) ++ 0#2) (v.setWidth 32) = .ok (.csrw d a v) := by
  have e (x : BitVec 14) (w : BitVec 32) : decLoneC 0xD1 x w = zero4 3 (x.extractLsb' 2 4) (if x.extractLsb' 0 2 = 0 then
      (if w.extractLsb' 12 20 = 0 then .ok (.csrw (x.extractLsb' 10 4) (x.extractLsb' 6 4) (w.extractLsb' 0 12)) else .error 0x12)
      else .error 4) := rfl
  rw [e, lone_rd, lone_ra, lone_rb, lone_fn, setWidth_high, setWidth_low v (by omega)]
  rfl

theorem lone_csrs (d a : Reg) (v : BitVec 12) : decLoneC 0xD2 (d ++ a ++ (0 : Reg) ++ 0#2) (v.setWidth 32) = .ok (.csrs d a v) := by
  have e (x : BitVec 14) (w : BitVec 32) : decLoneC 0xD2 x w = zero4 3 (x.extractLsb' 2 4) (if x.extractLsb' 0 2 = 0 then
      (if w.extractLsb' 12 20 = 0 then .ok (.csrs (x.extractLsb' 10 4) (x.extractLsb' 6 4) (w.extractLsb' 0 12)) else .error 0x12)
      else .error 4) := rfl
  rw [e, lone_rd, lone_ra, lone_rb, lone_fn, setWidth_high, setWidth_low v (by omega)]
  rfl

theorem lone_csrc (d a : Reg) (v : BitVec 12) : decLoneC 0xD3 (d ++ a ++ (0 : Reg) ++ 0#2) (v.setWidth 32) = .ok (.csrc d a v) := by
  have e (x : BitVec 14) (w : BitVec 32) : decLoneC 0xD3 x w = zero4 3 (x.extractLsb' 2 4) (if x.extractLsb' 0 2 = 0 then
      (if w.extractLsb' 12 20 = 0 then .ok (.csrc (x.extractLsb' 10 4) (x.extractLsb' 6 4) (w.extractLsb' 0 12)) else .error 0x12)
      else .error 4) := rfl
  rw [e, lone_rd, lone_ra, lone_rb, lone_fn, setWidth_high, setWidth_low v (by omega)]
  rfl

theorem vsrc_reads (d a : Reg) (b : RegPair) (v : VSrc) (k : Reg → Reg → RegPair → VSrc → Instr) :
    vsrc ⟨d, a, RegPair.even b, v.reg, v.fn⟩ k = .ok (k d a b v) := by
  cases v with
  | array c => exact (pairOf_even 3 b _).trans (pairOf_even 4 c _)
  | sf c => exact pairOf_even 3 b _
  | si c => exact pairOf_even 3 b _

/-! ### One lemma for each constructor -/

theorem vadd (xd : Reg) (xa : Reg) (xb : RegPair) (src : VSrc) : Statement (.vadd xd xa xb src) := fun _ => reads_rrrr rfl rfl rfl (vsrc_reads xd xa xb src .vadd)

theorem vsub (xd : Reg) (xa : Reg) (xb : RegPair) (src : VSrc) : Statement (.vsub xd xa xb src) := fun _ => reads_rrrr rfl rfl rfl (vsrc_reads xd xa xb src .vsub)

theorem vmul (xd : Reg) (xa : Reg) (xb : RegPair) (src : VSrc) : Statement (.vmul xd xa xb src) := fun _ => reads_rrrr rfl rfl rfl (vsrc_reads xd xa xb src .vmul)

theorem vfma (xd : Reg) (xa : Reg) (xb : RegPair) (src : VSrc) : Statement (.vfma xd xa xb src) := fun _ => reads_rrrr rfl rfl rfl (vsrc_reads xd xa xb src .vfma)

theorem vmin (xd : Reg) (xa : Reg) (xb : RegPair) (src : VSrc) : Statement (.vmin xd xa xb src) := fun _ => reads_rrrr rfl rfl rfl (vsrc_reads xd xa xb src .vmin)

theorem vmax (xd : Reg) (xa : Reg) (xb : RegPair) (src : VSrc) : Statement (.vmax xd xa xb src) := fun _ => reads_rrrr rfl rfl rfl (vsrc_reads xd xa xb src .vmax)

theorem vabs (xd : Reg) (xa : Reg) (xb : RegPair) : Statement (.vabs xd xa xb) := by
  intro _
  exact reads_rrrr rfl rfl rfl (by first | rfl | (show Sys2Proof.vab _ _ = _; simp [Sys2Proof.vab, pairOf_even, zero4_zero]))

theorem vneg (xd : Reg) (xa : Reg) (xb : RegPair) : Statement (.vneg xd xa xb) := by
  intro _
  exact reads_rrrr rfl rfl rfl (by first | rfl | (show Sys2Proof.vab _ _ = _; simp [Sys2Proof.vab, pairOf_even, zero4_zero]))

theorem vclamp (xd : Reg) (xa : Reg) (xb : RegPair) (xc : Reg) : Statement (.vclamp xd xa xb xc) := by
  intro _
  exact reads_rrrr rfl rfl rfl (by first | rfl | (show Sys2Proof.vabc _ _ = _; simp [Sys2Proof.vabc, pairOf_even, zero4_zero]))

theorem vcvt (xd : Reg) (xa : Reg) (xb : RegPair) : Statement (.vcvt xd xa xb) := by
  intro _
  exact reads_rrrr rfl rfl rfl (by first | rfl | (show Sys2Proof.vab _ _ = _; simp [Sys2Proof.vab, pairOf_even, zero4_zero]))

theorem vqnt (xd : Reg) (xa : RegPair) (xb : RegPair) (xc : Reg) : Statement (.vqnt xd xa xb xc) := by
  intro _
  exact reads_rrrr rfl rfl rfl (by first | rfl | (show Sys2Proof.vqnt _ = _; simp [Sys2Proof.vqnt, pairOf_even, zero4_zero]))

theorem vdq (xd : Reg) (xa : Reg) (xb : RegPair) (xc : Reg) : Statement (.vdq xd xa xb xc) := by
  intro _
  exact reads_rrrr rfl rfl rfl (by first | rfl | (show Sys2Proof.vabc _ _ = _; simp [Sys2Proof.vabc, pairOf_even, zero4_zero]))

theorem vmxs (xd : Reg) (xa : RegPair) (xb : RegPair) : Statement (.vmxs xd xa xb) := by
  intro _
  exact reads_rrrr rfl rfl rfl (by first | rfl | (show Sys2Proof.vmxs _ = _; simp [Sys2Proof.vmxs, pairOf_even, zero4_zero]))

theorem vsum (xd : Reg) (xa : Reg) (xb : RegPair) : Statement (.vsum xd xa xb) := by
  intro _
  exact reads_rrrr rfl rfl rfl (by first | rfl | (show Sys2Proof.vab _ _ = _; simp [Sys2Proof.vab, pairOf_even, zero4_zero]))

theorem vamax (xd : Reg) (xa : Reg) (xb : RegPair) : Statement (.vamax xd xa xb) := by
  intro _
  exact reads_rrrr rfl rfl rfl (by first | rfl | (show Sys2Proof.vab _ _ = _; simp [Sys2Proof.vab, pairOf_even, zero4_zero]))

theorem vdot (xd : Reg) (xa : Reg) (xb : RegPair) (xc : RegPair) : Statement (.vdot xd xa xb xc) := by
  intro _
  exact reads_rrrr rfl rfl rfl (by first | rfl | (show Sys2Proof.vdot _ = _; simp [Sys2Proof.vdot, pairOf_even, zero4_zero]))

theorem vscan (xd : Reg) (xa : Reg) (xb : RegPair) (ex : Bool) : Statement (.vscan xd xa xb ex) := by
  intro _
  cases ex <;>
  exact reads_rrrr rfl rfl rfl (by first | rfl | (show Sys2Proof.vscan _ = _; simp [Sys2Proof.vscan, pairOf_even, zero4_zero, bitOf_bitFn]))

theorem vexp2 (xd : Reg) (xa : Reg) (xb : RegPair) : Statement (.vexp2 xd xa xb) := by
  intro _
  exact reads_rrrr rfl rfl rfl (by first | rfl | (show Sys2Proof.vab _ _ = _; simp [Sys2Proof.vab, pairOf_even, zero4_zero]))

theorem vdiv (xd : Reg) (xa : Reg) (xb : RegPair) (src : VSrc) : Statement (.vdiv xd xa xb src) := fun _ => reads_rrrr rfl rfl rfl (vsrc_reads xd xa xb src .vdiv)

theorem vsqrt (xd : Reg) (xa : Reg) (xb : RegPair) : Statement (.vsqrt xd xa xb) := by
  intro _
  exact reads_rrrr rfl rfl rfl (by first | rfl | (show Sys2Proof.vab _ _ = _; simp [Sys2Proof.vab, pairOf_even, zero4_zero]))

theorem vrsq (xd : Reg) (xa : Reg) (xb : RegPair) : Statement (.vrsq xd xa xb) := by
  intro _
  exact reads_rrrr rfl rfl rfl (by first | rfl | (show Sys2Proof.vab _ _ = _; simp [Sys2Proof.vab, pairOf_even, zero4_zero]))

theorem vcmpEq (xd : Reg) (xa : Reg) (xb : RegPair) (src : VSrc) : Statement (.vcmpEq xd xa xb src) := fun _ => reads_rrrr rfl rfl rfl (vsrc_reads xd xa xb src .vcmpEq)

theorem vcmpLt (xd : Reg) (xa : Reg) (xb : RegPair) (src : VSrc) : Statement (.vcmpLt xd xa xb src) := fun _ => reads_rrrr rfl rfl rfl (vsrc_reads xd xa xb src .vcmpLt)

theorem vcmpLe (xd : Reg) (xa : Reg) (xb : RegPair) (src : VSrc) : Statement (.vcmpLe xd xa xb src) := fun _ => reads_rrrr rfl rfl rfl (vsrc_reads xd xa xb src .vcmpLe)

theorem vsel (xd : Reg) (xa : Reg) (xb : RegPair) (src : VSrc) : Statement (.vsel xd xa xb src) := fun _ => reads_rrrr rfl rfl rfl (vsrc_reads xd xa xb src .vsel)

theorem vfill (xd : Reg) (xa : Reg) (src : VScalar) : Statement (.vfill xd xa src) := by
  intro _
  cases src <;>
  exact reads_rrrr rfl rfl rfl rfl

theorem viota (xd : Reg) (xa : Reg) (xc : Reg) : Statement (.viota xd xa xc) := by
  intro _
  exact reads_rrrr rfl rfl rfl rfl

theorem vgath (xd : Reg) (xa : Reg) (xb : RegPair) (xc : Reg) : Statement (.vgath xd xa xb xc) := by
  intro _
  exact reads_rrrr rfl rfl rfl (by first | rfl | (show Sys2Proof.vabc _ _ = _; simp [Sys2Proof.vabc, pairOf_even, zero4_zero]))

theorem vscat (xd : Reg) (xa : Reg) (xb : RegPair) (xc : Reg) : Statement (.vscat xd xa xb xc) := by
  intro _
  exact reads_rrrr rfl rfl rfl (by first | rfl | (show Sys2Proof.vabc _ _ = _; simp [Sys2Proof.vabc, pairOf_even, zero4_zero]))

theorem vsortk (xd : Reg) (xa : Reg) (xb : Reg) (perm : Option Reg) : Statement (.vsortk xd xa xb perm) := by
  intro _
  cases perm <;>
  exact reads_rrrr rfl rfl rfl (by first | rfl | (show Sys2Proof.vsortk _ = _; simp [Sys2Proof.vsortk, show bitFn true = 1#4 from rfl]))

theorem vhist (xd : Reg) (xa : Reg) (xb : Reg) (xc : Reg) (clr : Bool) : Statement (.vhist xd xa xb xc clr) := by
  intro _
  cases clr <;>
  exact reads_rrrr rfl rfl rfl rfl

theorem vand (xd : Reg) (xa : Reg) (xb : Reg) (src : VBits) : Statement (.vand xd xa xb src) := by
  intro _
  cases src <;>
  exact reads_rrrr rfl rfl rfl rfl

theorem vor (xd : Reg) (xa : Reg) (xb : Reg) (src : VBits) : Statement (.vor xd xa xb src) := by
  intro _
  cases src <;>
  exact reads_rrrr rfl rfl rfl rfl

theorem vxor (xd : Reg) (xa : Reg) (xb : Reg) (src : VBits) : Statement (.vxor xd xa xb src) := by
  intro _
  cases src <;>
  exact reads_rrrr rfl rfl rfl rfl

theorem vandn (xd : Reg) (xa : Reg) (xb : Reg) (src : VBits) : Statement (.vandn xd xa xb src) := by
  intro _
  cases src <;>
  exact reads_rrrr rfl rfl rfl rfl

theorem vshl (xd : Reg) (xa : Reg) (xb : Reg) (xc : Reg) : Statement (.vshl xd xa xb xc) := by
  intro _
  exact reads_rrrr rfl rfl rfl rfl

theorem vshrZ (xd : Reg) (xa : Reg) (xb : Reg) (xc : Reg) : Statement (.vshrZ xd xa xb xc) := by
  intro _
  exact reads_rrrr rfl rfl rfl rfl

theorem vshrS (xd : Reg) (xa : Reg) (xb : Reg) (xc : Reg) : Statement (.vshrS xd xa xb xc) := by
  intro _
  exact reads_rrrr rfl rfl rfl rfl

theorem mcfg (xd : Reg) (xa : Reg) : Statement (.mcfg xd xa) := by
  intro _
  exact reads_rrrr rfl rfl rfl rfl

theorem mzero (xd : Reg) (xc : Reg) : Statement (.mzero xd xc) := by
  intro _
  exact reads_rrrr rfl rfl rfl rfl

theorem latb (xd : Reg) (xa : RegPair) (xc : Reg) : Statement (.latb xd xa xc) := by
  intro _
  exact reads_rrrr rfl rfl rfl (by first | rfl | (show Sys2Proof.latb _ = _; simp [Sys2Proof.latb, pairOf_even, zero4_zero]))

theorem rotb (xd : Reg) (k : SlackReg) : Statement (.rotb xd k) := by
  intro _
  exact reads_rrrr rfl rfl rfl (by first | rfl | (show Sys2Proof.rotb _ = _; simp [Sys2Proof.rotb, zero4_zero, classFn_append]))

theorem mst (xd : Reg) (xa : Reg) (xc : Reg) (k : SlackReg) (sat : Bool) : Statement (.mst xd xa xc k sat) := by
  intro _
  exact reads_rrrr rfl rfl rfl (by first | rfl | (show Sys2Proof.mst _ = _; simp [Sys2Proof.mst, zero4_zero, slackOf_append, bitOf_append]))

theorem mldc (xd : Reg) (xa : Reg) (xc : Reg) (k : SlackReg) : Statement (.mldc xd xa xc k) := by
  intro _
  exact reads_rrrr rfl rfl rfl (by first | rfl | (show Sys2Proof.mldc _ = _; simp [Sys2Proof.mldc, zero4_zero, classFn_append]))

theorem mscl (xd : Reg) (xa : Reg) (xc : Reg) (s32 : Bool) : Statement (.mscl xd xa xc s32) := by
  intro _
  cases s32 <;>
  exact reads_rrrr rfl rfl rfl rfl

theorem mmaE4m3 (xd : Reg) (xa : RegPair) (xb : RegPair) (xc : Reg) (ovw : Bool) : Statement (.mmaE4m3 xd xa xb xc ovw) := by
  intro _
  cases ovw <;>
  exact reads_rrrr rfl rfl rfl (by first | rfl | (show Sys2Proof.mma _ _ = _; simp [Sys2Proof.mma, pairOf_even, bitOf_bitFn]))

theorem mmaE5m2 (xd : Reg) (xa : RegPair) (xb : RegPair) (xc : Reg) (ovw : Bool) : Statement (.mmaE5m2 xd xa xb xc ovw) := by
  intro _
  cases ovw <;>
  exact reads_rrrr rfl rfl rfl (by first | rfl | (show Sys2Proof.mma _ _ = _; simp [Sys2Proof.mma, pairOf_even, bitOf_bitFn]))

theorem mmaE3m2 (xd : Reg) (xa : RegPair) (xb : RegPair) (xc : Reg) (ovw : Bool) : Statement (.mmaE3m2 xd xa xb xc ovw) := by
  intro _
  cases ovw <;>
  exact reads_rrrr rfl rfl rfl (by first | rfl | (show Sys2Proof.mma _ _ = _; simp [Sys2Proof.mma, pairOf_even, bitOf_bitFn]))

theorem mmaE2m3 (xd : Reg) (xa : RegPair) (xb : RegPair) (xc : Reg) (ovw : Bool) : Statement (.mmaE2m3 xd xa xb xc ovw) := by
  intro _
  cases ovw <;>
  exact reads_rrrr rfl rfl rfl (by first | rfl | (show Sys2Proof.mma _ _ = _; simp [Sys2Proof.mma, pairOf_even, bitOf_bitFn]))

theorem mmaE2m1 (xd : Reg) (xa : RegPair) (xb : RegPair) (xc : Reg) (ovw : Bool) : Statement (.mmaE2m1 xd xa xb xc ovw) := by
  intro _
  cases ovw <;>
  exact reads_rrrr rfl rfl rfl (by first | rfl | (show Sys2Proof.mma _ _ = _; simp [Sys2Proof.mma, pairOf_even, bitOf_bitFn]))

theorem mmaBf16 (xd : Reg) (xa : RegPair) (xb : RegPair) (xc : Reg) (ovw : Bool) : Statement (.mmaBf16 xd xa xb xc ovw) := by
  intro _
  cases ovw <;>
  exact reads_rrrr rfl rfl rfl (by first | rfl | (show Sys2Proof.mma _ _ = _; simp [Sys2Proof.mma, pairOf_even, bitOf_bitFn]))

theorem mmaF16 (xd : Reg) (xa : RegPair) (xb : RegPair) (xc : Reg) (ovw : Bool) : Statement (.mmaF16 xd xa xb xc ovw) := by
  intro _
  cases ovw <;>
  exact reads_rrrr rfl rfl rfl (by first | rfl | (show Sys2Proof.mma _ _ = _; simp [Sys2Proof.mma, pairOf_even, bitOf_bitFn]))

theorem mmaS8 (xd : Reg) (xa : RegPair) (xb : RegPair) (xc : Reg) (ovw : Bool) : Statement (.mmaS8 xd xa xb xc ovw) := by
  intro _
  cases ovw <;>
  exact reads_rrrr rfl rfl rfl (by first | rfl | (show Sys2Proof.mma _ _ = _; simp [Sys2Proof.mma, pairOf_even, bitOf_bitFn]))

theorem mmalE4m3 (xd : Reg) (xa : RegPair) (xc : Reg) (ovw : Bool) : Statement (.mmalE4m3 xd xa xc ovw) := by
  intro _
  cases ovw <;>
  exact reads_rrrr rfl rfl rfl (by first | rfl | (show Sys2Proof.mmal _ _ = _; simp [Sys2Proof.mmal, pairOf_even, zero4_zero, bitOf_bitFn]))

theorem mmalE5m2 (xd : Reg) (xa : RegPair) (xc : Reg) (ovw : Bool) : Statement (.mmalE5m2 xd xa xc ovw) := by
  intro _
  cases ovw <;>
  exact reads_rrrr rfl rfl rfl (by first | rfl | (show Sys2Proof.mmal _ _ = _; simp [Sys2Proof.mmal, pairOf_even, zero4_zero, bitOf_bitFn]))

theorem mmalE3m2 (xd : Reg) (xa : RegPair) (xc : Reg) (ovw : Bool) : Statement (.mmalE3m2 xd xa xc ovw) := by
  intro _
  cases ovw <;>
  exact reads_rrrr rfl rfl rfl (by first | rfl | (show Sys2Proof.mmal _ _ = _; simp [Sys2Proof.mmal, pairOf_even, zero4_zero, bitOf_bitFn]))

theorem mmalE2m3 (xd : Reg) (xa : RegPair) (xc : Reg) (ovw : Bool) : Statement (.mmalE2m3 xd xa xc ovw) := by
  intro _
  cases ovw <;>
  exact reads_rrrr rfl rfl rfl (by first | rfl | (show Sys2Proof.mmal _ _ = _; simp [Sys2Proof.mmal, pairOf_even, zero4_zero, bitOf_bitFn]))

theorem mmalE2m1 (xd : Reg) (xa : RegPair) (xc : Reg) (ovw : Bool) : Statement (.mmalE2m1 xd xa xc ovw) := by
  intro _
  cases ovw <;>
  exact reads_rrrr rfl rfl rfl (by first | rfl | (show Sys2Proof.mmal _ _ = _; simp [Sys2Proof.mmal, pairOf_even, zero4_zero, bitOf_bitFn]))

theorem mmalBf16 (xd : Reg) (xa : RegPair) (xc : Reg) (ovw : Bool) : Statement (.mmalBf16 xd xa xc ovw) := by
  intro _
  cases ovw <;>
  exact reads_rrrr rfl rfl rfl (by first | rfl | (show Sys2Proof.mmal _ _ = _; simp [Sys2Proof.mmal, pairOf_even, zero4_zero, bitOf_bitFn]))

theorem mmalF16 (xd : Reg) (xa : RegPair) (xc : Reg) (ovw : Bool) : Statement (.mmalF16 xd xa xc ovw) := by
  intro _
  cases ovw <;>
  exact reads_rrrr rfl rfl rfl (by first | rfl | (show Sys2Proof.mmal _ _ = _; simp [Sys2Proof.mmal, pairOf_even, zero4_zero, bitOf_bitFn]))

theorem mmalS8 (xd : Reg) (xa : RegPair) (xc : Reg) (ovw : Bool) : Statement (.mmalS8 xd xa xc ovw) := by
  intro _
  cases ovw <;>
  exact reads_rrrr rfl rfl rfl (by first | rfl | (show Sys2Proof.mmal _ _ = _; simp [Sys2Proof.mmal, pairOf_even, zero4_zero, bitOf_bitFn]))

theorem br (xa : Reg) : Statement (.br xa) := by
  intro _
  exact reads_rrr rfl rfl ⟨rfl, rfl, rfl⟩ rfl

theorem brl (xa : Reg) : Statement (.brl xa) := by
  intro _
  exact reads_rrr rfl rfl ⟨rfl, rfl, rfl⟩ rfl

theorem bri (off : BitVec 32) : Statement (.bri off) := fun _ => by
  show Reads (some _) _
  exact Or.inl ⟨rfl, rfl⟩

theorem brli (off : BitVec 32) : Statement (.brli off) := fun _ => by
  show Reads (some _) _
  exact Or.inr ⟨rfl, rfl⟩

theorem loop (xa : Reg) (off : BitVec 32) : Statement (.loop xa off) := fun _ => reads_rrb rfl rfl rfl rfl

theorem beq (xa : Reg) (xb : Reg) (off : BitVec 32) : Statement (.beq xa xb off) := fun _ => reads_rrb rfl rfl rfl rfl

theorem bne (xa : Reg) (xb : Reg) (off : BitVec 32) : Statement (.bne xa xb off) := fun _ => reads_rrb rfl rfl rfl rfl

theorem bltS (xa : Reg) (xb : Reg) (off : BitVec 32) : Statement (.bltS xa xb off) := fun _ => reads_rrb rfl rfl rfl rfl

theorem bltZ (xa : Reg) (xb : Reg) (off : BitVec 32) : Statement (.bltZ xa xb off) := fun _ => reads_rrb rfl rfl rfl rfl

theorem bgeS (xa : Reg) (xb : Reg) (off : BitVec 32) : Statement (.bgeS xa xb off) := fun _ => reads_rrb rfl rfl rfl rfl

theorem bgeZ (xa : Reg) (xb : Reg) (off : BitVec 32) : Statement (.bgeZ xa xb off) := fun _ => reads_rrb rfl rfl rfl rfl

theorem haltKeep (xa : Reg) : Statement (.haltKeep xa) := by
  intro _
  exact reads_rrr rfl rfl ⟨rfl, rfl, rfl⟩ rfl

theorem sigchk (sig : BitVec 16) : Statement (.sigchk sig) := fun _ => reads_loneC rfl rfl rfl (lone_sigchk sig)

theorem spawn (xa : Reg) (xd : Reg) : Statement (.spawn xa xd) := by
  intro _
  exact reads_rrr rfl rfl ⟨rfl, rfl, rfl⟩ rfl

theorem join (xa : Reg) : Statement (.join xa) := by
  intro _
  exact reads_rrr rfl rfl ⟨rfl, rfl, rfl⟩ rfl

theorem leave (xa : Reg) : Statement (.leave xa) := by
  intro _
  exact reads_rrr rfl rfl ⟨rfl, rfl, rfl⟩ rfl

theorem gbar (xa : Reg) : Statement (.gbar xa) := by
  intro _
  exact reads_rrr rfl rfl ⟨rfl, rfl, rfl⟩ rfl

theorem waitr (xa : Reg) (xd : Reg) : Statement (.waitr xa xd) := by
  intro _
  exact reads_rrr rfl rfl ⟨rfl, rfl, rfl⟩ rfl

theorem moveat (xa : Reg) (xd : Reg) (k : SlackReg) : Statement (.moveat xa xd k) := by
  intro _
  exact reads_rrr rfl rfl ⟨rfl, rfl, rfl⟩ rfl

theorem ldS8 (xd : Reg) (m : MemOp) : Statement (.ldS8 xd m) := fun _ => reads_mem rfl rfl rfl rfl rfl rfl

theorem ldZ8 (xd : Reg) (m : MemOp) : Statement (.ldZ8 xd m) := fun _ => reads_mem rfl rfl rfl rfl rfl rfl

theorem ldS16 (xd : Reg) (m : MemOp) : Statement (.ldS16 xd m) := fun _ => reads_mem rfl rfl rfl rfl rfl rfl

theorem ldZ16 (xd : Reg) (m : MemOp) : Statement (.ldZ16 xd m) := fun _ => reads_mem rfl rfl rfl rfl rfl rfl

theorem ldS32 (xd : Reg) (m : MemOp) : Statement (.ldS32 xd m) := fun _ => reads_mem rfl rfl rfl rfl rfl rfl

theorem ldZ32 (xd : Reg) (m : MemOp) : Statement (.ldZ32 xd m) := fun _ => reads_mem rfl rfl rfl rfl rfl rfl

theorem ld64 (xd : Reg) (m : MemOp) : Statement (.ld64 xd m) := fun _ => reads_mem rfl rfl rfl rfl rfl rfl

theorem st8 (xd : Reg) (m : MemOp) : Statement (.st8 xd m) := fun _ => reads_mem rfl rfl rfl rfl rfl rfl

theorem st16 (xd : Reg) (m : MemOp) : Statement (.st16 xd m) := fun _ => reads_mem rfl rfl rfl rfl rfl rfl

theorem st32 (xd : Reg) (m : MemOp) : Statement (.st32 xd m) := fun _ => reads_mem rfl rfl rfl rfl rfl rfl

theorem st64 (xd : Reg) (m : MemOp) : Statement (.st64 xd m) := fun _ => reads_mem rfl rfl rfl rfl rfl rfl

theorem ldp (xd : RegPair) (m : MemOp) : Statement (.ldp xd m) := fun _ => reads_mem rfl rfl rfl rfl (pairOf_even 1 xd fun d => .ok (.ldp d m)) rfl

theorem stp (xd : RegPair) (m : MemOp) : Statement (.stp xd m) := fun _ => reads_mem rfl rfl rfl rfl (pairOf_even 1 xd fun d => .ok (.stp d m)) rfl

theorem ldf (xd : Reg) (m : MemOp) : Statement (.ldf xd m) := fun _ => reads_mem rfl rfl rfl rfl rfl rfl

theorem stf (xd : Reg) (m : MemOp) : Statement (.stf xd m) := fun _ => reads_mem rfl rfl rfl rfl rfl rfl

theorem pref (m : MemOp) : Statement (.pref m) := fun h => reads_mem rfl rfl rfl rfl rfl (noNb_ok h)

theorem ld64Pi (xd : Reg) (m : MemOp) : Statement (.ld64Pi xd m) := fun _ => reads_mem rfl rfl rfl rfl rfl rfl

theorem st64Pi (xd : Reg) (m : MemOp) : Statement (.st64Pi xd m) := fun _ => reads_mem rfl rfl rfl rfl rfl rfl

theorem ldfPi (xd : Reg) (m : MemOp) : Statement (.ldfPi xd m) := fun _ => reads_mem rfl rfl rfl rfl rfl rfl

theorem stfPi (xd : Reg) (m : MemOp) : Statement (.stfPi xd m) := fun _ => reads_mem rfl rfl rfl rfl rfl rfl

theorem lda32 (xd : Reg) (m : MemOp) : Statement (.lda32 xd m) := fun h => reads_mem rfl rfl rfl rfl rfl (noNb_ok h)

theorem lda64 (xd : Reg) (m : MemOp) : Statement (.lda64 xd m) := fun h => reads_mem rfl rfl rfl rfl rfl (noNb_ok h)

theorem stl32 (xd : Reg) (m : MemOp) : Statement (.stl32 xd m) := fun h => reads_mem rfl rfl rfl rfl rfl (noNb_ok h)

theorem stl64 (xd : Reg) (m : MemOp) : Statement (.stl64 xd m) := fun h => reads_mem rfl rfl rfl rfl rfl (noNb_ok h)

theorem waitvEq (xd : Reg) (xa : Reg) (xb : Reg) (k : SlackReg) : Statement (.waitvEq xd xa xb k) := by
  intro _
  exact reads_rrr rfl rfl ⟨rfl, rfl, rfl⟩ rfl

theorem waitvNe (xd : Reg) (xa : Reg) (xb : Reg) (k : SlackReg) : Statement (.waitvNe xd xa xb k) := by
  intro _
  exact reads_rrr rfl rfl ⟨rfl, rfl, rfl⟩ rfl

theorem waitvGeS (xd : Reg) (xa : Reg) (xb : Reg) (k : SlackReg) : Statement (.waitvGeS xd xa xb k) := by
  intro _
  exact reads_rrr rfl rfl ⟨rfl, rfl, rfl⟩ rfl

theorem waitvEq32 (xd : Reg) (xa : Reg) (xb : Reg) (k : SlackReg) : Statement (.waitvEq32 xd xa xb k) := by
  intro _
  exact reads_rrr rfl rfl ⟨rfl, rfl, rfl⟩ rfl

theorem lrw32 (xd : Reg) (xa : Reg) (k : SlackReg) : Statement (.lrw32 xd xa k) := by
  intro _
  exact reads_rrr rfl rfl ⟨rfl, rfl, rfl⟩ rfl

theorem lrw64 (xd : Reg) (xa : Reg) (k : SlackReg) : Statement (.lrw64 xd xa k) := by
  intro _
  exact reads_rrr rfl rfl ⟨rfl, rfl, rfl⟩ rfl

theorem sch32 (pd : PredReg) (xa : Reg) (xb : Reg) (k : SlackReg) : Statement (.sch32 pd xa xb k) := by
  intro _
  exact reads_rrr rfl rfl ⟨rfl, rfl, rfl⟩ (by first | rfl | (show Sys2Proof.fabpk _ _ = _; simp [Sys2Proof.fabpk, pOf_pField]))

theorem sch64 (pd : PredReg) (xa : Reg) (xb : Reg) (k : SlackReg) : Statement (.sch64 pd xa xb k) := by
  intro _
  exact reads_rrr rfl rfl ⟨rfl, rfl, rfl⟩ (by first | rfl | (show Sys2Proof.fabpk _ _ = _; simp [Sys2Proof.fabpk, pOf_pField]))

theorem rlsv (pd : PredReg) (xa : Reg) (k : SlackReg) : Statement (.rlsv pd xa k) := by
  intro _
  exact reads_rrr rfl rfl ⟨rfl, rfl, rfl⟩ (by first | rfl | (show Sys2Proof.fapk _ _ = _; simp [Sys2Proof.fapk, pOf_pField, zero4_zero]))

theorem amoAdd (xd : Reg) (xa : Reg) (xb : Reg) (k : SlackReg) : Statement (.amoAdd xd xa xb k) := by
  intro _
  exact reads_rrr rfl rfl ⟨rfl, rfl, rfl⟩ rfl

theorem amoAnd (xd : Reg) (xa : Reg) (xb : Reg) (k : SlackReg) : Statement (.amoAnd xd xa xb k) := by
  intro _
  exact reads_rrr rfl rfl ⟨rfl, rfl, rfl⟩ rfl

theorem amoOr (xd : Reg) (xa : Reg) (xb : Reg) (k : SlackReg) : Statement (.amoOr xd xa xb k) := by
  intro _
  exact reads_rrr rfl rfl ⟨rfl, rfl, rfl⟩ rfl

theorem amoXor (xd : Reg) (xa : Reg) (xb : Reg) (k : SlackReg) : Statement (.amoXor xd xa xb k) := by
  intro _
  exact reads_rrr rfl rfl ⟨rfl, rfl, rfl⟩ rfl

theorem amoMinS (xd : Reg) (xa : Reg) (xb : Reg) (k : SlackReg) : Statement (.amoMinS xd xa xb k) := by
  intro _
  exact reads_rrr rfl rfl ⟨rfl, rfl, rfl⟩ rfl

theorem amoMaxS (xd : Reg) (xa : Reg) (xb : Reg) (k : SlackReg) : Statement (.amoMaxS xd xa xb k) := by
  intro _
  exact reads_rrr rfl rfl ⟨rfl, rfl, rfl⟩ rfl

theorem amoMinZ (xd : Reg) (xa : Reg) (xb : Reg) (k : SlackReg) : Statement (.amoMinZ xd xa xb k) := by
  intro _
  exact reads_rrr rfl rfl ⟨rfl, rfl, rfl⟩ rfl

theorem amoMaxZ (xd : Reg) (xa : Reg) (xb : Reg) (k : SlackReg) : Statement (.amoMaxZ xd xa xb k) := by
  intro _
  exact reads_rrr rfl rfl ⟨rfl, rfl, rfl⟩ rfl

theorem amoSwap (xd : Reg) (xa : Reg) (xb : Reg) (k : SlackReg) : Statement (.amoSwap xd xa xb k) := by
  intro _
  exact reads_rrr rfl rfl ⟨rfl, rfl, rfl⟩ rfl

theorem amoAdd32 (xd : Reg) (xa : Reg) (xb : Reg) (k : SlackReg) : Statement (.amoAdd32 xd xa xb k) := by
  intro _
  exact reads_rrr rfl rfl ⟨rfl, rfl, rfl⟩ rfl

theorem amoSwap32 (xd : Reg) (xa : Reg) (xb : Reg) (k : SlackReg) : Statement (.amoSwap32 xd xa xb k) := by
  intro _
  exact reads_rrr rfl rfl ⟨rfl, rfl, rfl⟩ rfl

theorem cas32 (xd : Reg) (xa : Reg) (xb : RegPair) (k : SlackReg) : Statement (.cas32 xd xa xb k) := by
  intro _
  exact reads_rrr rfl rfl ⟨rfl, rfl, rfl⟩ (by first | rfl | (show Sys2Proof.fabbck _ _ = _; simp [Sys2Proof.fabbck, pairOf_even]))

theorem cas64 (xd : Reg) (xa : Reg) (xb : RegPair) (k : SlackReg) : Statement (.cas64 xd xa xb k) := by
  intro _
  exact reads_rrr rfl rfl ⟨rfl, rfl, rfl⟩ (by first | rfl | (show Sys2Proof.fabbck _ _ = _; simp [Sys2Proof.fabbck, pairOf_even]))

theorem amoFaddF32 (xd : Reg) (xa : Reg) (xb : Reg) (k : SlackReg) : Statement (.amoFaddF32 xd xa xb k) := by
  intro _
  exact reads_rrr rfl rfl ⟨rfl, rfl, rfl⟩ rfl

theorem redAddS64 (xa : Reg) (xb : Reg) (k : SlackReg) : Statement (.redAddS64 xa xb k) := by
  intro _
  exact reads_rrr rfl rfl ⟨rfl, rfl, rfl⟩ rfl

theorem redAddF32 (xa : Reg) (xb : Reg) (k : SlackReg) : Statement (.redAddF32 xa xb k) := by
  intro _
  exact reads_rrr rfl rfl ⟨rfl, rfl, rfl⟩ rfl

theorem redAddBf16 (xa : Reg) (xb : Reg) (k : SlackReg) : Statement (.redAddBf16 xa xb k) := by
  intro _
  exact reads_rrr rfl rfl ⟨rfl, rfl, rfl⟩ rfl

theorem redAddBf16Sr (xa : Reg) (xb : Reg) (k : SlackReg) : Statement (.redAddBf16Sr xa xb k) := by
  intro _
  exact reads_rrr rfl rfl ⟨rfl, rfl, rfl⟩ rfl

theorem redMinS64 (xa : Reg) (xb : Reg) (k : SlackReg) : Statement (.redMinS64 xa xb k) := by
  intro _
  exact reads_rrr rfl rfl ⟨rfl, rfl, rfl⟩ rfl

theorem redMaxS64 (xa : Reg) (xb : Reg) (k : SlackReg) : Statement (.redMaxS64 xa xb k) := by
  intro _
  exact reads_rrr rfl rfl ⟨rfl, rfl, rfl⟩ rfl

theorem redMaxF32 (xa : Reg) (xb : Reg) (k : SlackReg) : Statement (.redMaxF32 xa xb k) := by
  intro _
  exact reads_rrr rfl rfl ⟨rfl, rfl, rfl⟩ rfl

theorem redOr64 (xa : Reg) (xb : Reg) (k : SlackReg) : Statement (.redOr64 xa xb k) := by
  intro _
  exact reads_rrr rfl rfl ⟨rfl, rfl, rfl⟩ rfl

theorem fence (inv : Bool) (ord : FenceOrd) (scope : Scope) : Statement (.fence inv ord scope) := fun _ => by
  show Reads (some _) _
  cases inv <;> cases ord <;> cases scope <;> exact ⟨rfl, rfl⟩

theorem cpsrc (xa : RegPair) : Statement (.cpsrc xa) := by
  intro _
  exact reads_rrr rfl rfl ⟨rfl, rfl, rfl⟩ (by first | rfl | (show Sys2Proof.fpair _ _ = _; simp [Sys2Proof.fpair, pairOf_even, zero4_zero]))

theorem cpdst (xa : RegPair) : Statement (.cpdst xa) := by
  intro _
  exact reads_rrr rfl rfl ⟨rfl, rfl, rfl⟩ (by first | rfl | (show Sys2Proof.fpair _ _ = _; simp [Sys2Proof.fpair, pairOf_even, zero4_zero]))

theorem cpshp (xa : Reg) (xb : Reg) : Statement (.cpshp xa xb) := by
  intro _
  exact reads_rrr rfl rfl ⟨rfl, rfl, rfl⟩ rfl

theorem cpstr (xa : Reg) (xb : Reg) : Statement (.cpstr xa xb) := by
  intro _
  exact reads_rrr rfl rfl ⟨rfl, rfl, rfl⟩ rfl

theorem cpgo (xi : Reg) (xs : Reg) (k : SlackReg) : Statement (.cpgo xi xs k) := by
  intro _
  exact reads_rrr rfl rfl ⟨rfl, rfl, rfl⟩ rfl

theorem cpgoMc (xi : Reg) (xs : Reg) (xm : Reg) (k : SlackReg) : Statement (.cpgoMc xi xs xm k) := by
  intro _
  exact reads_rrr rfl rfl ⟨rfl, rfl, rfl⟩ rfl

theorem cpcan (pd : PredReg) (xa : Reg) : Statement (.cpcan pd xa) := by
  intro _
  exact reads_rrr rfl rfl ⟨rfl, rfl, rfl⟩ (by first | rfl | (show Sys2Proof.fap _ _ = _; simp [Sys2Proof.fap, pOf_pField, zero4_zero]))

theorem cpqry (xd : Reg) (xa : Reg) : Statement (.cpqry xd xa) := by
  intro _
  exact reads_rrr rfl rfl ⟨rfl, rfl, rfl⟩ rfl

theorem pflAdd (pd : PredReg) (xa : Reg) (xb : Reg) (k : SlackReg) : Statement (.pflAdd pd xa xb k) := by
  intro _
  exact reads_rrr rfl rfl ⟨rfl, rfl, rfl⟩ (by first | rfl | (show Sys2Proof.fabpk _ _ = _; simp [Sys2Proof.fabpk, pOf_pField]))

theorem pflClr (xd : Reg) : Statement (.pflClr xd) := by
  intro _
  exact reads_rrr rfl rfl ⟨rfl, rfl, rfl⟩ rfl

theorem send (xa : Reg) (xb : Reg) (xc : Reg) (k : SlackReg) : Statement (.send xa xb xc k) := by
  intro _
  exact reads_rrr rfl rfl ⟨rfl, rfl, rfl⟩ rfl

theorem sendl (xd : Reg) (xa : Reg) (xb : Reg) (grains : BitVec 12) : Statement (.sendl xd xa xb grains) := fun _ => reads_loneC rfl rfl rfl (lone_sendl xd xa xb grains)

theorem recv (xd : Reg) (xa : Reg) (xb : Reg) : Statement (.recv xd xa xb) := by
  intro _
  exact reads_rrr rfl rfl ⟨rfl, rfl, rfl⟩ rfl

theorem recvNb (xd : Reg) (xa : Reg) (xb : Reg) : Statement (.recvNb xd xa xb) := by
  intro _
  exact reads_rrr rfl rfl ⟨rfl, rfl, rfl⟩ rfl

theorem inpeek (xd : Reg) (xa : Reg) : Statement (.inpeek xd xa) := by
  intro _
  exact reads_rrr rfl rfl ⟨rfl, rfl, rfl⟩ rfl

theorem tcon (xa : Reg) (xb : Reg) (k : SlackReg) : Statement (.tcon xa xb k) := by
  intro _
  exact reads_rrr rfl rfl ⟨rfl, rfl, rfl⟩ rfl

theorem tconV (xa : Reg) (xb : Reg) (k : SlackReg) : Statement (.tconV xa xb k) := by
  intro _
  exact reads_rrr rfl rfl ⟨rfl, rfl, rfl⟩ rfl

theorem tget (xd : Reg) (xa : Reg) (xb : Reg) : Statement (.tget xd xa xb) := by
  intro _
  exact reads_rrr rfl rfl ⟨rfl, rfl, rfl⟩ rfl

theorem tgrp (xd : Reg) (xa : Reg) : Statement (.tgrp xd xa) := by
  intro _
  exact reads_rrr rfl rfl ⟨rfl, rfl, rfl⟩ rfl

theorem tarm (xa : Reg) (xb : Reg) : Statement (.tarm xa xb) := by
  intro _
  exact reads_rrr rfl rfl ⟨rfl, rfl, rfl⟩ rfl

theorem token (xa : Reg) (k : SlackReg) : Statement (.token xa k) := by
  intro _
  exact reads_rrr rfl rfl ⟨rfl, rfl, rfl⟩ rfl

theorem tcnt (xa : Reg) (xb : Reg) (k : SlackReg) : Statement (.tcnt xa xb k) := by
  intro _
  exact reads_rrr rfl rfl ⟨rfl, rfl, rfl⟩ rfl

theorem tclr (xa : Reg) : Statement (.tclr xa) := by
  intro _
  exact reads_rrr rfl rfl ⟨rfl, rfl, rfl⟩ rfl

theorem collAllred (xd : Reg) (xa : Reg) (xb : Reg) (k : SlackReg) : Statement (.collAllred xd xa xb k) := by
  intro _
  exact reads_rrr rfl rfl ⟨rfl, rfl, rfl⟩ rfl

theorem collBcast (xd : Reg) (xa : Reg) (xb : Reg) (k : SlackReg) : Statement (.collBcast xd xa xb k) := by
  intro _
  exact reads_rrr rfl rfl ⟨rfl, rfl, rfl⟩ rfl

theorem collAllgat (xd : Reg) (xa : Reg) (xb : Reg) (k : SlackReg) : Statement (.collAllgat xd xa xb k) := by
  intro _
  exact reads_rrr rfl rfl ⟨rfl, rfl, rfl⟩ rfl

theorem collRedsc (xd : Reg) (xa : Reg) (xb : Reg) (k : SlackReg) : Statement (.collRedsc xd xa xb k) := by
  intro _
  exact reads_rrr rfl rfl ⟨rfl, rfl, rfl⟩ rfl

theorem rpcfg (xa : Reg) : Statement (.rpcfg xa) := by
  intro _
  exact reads_rrr rfl rfl ⟨rfl, rfl, rfl⟩ rfl

theorem rpgo (xd : Reg) (xa : RegPair) (xb : Reg) (k : SlackReg) : Statement (.rpgo xd xa xb k) := by
  intro _
  exact reads_rrr rfl rfl ⟨rfl, rfl, rfl⟩ (by first | rfl | (show Sys2Proof.frpgo _ _ = _; simp [Sys2Proof.frpgo, pairOf_even]))

theorem rpgoFine (xd : Reg) (xa : RegPair) (xb : Reg) (k : SlackReg) : Statement (.rpgoFine xd xa xb k) := by
  intro _
  exact reads_rrr rfl rfl ⟨rfl, rfl, rfl⟩ (by first | rfl | (show Sys2Proof.frpgo _ _ = _; simp [Sys2Proof.frpgo, pairOf_even]))

theorem rpstat (xd : Reg) (xa : Reg) : Statement (.rpstat xd xa) := by
  intro _
  exact reads_rrr rfl rfl ⟨rfl, rfl, rfl⟩ rfl

theorem sync (xd : Reg) : Statement (.sync xd) := by
  intro _
  exact reads_rrr rfl rfl ⟨rfl, rfl, rfl⟩ rfl

theorem syncr (xd : Reg) (xa : Reg) (op : SyncOp) : Statement (.syncr xd xa op) := by
  intro _
  cases op <;>
  exact reads_rrr rfl rfl ⟨rfl, rfl, rfl⟩ rfl

theorem vote (xa : Reg) : Statement (.vote xa) := by
  intro _
  exact reads_rrr rfl rfl ⟨rfl, rfl, rfl⟩ rfl

theorem ssnum (xd : Reg) : Statement (.ssnum xd) := by
  intro _
  exact reads_rrr rfl rfl ⟨rfl, rfl, rfl⟩ rfl

theorem undoq (xd : Reg) (xa : Reg) : Statement (.undoq xd xa) := by
  intro _
  exact reads_rrr rfl rfl ⟨rfl, rfl, rfl⟩ rfl

theorem bdef (xd : Reg) (xa : Reg) : Statement (.bdef xd xa) := by
  intro _
  exact reads_rrr rfl rfl ⟨rfl, rfl, rfl⟩ rfl

theorem slkset (k : SlackReg) (src : SlkSrc) : Statement (.slkset k src) := by
  intro _
  cases src with
  | reg a => exact reads_rrr rfl rfl ⟨rfl, rfl, rfl⟩ rfl
  | grains g => exact reads_loneC rfl rfl rfl (lone_slkset k g)

theorem slkget (xd : Reg) (k : SlackReg) : Statement (.slkget xd k) := by
  intro _
  exact reads_rrr rfl rfl ⟨rfl, rfl, rfl⟩ rfl

theorem slkev (xd : Reg) (xa : Reg) : Statement (.slkev xd xa) := by
  intro _
  exact reads_rrr rfl rfl ⟨rfl, rfl, rfl⟩ rfl

theorem csrr (xd : Reg) (xa : Reg) (num : BitVec 12) : Statement (.csrr xd xa num) := fun h => reads_loneC rfl rfl rfl (lone_csrr xd xa num h)

theorem csrw (xd : Reg) (xa : Reg) (num : BitVec 12) : Statement (.csrw xd xa num) := fun _ => reads_loneC rfl rfl rfl (lone_csrw xd xa num)

theorem csrs (xd : Reg) (xa : Reg) (num : BitVec 12) : Statement (.csrs xd xa num) := fun _ => reads_loneC rfl rfl rfl (lone_csrs xd xa num)

theorem csrc (xd : Reg) (xa : Reg) (num : BitVec 12) : Statement (.csrc xd xa num) := fun _ => reads_loneC rfl rfl rfl (lone_csrc xd xa num)

theorem trap (detail : BitVec 16) : Statement (.trap detail) := fun _ => reads_loneC rfl rfl rfl (lone_trap detail)

theorem mapt (xd : Reg) (xa : Reg) (xb : Reg) (k : SlackReg) : Statement (.mapt xd xa xb k) := by
  intro _
  exact reads_rrr rfl rfl ⟨rfl, rfl, rfl⟩ rfl

theorem xinv (xa : Reg) (xb : Reg) (k : SlackReg) : Statement (.xinv xa xb k) := by
  intro _
  exact reads_rrr rfl rfl ⟨rfl, rfl, rfl⟩ rfl

theorem gstop (xa : Reg) : Statement (.gstop xa) := by
  intro _
  exact reads_rrr rfl rfl ⟨rfl, rfl, rfl⟩ rfl

theorem pwgive (xd : Reg) (xa : Reg) (xb : Reg) (k : SlackReg) : Statement (.pwgive xd xa xb k) := by
  intro _
  exact reads_rrr rfl rfl ⟨rfl, rfl, rfl⟩ rfl

theorem clkepoch (xd : Reg) (xa : Reg) (xb : Reg) : Statement (.clkepoch xd xa xb) := by
  intro _
  exact reads_rrr rfl rfl ⟨rfl, rfl, rfl⟩ rfl

theorem add (xd : Reg) (xa : Reg) (xb : Reg) : Statement (.add xd xa xb) := by
  intro _
  exact reads_rrrr rfl rfl rfl rfl

theorem sub (xd : Reg) (xa : Reg) (xb : Reg) : Statement (.sub xd xa xb) := by
  intro _
  exact reads_rrrr rfl rfl rfl rfl

theorem addi (xd : Reg) (xa : Reg) (imm : BitVec 32) : Statement (.addi xd xa imm) := fun _ => reads_rri rfl rfl rfl rfl rfl

theorem mul (xd : Reg) (xa : Reg) (xb : Reg) : Statement (.mul xd xa xb) := by
  intro _
  exact reads_rrrr rfl rfl rfl rfl

theorem muli (xd : Reg) (xa : Reg) (imm : BitVec 32) : Statement (.muli xd xa imm) := fun _ => reads_rri rfl rfl rfl rfl rfl

theorem mulhS (xd : Reg) (xa : Reg) (xb : Reg) : Statement (.mulhS xd xa xb) := by
  intro _
  exact reads_rrrr rfl rfl rfl rfl

theorem mulhZ (xd : Reg) (xa : Reg) (xb : Reg) : Statement (.mulhZ xd xa xb) := by
  intro _
  exact reads_rrrr rfl rfl rfl rfl

theorem divS (xd : Reg) (xa : Reg) (xb : Reg) : Statement (.divS xd xa xb) := by
  intro _
  exact reads_rrrr rfl rfl rfl rfl

theorem divZ (xd : Reg) (xa : Reg) (xb : Reg) : Statement (.divZ xd xa xb) := by
  intro _
  exact reads_rrrr rfl rfl rfl rfl

theorem remS (xd : Reg) (xa : Reg) (xb : Reg) : Statement (.remS xd xa xb) := by
  intro _
  exact reads_rrrr rfl rfl rfl rfl

theorem remZ (xd : Reg) (xa : Reg) (xb : Reg) : Statement (.remZ xd xa xb) := by
  intro _
  exact reads_rrrr rfl rfl rfl rfl

theorem and (xd : Reg) (xa : Reg) (xb : Reg) : Statement (.and xd xa xb) := by
  intro _
  exact reads_rrrr rfl rfl rfl rfl

theorem or (xd : Reg) (xa : Reg) (xb : Reg) : Statement (.or xd xa xb) := by
  intro _
  exact reads_rrrr rfl rfl rfl rfl

theorem xor (xd : Reg) (xa : Reg) (xb : Reg) : Statement (.xor xd xa xb) := by
  intro _
  exact reads_rrrr rfl rfl rfl rfl

theorem andn (xd : Reg) (xa : Reg) (xb : Reg) : Statement (.andn xd xa xb) := by
  intro _
  exact reads_rrrr rfl rfl rfl rfl

theorem andi (xd : Reg) (xa : Reg) (imm : BitVec 32) : Statement (.andi xd xa imm) := fun _ => reads_rri rfl rfl rfl rfl rfl

theorem ori (xd : Reg) (xa : Reg) (imm : BitVec 32) : Statement (.ori xd xa imm) := fun _ => reads_rri rfl rfl rfl rfl rfl

theorem xori (xd : Reg) (xa : Reg) (imm : BitVec 32) : Statement (.xori xd xa imm) := fun _ => reads_rri rfl rfl rfl rfl rfl

theorem shl (xd : Reg) (xa : Reg) (xb : Reg) : Statement (.shl xd xa xb) := by
  intro _
  exact reads_rrrr rfl rfl rfl rfl

theorem shli (xd : Reg) (xa : Reg) (sh : BitVec 6) : Statement (.shli xd xa sh) := fun _ => reads_rri rfl rfl rfl (shiftImm_ok xd xa sh .shli) rfl

theorem shrZ (xd : Reg) (xa : Reg) (xb : Reg) : Statement (.shrZ xd xa xb) := by
  intro _
  exact reads_rrrr rfl rfl rfl rfl

theorem shriZ (xd : Reg) (xa : Reg) (sh : BitVec 6) : Statement (.shriZ xd xa sh) := fun _ => reads_rri rfl rfl rfl (shiftImm_ok xd xa sh .shriZ) rfl

theorem shrS (xd : Reg) (xa : Reg) (xb : Reg) : Statement (.shrS xd xa xb) := by
  intro _
  exact reads_rrrr rfl rfl rfl rfl

theorem shriS (xd : Reg) (xa : Reg) (sh : BitVec 6) : Statement (.shriS xd xa sh) := fun _ => reads_rri rfl rfl rfl (shiftImm_ok xd xa sh .shriS) rfl

theorem rot (xd : Reg) (xa : Reg) (xb : Reg) : Statement (.rot xd xa xb) := by
  intro _
  exact reads_rrrr rfl rfl rfl rfl

theorem roti (xd : Reg) (xa : Reg) (sh : BitVec 6) : Statement (.roti xd xa sh) := fun _ => reads_rri rfl rfl rfl (shiftImm_ok xd xa sh .roti) rfl

theorem minS (xd : Reg) (xa : Reg) (xb : Reg) : Statement (.minS xd xa xb) := by
  intro _
  exact reads_rrrr rfl rfl rfl rfl

theorem minZ (xd : Reg) (xa : Reg) (xb : Reg) : Statement (.minZ xd xa xb) := by
  intro _
  exact reads_rrrr rfl rfl rfl rfl

theorem maxS (xd : Reg) (xa : Reg) (xb : Reg) : Statement (.maxS xd xa xb) := by
  intro _
  exact reads_rrrr rfl rfl rfl rfl

theorem maxZ (xd : Reg) (xa : Reg) (xb : Reg) : Statement (.maxZ xd xa xb) := by
  intro _
  exact reads_rrrr rfl rfl rfl rfl

theorem abs (xd : Reg) (xa : Reg) : Statement (.abs xd xa) := by
  intro _
  exact reads_rrrr rfl rfl rfl rfl

theorem clz (xd : Reg) (xa : Reg) : Statement (.clz xd xa) := by
  intro _
  exact reads_rrrr rfl rfl rfl rfl

theorem ctz (xd : Reg) (xa : Reg) : Statement (.ctz xd xa) := by
  intro _
  exact reads_rrrr rfl rfl rfl rfl

theorem popc (xd : Reg) (xa : Reg) : Statement (.popc xd xa) := by
  intro _
  exact reads_rrrr rfl rfl rfl rfl

theorem bswap (xd : Reg) (xa : Reg) : Statement (.bswap xd xa) := by
  intro _
  exact reads_rrrr rfl rfl rfl rfl

theorem bextS (xd : Reg) (xa : Reg) (p : BitVec 6) (w1 : BitVec 6) : Statement (.bextS xd xa p w1) := fun h =>
  reads_bits rfl rfl ⟨rfl, rfl⟩ fun imm e => bitField_ok xd xa imm p w1 .bextS h e

theorem bextZ (xd : Reg) (xa : Reg) (p : BitVec 6) (w1 : BitVec 6) : Statement (.bextZ xd xa p w1) := fun h =>
  reads_bits rfl rfl ⟨rfl, rfl⟩ fun imm e => bitField_ok xd xa imm p w1 .bextZ h e

theorem bins (xd : Reg) (xa : Reg) (p : BitVec 6) (w1 : BitVec 6) : Statement (.bins xd xa p w1) := fun h =>
  reads_bits rfl rfl ⟨rfl, rfl⟩ fun imm e => bitField_ok xd xa imm p w1 .bins h e

theorem sext8 (xd : Reg) (xa : Reg) : Statement (.sext8 xd xa) := by
  intro _
  exact reads_rrrr rfl rfl rfl rfl

theorem sext16 (xd : Reg) (xa : Reg) : Statement (.sext16 xd xa) := by
  intro _
  exact reads_rrrr rfl rfl rfl rfl

theorem sext32 (xd : Reg) (xa : Reg) : Statement (.sext32 xd xa) := by
  intro _
  exact reads_rrrr rfl rfl rfl rfl

theorem movi (xd : Reg) (imm : BitVec 32) : Statement (.movi xd imm) := fun _ => rfl

theorem movk (xd : Reg) (lane : BitVec 2) (imm : BitVec 16) : Statement (.movk xd lane imm) := fun _ => reads_movl rfl rfl rfl (lone_movk xd lane imm)

theorem movx (xd : Reg) (imm : BitVec 32) : Statement (.movx xd imm) := fun _ => reads_movl rfl rfl rfl (lone_movx xd imm)

theorem sel (xd : Reg) (xa : Reg) (xb : Reg) (pc : PredReg) : Statement (.sel xd xa xb pc) := by
  intro _
  exact reads_rrrr rfl rfl rfl (by first | rfl | (show Sys2Proof.sel _ = _; simp [Sys2Proof.sel, pOf_pField, zero4_zero]))

theorem pand (pd : PredReg) (pa : PredReg) (pb : PredReg) : Statement (.pand pd pa pb) := by
  intro _
  exact reads_rrrr rfl rfl rfl (by first | rfl | (show Sys2Proof.ppp _ _ = _; simp [Sys2Proof.ppp, pOf_pField, zero4_zero]))

theorem por (pd : PredReg) (pa : PredReg) (pb : PredReg) : Statement (.por pd pa pb) := by
  intro _
  exact reads_rrrr rfl rfl rfl (by first | rfl | (show Sys2Proof.ppp _ _ = _; simp [Sys2Proof.ppp, pOf_pField, zero4_zero]))

theorem pxor (pd : PredReg) (pa : PredReg) (pb : PredReg) : Statement (.pxor pd pa pb) := by
  intro _
  exact reads_rrrr rfl rfl rfl (by first | rfl | (show Sys2Proof.ppp _ _ = _; simp [Sys2Proof.ppp, pOf_pField, zero4_zero]))

theorem pandn (pd : PredReg) (pa : PredReg) (pb : PredReg) : Statement (.pandn pd pa pb) := by
  intro _
  exact reads_rrrr rfl rfl rfl (by first | rfl | (show Sys2Proof.ppp _ _ = _; simp [Sys2Proof.ppp, pOf_pField, zero4_zero]))

theorem pmov (pd : PredReg) (pa : PredReg) : Statement (.pmov pd pa) := by
  intro _
  exact reads_rrrr rfl rfl rfl (by first | rfl | (show Sys2Proof.pmov _ = _; simp [Sys2Proof.pmov, pOf_pField, zero4_zero]))

theorem pmk (xd : Reg) (xa : Reg) (xc : Reg) (sp : PmkSpace) : Statement (.pmk xd xa xc sp) := by
  intro _
  cases sp <;>
  exact reads_rrrr rfl rfl rfl rfl

theorem padd (xd : Reg) (xa : Reg) (xb : Reg) : Statement (.padd xd xa xb) := by
  intro _
  exact reads_rrrr rfl rfl rfl rfl

theorem paddi (xd : Reg) (xa : Reg) (imm : BitVec 32) : Statement (.paddi xd xa imm) := fun _ => reads_rri rfl rfl rfl rfl rfl

theorem pset (xd : Reg) (xa : Reg) (xb : Reg) (f : PsetField) : Statement (.pset xd xa xb f) := by
  intro _
  cases f <;>
  exact reads_rrrr rfl rfl rfl rfl

theorem pget (xd : Reg) (xa : Reg) (f : PgetField) : Statement (.pget xd xa f) := by
  intro _
  cases f <;>
  exact reads_rrrr rfl rfl rfl rfl

theorem pidx (r : PidxRegs) (xb : Reg) : Statement (.pidx r xb) := by
  intro _
  cases r with
  | one d a => exact reads_rrrr rfl rfl rfl rfl
  | pair d a =>
    exact reads_rrrr rfl rfl rfl
      ((pairOf_even 1 d fun d => pairOf 2 (RegPair.even a) fun a => zero4 4 0#4 (.ok (.pidx (.pair d a) xb))).trans (pairOf_even 2 a _))

theorem fsgnAbs (xd : Reg) (xa : Reg) : Statement (.fsgnAbs xd xa) := by
  intro _
  exact reads_rrrr rfl rfl rfl rfl

theorem fsgnNeg (xd : Reg) (xa : Reg) : Statement (.fsgnNeg xd xa) := by
  intro _
  exact reads_rrrr rfl rfl rfl rfl

theorem fsgnCopy (xd : Reg) (xa : Reg) (xb : Reg) : Statement (.fsgnCopy xd xa xb) := by
  intro _
  exact reads_rrrr rfl rfl rfl rfl

theorem fadd (xd : Reg) (xa : Reg) (xb : Reg) : Statement (.fadd xd xa xb) := by
  intro _
  exact reads_rrrr rfl rfl rfl rfl

theorem fsub (xd : Reg) (xa : Reg) (xb : Reg) : Statement (.fsub xd xa xb) := by
  intro _
  exact reads_rrrr rfl rfl rfl rfl

theorem fmul (xd : Reg) (xa : Reg) (xb : Reg) : Statement (.fmul xd xa xb) := by
  intro _
  exact reads_rrrr rfl rfl rfl rfl

theorem ffma (xd : Reg) (xa : Reg) (xb : Reg) (xc : Reg) : Statement (.ffma xd xa xb xc) := by
  intro _
  exact reads_rrrr rfl rfl rfl rfl

theorem ffms (xd : Reg) (xa : Reg) (xb : Reg) (xc : Reg) : Statement (.ffms xd xa xb xc) := by
  intro _
  exact reads_rrrr rfl rfl rfl rfl

theorem fnma (xd : Reg) (xa : Reg) (xb : Reg) (xc : Reg) : Statement (.fnma xd xa xb xc) := by
  intro _
  exact reads_rrrr rfl rfl rfl rfl

theorem fnms (xd : Reg) (xa : Reg) (xb : Reg) (xc : Reg) : Statement (.fnms xd xa xb xc) := by
  intro _
  exact reads_rrrr rfl rfl rfl rfl

theorem fdiv (xd : Reg) (xa : Reg) (xb : Reg) : Statement (.fdiv xd xa xb) := by
  intro _
  exact reads_rrrr rfl rfl rfl rfl

theorem fsqrt (xd : Reg) (xa : Reg) : Statement (.fsqrt xd xa) := by
  intro _
  exact reads_rrrr rfl rfl rfl rfl

theorem fmin (xd : Reg) (xa : Reg) (xb : Reg) : Statement (.fmin xd xa xb) := by
  intro _
  exact reads_rrrr rfl rfl rfl rfl

theorem fmax (xd : Reg) (xa : Reg) (xb : Reg) : Statement (.fmax xd xa xb) := by
  intro _
  exact reads_rrrr rfl rfl rfl rfl

theorem fclass (xd : Reg) (xa : Reg) : Statement (.fclass xd xa) := by
  intro _
  exact reads_rrrr rfl rfl rfl rfl

theorem fcmpEq (pd : PredReg) (xa : Reg) (xb : Reg) : Statement (.fcmpEq pd xa xb) := by
  intro _
  exact reads_rrrr rfl rfl rfl (by first | rfl | (show Sys2Proof.pab _ _ = _; simp [Sys2Proof.pab, pOf_pField, zero4_zero]))

theorem fcmpLt (pd : PredReg) (xa : Reg) (xb : Reg) : Statement (.fcmpLt pd xa xb) := by
  intro _
  exact reads_rrrr rfl rfl rfl (by first | rfl | (show Sys2Proof.pab _ _ = _; simp [Sys2Proof.pab, pOf_pField, zero4_zero]))

theorem fcmpLe (pd : PredReg) (xa : Reg) (xb : Reg) : Statement (.fcmpLe pd xa xb) := by
  intro _
  exact reads_rrrr rfl rfl rfl (by first | rfl | (show Sys2Proof.pab _ _ = _; simp [Sys2Proof.pab, pOf_pField, zero4_zero]))

theorem fcmpUn (pd : PredReg) (xa : Reg) (xb : Reg) : Statement (.fcmpUn pd xa xb) := by
  intro _
  exact reads_rrrr rfl rfl rfl (by first | rfl | (show Sys2Proof.pab _ _ = _; simp [Sys2Proof.pab, pOf_pField, zero4_zero]))

theorem fcvtF32S32 (xd : Reg) (xa : Reg) : Statement (.fcvtF32S32 xd xa) := by
  intro _
  exact reads_rrrr rfl rfl rfl rfl

theorem fcvtS32F32Rz (xd : Reg) (xa : Reg) : Statement (.fcvtS32F32Rz xd xa) := by
  intro _
  exact reads_rrrr rfl rfl rfl rfl

theorem fcvtS32F32Rn (xd : Reg) (xa : Reg) : Statement (.fcvtS32F32Rn xd xa) := by
  intro _
  exact reads_rrrr rfl rfl rfl rfl

theorem fcvtF32Z32 (xd : Reg) (xa : Reg) : Statement (.fcvtF32Z32 xd xa) := by
  intro _
  exact reads_rrrr rfl rfl rfl rfl

theorem fcvtBf16F32Rn (xd : Reg) (xa : Reg) (sat : Bool) : Statement (.fcvtBf16F32Rn xd xa sat) := by
  intro _
  cases sat <;>
  exact reads_rrrr rfl rfl rfl rfl

theorem fcvtBf16F32Sr (xd : Reg) (xa : Reg) (xb : Reg) (sat : Bool) : Statement (.fcvtBf16F32Sr xd xa xb sat) := by
  intro _
  cases sat <;>
  exact reads_rrrr rfl rfl rfl rfl

theorem fcvtF32Bf16 (xd : Reg) (xa : Reg) : Statement (.fcvtF32Bf16 xd xa) := by
  intro _
  exact reads_rrrr rfl rfl rfl rfl

theorem fcvtF16 (xd : Reg) (xa : Reg) (f : F16Conv) : Statement (.fcvtF16 xd xa f) := by
  intro _
  cases f <;>
  exact reads_rrrr rfl rfl rfl rfl

theorem cmpEq (pd : PredReg) (xa : Reg) (xb : Reg) : Statement (.cmpEq pd xa xb) := by
  intro _
  exact reads_rrrr rfl rfl rfl (by first | rfl | (show Sys2Proof.pab _ _ = _; simp [Sys2Proof.pab, pOf_pField, zero4_zero]))

theorem cmpNe (pd : PredReg) (xa : Reg) (xb : Reg) : Statement (.cmpNe pd xa xb) := by
  intro _
  exact reads_rrrr rfl rfl rfl (by first | rfl | (show Sys2Proof.pab _ _ = _; simp [Sys2Proof.pab, pOf_pField, zero4_zero]))

theorem cmpLtS (pd : PredReg) (xa : Reg) (xb : Reg) : Statement (.cmpLtS pd xa xb) := by
  intro _
  exact reads_rrrr rfl rfl rfl (by first | rfl | (show Sys2Proof.pab _ _ = _; simp [Sys2Proof.pab, pOf_pField, zero4_zero]))

theorem cmpLtZ (pd : PredReg) (xa : Reg) (xb : Reg) : Statement (.cmpLtZ pd xa xb) := by
  intro _
  exact reads_rrrr rfl rfl rfl (by first | rfl | (show Sys2Proof.pab _ _ = _; simp [Sys2Proof.pab, pOf_pField, zero4_zero]))

theorem cmpLeS (pd : PredReg) (xa : Reg) (xb : Reg) : Statement (.cmpLeS pd xa xb) := by
  intro _
  exact reads_rrrr rfl rfl rfl (by first | rfl | (show Sys2Proof.pab _ _ = _; simp [Sys2Proof.pab, pOf_pField, zero4_zero]))

theorem cmpLeZ (pd : PredReg) (xa : Reg) (xb : Reg) : Statement (.cmpLeZ pd xa xb) := by
  intro _
  exact reads_rrrr rfl rfl rfl (by first | rfl | (show Sys2Proof.pab _ _ = _; simp [Sys2Proof.pab, pOf_pField, zero4_zero]))

theorem cmpiEq (pd : PredReg) (xa : Reg) (imm : BitVec 32) : Statement (.cmpiEq pd xa imm) := fun _ =>
  reads_rri rfl rfl rfl (congrArg (fun d => Enc.ok (Instr.cmpiEq d xa imm)) (pField_setWidth pd)) (pred_field _ _)

theorem cmpiNe (pd : PredReg) (xa : Reg) (imm : BitVec 32) : Statement (.cmpiNe pd xa imm) := fun _ =>
  reads_rri rfl rfl rfl (congrArg (fun d => Enc.ok (Instr.cmpiNe d xa imm)) (pField_setWidth pd)) (pred_field _ _)

theorem cmpiLtS (pd : PredReg) (xa : Reg) (imm : BitVec 32) : Statement (.cmpiLtS pd xa imm) := fun _ =>
  reads_rri rfl rfl rfl (congrArg (fun d => Enc.ok (Instr.cmpiLtS d xa imm)) (pField_setWidth pd)) (pred_field _ _)

theorem cmpiLtZ (pd : PredReg) (xa : Reg) (imm : BitVec 32) : Statement (.cmpiLtZ pd xa imm) := fun _ =>
  reads_rri rfl rfl rfl (congrArg (fun d => Enc.ok (Instr.cmpiLtZ d xa imm)) (pField_setWidth pd)) (pred_field _ _)

theorem cmpiLeS (pd : PredReg) (xa : Reg) (imm : BitVec 32) : Statement (.cmpiLeS pd xa imm) := fun _ =>
  reads_rri rfl rfl rfl (congrArg (fun d => Enc.ok (Instr.cmpiLeS d xa imm)) (pField_setWidth pd)) (pred_field _ _)

theorem nop : Statement .nop := fun _ => reads_fieldless rfl rfl rfl

theorem ret : Statement .ret := fun _ => reads_fieldless rfl rfl rfl

theorem yield : Statement .yield := fun _ => reads_fieldless rfl rfl rfl

theorem halt : Statement .halt := fun _ => reads_fieldless rfl rfl rfl

theorem taskend : Statement .taskend := fun _ => reads_fieldless rfl rfl rfl

theorem abort : Statement .abort := by
  intro _
  exact reads_rrr rfl rfl ⟨rfl, rfl, rfl⟩ rfl

theorem eret : Statement .eret := fun _ => reads_fieldless rfl rfl rfl

theorem idle : Statement .idle := fun _ => reads_fieldless rfl rfl rfl

theorem yieldWake : Statement .yieldWake := fun _ => reads_none rfl rfl

theorem waitrWake : Statement .waitrWake := fun _ => reads_none rfl rfl

theorem moveatArrival : Statement .moveatArrival := fun _ => reads_none rfl rfl

theorem waitvMonitorFree : Statement .waitvMonitorFree := fun _ => reads_none rfl rfl

theorem reservationGrant : Statement .reservationGrant := fun _ => reads_none rfl rfl

theorem reservationRevokeTimeout : Statement .reservationRevokeTimeout := fun _ => reads_none rfl rfl

theorem copyChunkStart : Statement .copyChunkStart := fun _ => reads_none rfl rfl

theorem copyChunkAck : Statement .copyChunkAck := fun _ => reads_none rfl rfl

theorem copyTransferEnd : Statement .copyTransferEnd := fun _ => reads_none rfl rfl

theorem inputFetchStart : Statement .inputFetchStart := fun _ => reads_none rfl rfl

theorem pageFetchStart : Statement .pageFetchStart := fun _ => reads_none rfl rfl

theorem messageArrival : Statement .messageArrival := fun _ => reads_none rfl rfl

theorem messageAccept : Statement .messageAccept := fun _ => reads_none rfl rfl

theorem heldMessageSend : Statement .heldMessageSend := fun _ => reads_none rfl rfl

theorem treeContributionCombine : Statement .treeContributionCombine := fun _ => reads_none rfl rfl

theorem treeRoundComplete : Statement .treeRoundComplete := fun _ => reads_none rfl rfl

theorem treeResultDelivery : Statement .treeResultDelivery := fun _ => reads_none rfl rfl

theorem tokenArrival : Statement .tokenArrival := fun _ => reads_none rfl rfl

theorem counterArrival : Statement .counterArrival := fun _ => reads_none rfl rfl

theorem triggerFire : Statement .triggerFire := fun _ => reads_none rfl rfl

theorem collectiveComplete : Statement .collectiveComplete := fun _ => reads_none rfl rfl

theorem repartitionStart : Statement .repartitionStart := fun _ => reads_none rfl rfl

theorem repartitionHistogramResult : Statement .repartitionHistogramResult := fun _ => reads_none rfl rfl

theorem repartitionItemArrival : Statement .repartitionItemArrival := fun _ => reads_none rfl rfl

theorem repartitionComplete : Statement .repartitionComplete := fun _ => reads_none rfl rfl

theorem tileArrive : Statement .tileArrive := fun _ => reads_none rfl rfl

theorem arriveReceipt : Statement .arriveReceipt := fun _ => reads_none rfl rfl

theorem rootDecide : Statement .rootDecide := fun _ => reads_none rfl rfl

theorem commitApply : Statement .commitApply := fun _ => reads_none rfl rfl

theorem abortApply : Statement .abortApply := fun _ => reads_none rfl rfl

theorem doneReceipt : Statement .doneReceipt := fun _ => reads_none rfl rfl

theorem openReceipt : Statement .openReceipt := fun _ => reads_none rfl rfl

theorem saveFirkin : Statement .saveFirkin := fun _ => reads_none rfl rfl

theorem firkinRestore : Statement .firkinRestore := fun _ => reads_none rfl rfl

theorem xinvComplete : Statement .xinvComplete := fun _ => reads_none rfl rfl

theorem gangStopArrival : Statement .gangStopArrival := fun _ => reads_none rfl rfl

theorem gangResume : Statement .gangResume := fun _ => reads_none rfl rfl

theorem stonesArrival : Statement .stonesArrival := fun _ => reads_none rfl rfl

theorem divideComplete : Statement .divideComplete := fun _ => reads_none rfl rfl

theorem vectorCommandStart : Statement .vectorCommandStart := fun _ => reads_none rfl rfl

theorem vectorCommandComplete : Statement .vectorCommandComplete := fun _ => reads_none rfl rfl

theorem rotbPanelArrival : Statement .rotbPanelArrival := fun _ => reads_none rfl rfl

theorem matrixCommandStart : Statement .matrixCommandStart := fun _ => reads_none rfl rfl

theorem matrixCommandComplete : Statement .matrixCommandComplete := fun _ => reads_none rfl rfl

theorem bundleFetch : Statement .bundleFetch := fun _ => reads_none rfl rfl

theorem taskPop : Statement .taskPop := fun _ => reads_none rfl rfl

theorem stealRequest : Statement .stealRequest := fun _ => reads_none rfl rfl

theorem stealRequestService : Statement .stealRequestService := fun _ => reads_none rfl rfl

theorem stealReply : Statement .stealReply := fun _ => reads_none rfl rfl

theorem stealBackoffExpiry : Statement .stealBackoffExpiry := fun _ => reads_none rfl rfl

theorem bankRetentionEntry : Statement .bankRetentionEntry := fun _ => reads_none rfl rfl

theorem bankWake : Statement .bankWake := fun _ => reads_none rfl rfl

theorem remoteAccessService : Statement .remoteAccessService := fun _ => reads_none rfl rfl

theorem translationWalk : Statement .translationWalk := fun _ => reads_none rfl rfl

theorem forwardedAccess : Statement .forwardedAccess := fun _ => reads_none rfl rfl

theorem replyArrival : Statement .replyArrival := fun _ => reads_none rfl rfl

theorem deferredFaultTrap : Statement .deferredFaultTrap := fun _ => reads_none rfl rfl

theorem packetGrant : Statement .packetGrant := fun _ => reads_none rfl rfl

theorem rejectNoticeArrival : Statement .rejectNoticeArrival := fun _ => reads_none rfl rfl

theorem pathLostNotice : Statement .pathLostNotice := fun _ => reads_none rfl rfl

theorem trapEntry : Statement .trapEntry := fun _ => reads_none rfl rfl

theorem asyncCauseTaken : Statement .asyncCauseTaken := fun _ => reads_none rfl rfl

theorem sliceTimerExpiry : Statement .sliceTimerExpiry := fun _ => reads_none rfl rfl

theorem preemptDeadlineExpiry : Statement .preemptDeadlineExpiry := fun _ => reads_none rfl rfl

theorem entryMakeResident : Statement .entryMakeResident := fun _ => reads_none rfl rfl

theorem launchSlotWrite : Statement .launchSlotWrite := fun _ => reads_none rfl rfl

theorem launchStart : Statement .launchStart := fun _ => reads_none rfl rfl

theorem directoryEntryWrite : Statement .directoryEntryWrite := fun _ => reads_none rfl rfl

theorem regionHeaderWrite : Statement .regionHeaderWrite := fun _ => reads_none rfl rfl

theorem contextEntryWrite : Statement .contextEntryWrite := fun _ => reads_none rfl rfl

theorem contextKick : Statement .contextKick := fun _ => reads_none rfl rfl

theorem bar4Read : Statement .bar4Read := fun _ => reads_none rfl rfl

theorem bar4Write : Statement .bar4Write := fun _ => reads_none rfl rfl

theorem interruptCauseClear : Statement .interruptCauseClear := fun _ => reads_none rfl rfl

theorem hostRegisterWrite : Statement .hostRegisterWrite := fun _ => reads_none rfl rfl

theorem getVersion : Statement .getVersion := fun _ => reads_none rfl rfl

theorem getCapabilities : Statement .getCapabilities := fun _ => reads_none rfl rfl

theorem negotiateAlgorithms : Statement .negotiateAlgorithms := fun _ => reads_none rfl rfl

theorem getDigests : Statement .getDigests := fun _ => reads_none rfl rfl

theorem getCertificate : Statement .getCertificate := fun _ => reads_none rfl rfl

theorem challenge : Statement .challenge := fun _ => reads_none rfl rfl

theorem getMeasurements : Statement .getMeasurements := fun _ => reads_none rfl rfl

theorem deviceReset : Statement .deviceReset := fun _ => reads_none rfl rfl

theorem discoveryFlood : Statement .discoveryFlood := fun _ => reads_none rfl rfl

theorem discoveryTimeout : Statement .discoveryTimeout := fun _ => reads_none rfl rfl

theorem mapInstallRequest : Statement .mapInstallRequest := fun _ => reads_none rfl rfl

theorem pwrbalWrite : Statement .pwrbalWrite := fun _ => reads_none rfl rfl

theorem powerAverageUpdate : Statement .powerAverageUpdate := fun _ => reads_none rfl rfl

theorem dutyRecompute : Statement .dutyRecompute := fun _ => reads_none rfl rfl

theorem energyInterval : Statement .energyInterval := fun _ => reads_none rfl rfl

theorem scrubSector : Statement .scrubSector := fun _ => reads_none rfl rfl

theorem tileLost : Statement .tileLost := fun _ => reads_none rfl rfl

theorem railSliceError : Statement .railSliceError := fun _ => reads_none rfl rfl

theorem railLost : Statement .railLost := fun _ => reads_none rfl rfl

theorem pause : Statement .pause := fun _ => reads_none rfl rfl

theorem resume : Statement .resume := fun _ => reads_none rfl rfl

theorem repair : Statement .repair := fun _ => reads_none rfl rfl

theorem retrain : Statement .retrain := fun _ => reads_none rfl rfl

theorem clrerr : Statement .clrerr := fun _ => reads_none rfl rfl

theorem linkCommandComplete : Statement .linkCommandComplete := fun _ => reads_none rfl rfl

theorem linkEventDelivery : Statement .linkEventDelivery := fun _ => reads_none rfl rfl

theorem keepCopyComplete : Statement .keepCopyComplete := fun _ => reads_none rfl rfl

theorem ownTlmLoadReturn : Statement .ownTlmLoadReturn := fun _ => reads_none rfl rfl

theorem packetArrival : Statement .packetArrival := fun _ => reads_none rfl rfl

theorem receiveBufferEntryRetired : Statement .receiveBufferEntryRetired := fun _ => reads_none rfl rfl

theorem memoryBitError : Statement .memoryBitError := fun _ => reads_none rfl rfl

end Sys2Proof.Laws.Encoding
end

