-- ==== Sys2Proof/Tests/Slice0.lean ====
section
/-! SUPPORT. Tests: terms that no bundle may hold, words written out from the encodings of 02, 03, 05 and 17, single steps on small
states with results worked out from the rules, and for each statement a state and operands that meet its hypotheses. -/

open Sys2Proof Sys2Proof.Machine

namespace Tests

set_option Elab.async false

/-! ### Ill-formed terms, one for each check (02 R25-R34, 03 R58-R61) -/

def p0 : Guard := ⟨0, false⟩

/-- A lone bundle with guard p0 and stall count 1. -/
def one (i : Instr) : Bundle := .lone 1 p0 i

/-- A paired bundle with guards p0 and stall count 1. -/
def two (c a : Instr) : Bundle := .paired 1 p0 c p0 a

theorem test_field_past_the_top : (one (.bextS 1 2 60 4)).wellFormed = false := by decide
theorem test_field_up_to_the_top : (one (.bextS 1 2 60 3)).wellFormed = true := by decide
theorem test_inserted_field_past_the_top : (one (.bins 1 2 1 63)).wellFormed = false := by decide
theorem test_no_non_blocking_pref : (one (.pref ⟨1, .bytes 0, true, 0⟩)).wellFormed = false := by decide
theorem test_no_non_blocking_lda : (one (.lda64 1 ⟨2, .bytes 0, true, 0⟩)).wellFormed = false := by decide
theorem test_no_non_blocking_stl : (one (.stl32 1 ⟨2, .bytes 0, true, 0⟩)).wellFormed = false := by decide
theorem test_csrr_reads_no_register : (one (.csrr 4 1 0x40)).wellFormed = false ∧ (one (.csrr 4 1 0x016)).wellFormed = true := by decide
theorem test_movx_has_no_paired_form : (two .nop (.movx 1 5)).wellFormed = false ∧ (one (.movx 1 5)).wellFormed = true := by decide
theorem test_sigchk_has_no_paired_form : (two (.sigchk 5) (.abs 1 2)).wellFormed = false := by decide
theorem test_wide_immediate_has_no_paired_form :
    (two .nop (.addi 1 1 2048)).wellFormed = false ∧ (two .nop (.addi 1 1 2047)).wellFormed = true := by decide
theorem test_wide_branch_has_no_paired_form : (two (.beq 1 2 64) (.abs 1 2)).wellFormed = false := by decide
theorem test_unsigned_immediate_has_twelve_bits :
    (two .nop (.cmpiLtZ 1 1 4095)).wellFormed = true ∧ (two .nop (.cmpiLtZ 1 1 4096)).wellFormed = false := by decide
theorem test_slack_from_a_register_is_paired_only :
    (one (.slkset 1 (.reg 2))).wellFormed = false ∧ (two (.slkset 1 (.reg 2)) (.abs 1 2)).wellFormed = true := by decide
theorem test_lone_offset_is_in_bytes : (one (.ld64 1 ⟨2, .units 1, false, 0⟩)).wellFormed = false := by decide
theorem test_paired_access_blocks : (two (.ld64 1 ⟨2, .units 1, true, 0⟩) (.abs 1 2)).wellFormed = false := by decide
theorem test_paired_access_has_class_zero : (two (.ld64 1 ⟨2, .units 1, false, 3⟩) (.abs 1 2)).wellFormed = false := by decide
theorem test_c_slot_holds_c_instructions : (two (.abs 1 2) (.abs 1 2)).wellFormed = false := by decide
theorem test_a_slot_holds_a_instructions : (two .nop .nop).wellFormed = false := by decide
theorem test_no_bundle_holds_an_operation : (one .yieldWake).wellFormed = false := by decide

/-! ### Words from the spec's encodings (02 Table 2.4, 03 Tables 3.2-3.5) -/

theorem test_word_of_a_pair :
    decodeBundle ⟨0x08131182, 0x06234500⟩ = .ok (two (.ld64 2 ⟨3, .units 2, false, 0⟩) (.cmpLtS 3 4 5)) := by decide +kernel
theorem test_words_of_an_immediate : decodeBundle ⟨0x88408440, 0x00001388⟩ = .ok (one (.addi 1 1 5000)) := by decide +kernel
theorem test_word_of_a_trap : decodeBundle ⟨0x88350000, 0x00000012⟩ = .ok (one (.trap 0x12)) := by decide +kernel
theorem test_word_of_a_register_read : decodeBundle ⟨0x88341000, 0x00000040⟩ = .ok (one (.csrr 4 0 0x40)) := by decide +kernel
theorem test_word_of_a_wide_move : decodeBundle ⟨0x884C8400, 0x00000001⟩ = .ok (one (.movx 1 1)) := by decide +kernel
theorem test_zero_words : decodeBundle ⟨0, 0⟩ = .error 0x000 := by decide +kernel
theorem test_encoded_pair :
    encodeBundle (two (.ld64 2 ⟨3, .units 2, false, 0⟩) (.cmpLtS 3 4 5)) = some ⟨0x08131182, 0x06234500⟩ := by decide +kernel
theorem test_encoded_trap : encodeBundle (one (.trap 0x12)) = some ⟨0x88350000, 0x00000012⟩ := by decide +kernel


/-- A C instruction with the empty A slot (02 R33), whose word has the fields of A opcode 0x00. -/
def alone (c : Instr) : Bundle := .paired 1 p0 c ⟨0, true⟩ (.add 0 0 0)

/-- An A instruction beside NOP. -/
def beside (a : Instr) : Bundle := two .nop a

/-- Whether each pair of words decodes to its bundle and is that bundle's encoding. -/
noncomputable def stands (l : List (Nat × Nat × Bundle)) : Bool := l.all fun q =>
  (match decodeBundle ⟨BitVec.ofNat 32 q.1, BitVec.ofNat 32 q.2.1⟩ with | .ok b => b == q.2.2 | .error _ => false) &&
    encodeBundle q.2.2 == some ⟨BitVec.ofNat 32 q.1, BitVec.ofNat 32 q.2.1⟩

/-- 02, 05, 06 and 19 Table 19.4. -/
theorem test_words_of_control_and_scalar : stands
    [(0x20131182, 0x04345600, .paired 4 p0 (.ld64 2 ⟨3, .units 2, false, 0⟩) p0 (.fadd 4 5 6)),
      (0x0803A800, 0x00066500, two (.loop 5 0) (.add 6 6 5)), (0x080A6000, 0x10000000, alone (.join 12)),
      (0x08092A00, 0x10000000, alone (.spawn 5 4)), (0x0804A67F, 0x10000000, alone (.bne 4 12 (-1))),
      (0x09820020, 0x10000000, .paired 1 ⟨1, true⟩ (.bri 32) ⟨0, true⟩ (.add 0 0 0)), (0x080B6000, 0x10000000, alone (.gbar 12)),
      (0x08008000, 0x03E22901, beside (.pidx (.pair 1 1) 9)), (0x08008000, 0x02ACB1E8, beside (.bextZ 12 11 40 7))] = true := by
  decide +kernel

/-- 02, 07, 08, 09, 20 Table 20.4. -/
theorem test_words_of_memory : stands
    [(0x880988C2, 0x00001000, one (.ld64 2 ⟨3, .bytes 4096, false, 1⟩)), (0x0811CF04, 0x10000000, alone (.ldZ16 9 ⟨14, .units 4, false, 0⟩)),
      (0x08131F54, 0x10000000, alone (.ld64 3 ⟨14, .index 5, false, 0⟩)), (0x08192101, 0x10000000, alone (.ldfPi 4 ⟨2, .units 1, false, 0⟩)),
      (0x081DE380, 0x10000000, alone (.stl64 12 ⟨7, .units 0, false, 0⟩)), (0x880E5082, 0, one (.lda64 4 ⟨2, .bytes 0, false, 1⟩)),
      (0x081E3E59, 0x10000000, alone (.waitvEq 11 7 12 1)), (0x082291A1, 0x10000000, alone (.amoAdd 4 2 3 1)),
      (0x082F8013, 0x10000000, alone (.fence false .ar .device)), (0x082F801B, 0x10000000, alone (.fence false .sc .device))] = true := by
  decide +kernel

/-- 10, 11, 12, 19 Table 19.4, 20 Table 20.4. -/
theorem test_words_of_engines : stands
    [(0x08301000, 0x10000000, alone (.cpsrc 1)), (0x0830A000, 0x10000000, alone (.cpdst 2)), (0x08313380, 0x10000000, alone (.cpshp 6 7)),
      (0x0831C480, 0x10000000, alone (.cpstr 8 9)), (0x0832055A, 0x10000000, alone (.cpgo 10 11 2)), (0x08008000, 0x0C390004, beside (.rotb 9 2)),
      (0x08008000, 0x4C2F4070, .paired 1 p0 .nop ⟨2, false⟩ (.latb 15 2 7)), (0x08008000, 0x0D0920D1, beside (.mmalE4m3 9 1 13 true)),
      (0x08008000, 0x0C49D0A2, beside (.mst 9 13 10 1 false)), (0x08008000, 0x0C892461, beside (.mmaE4m3 9 1 2 6 true)),
      (0x08008000, 0x08096240, beside (.vadd 9 6 1 (.array 2)))] = true := by decide +kernel

/-- 13 Table 13.13, 14 Table 14.12, 15 Table 15.1, 16 Table 16.2. -/
theorem test_words_of_supersteps_and_messages : stands
    [(0x08580020, 0x10000000, alone (.sync 4)), (0x08589C28, 0x10000000, alone (.syncr 5 3 .fadd)), (0x08591000, 0x10000000, alone (.vote 2)),
      (0x08598000, 0x10000000, alone .abort), (0x085A9038, 0x10000000, alone (.undoq 7 2)), (0x085B1040, 0x10000000, alone (.bdef 8 2)),
      (0x08601801, 0x10000000, alone (.slkset 1 (.reg 3))), (0x88300400, 0x40, one (.slkset 1 (.grains 64))),
      (0x08608021, 0x10000000, alone (.slkget 4 1)), (0x084011A1, 0x10000000, alone (.send 2 3 4 1)), (0x8820508C, 0x64, one (.sendl 4 2 3 100)),
      (0x08411328, 0x10000000, alone (.recv 5 2 6)), (0x08429181, 0x10000000, alone (.tcon 2 3 1)), (0x084391A8, 0x10000000, alone (.tget 5 2 3)),
      (0x08449180, 0x10000000, alone (.tarm 2 3)), (0x08459181, 0x10000000, alone (.tcnt 2 3 1)), (0x084691A9, 0x10000000, alone (.collAllred 5 2 3 1)),
      (0x084811A9, 0x10000000, alone (.collRedsc 5 2 3 1)), (0x08503000, 0x10000000, alone (.rpcfg 6)), (0x08509229, 0x10000000, alone (.rpgo 5 1 4 1)),
      (0x0851C048, 0x10000000, alone (.rpstat 9 8))] = true := by decide +kernel

/-- 17 Table 17.10. -/
theorem test_words_of_the_system : stands
    [(0x88341000, 0x01, one (.csrr 4 0 1)), (0x88345580, 0x20, one (.csrw 5 6 0x20)), (0x086A8000, 0x10000000, alone .eret),
      (0x086B0000, 0x10000000, alone .idle), (0x086B91A8, 0x10000000, alone (.mapt 5 2 3 0)), (0x086C1180, 0x10000000, alone (.xinv 2 3 0)),
      (0x086C9000, 0x10000000, alone (.gstop 2)), (0x086D11A8, 0x10000000, alone (.pwgive 5 2 3 0)),
      (0x086D91A8, 0x10000000, alone (.clkepoch 5 2 3))] = true := by decide +kernel

/-- The worked examples of 03: the lower of two causes, a reserved field of an extension, an instruction without one. -/
theorem test_words_refused : decodeBundle ⟨0x081311D1, 0x0E500000⟩ = .error 0x005 ∧ decodeBundle ⟨0x80518000, 0x00145670⟩ = .error 0x016 ∧
    decodeBundle ⟨0x8003C000, 0x00000001⟩ = .error 0x010 := by decide +kernel

/-! ### Small states -/

def regs (l : List Word) : Vector Word 16 := Vector.ofFn fun i => l.getD i.val 0

/-- A live strand at 0x100 with some registers. -/
def live (l : List Word) : Strand := { Strand.free with st := .live, x := regs l, pc := 0x100 }

def core (st : Strand) : TileCore := { TileCore.reset with slots := vset TileCore.reset.slots 0 st }

/-- A device that has booted, with partition 5 on tiles 0, 1, 32 and 33, and a strand in slot 0 of tile 0. -/
def device (st : Strand) : State :=
  { State.reset with
    devstat := 1, l2pOk := 15, parts := [(5, { Part.reset with valid := true, pw := 2, ph := 2, devs := [0] })]
    tiles := [(0, { Tile.reset with core := core st, openCore := core st })]
    cur := { Issue.none with pc := st.pc, x := st.x, pred := st.pred } }

/-- That device with a strand that has some registers. -/
def booted (l : List Word) : State := device (live l)

/-- That device with a strand at device privilege. -/
def privileged (l : List Word) : State := device { live l with sstat := 0x200 }

def eng (s : State) (f : TileEng → TileEng) : State := s.modEng 0 f

def on (s : State) (e : Ev) : State := { s with cur := { s.cur with ev := e } }

/-- A pointer to this tile's TLM. -/
def tlm (a : Nat) : Word := 0x00FFF80000000000 + BitVec.ofNat 64 a

/-- A pointer to the immediate space. -/
def imm (a : Nat) : Word := 0x0100000000000000 + BitVec.ofNat 64 a

def nextOf (o : Out) (f : State → Bool) : Bool := match o with | .next t => f t | _ => false

/-! ### Single steps, with results worked out from the rules -/

theorem test_add_wraps : nextOf (exec (.add 1 2 3) (booted [0, 0, 0xFFFFFFFFFFFFFFFF, 2])) (fun t => t.me.xv 1 == 1) = true := by
  decide +kernel
theorem test_shift_keeps_the_sign :
    nextOf (exec (.shrS 1 2 3) (booted [0, 0, 0x8000000000000000, 4])) (fun t => t.me.xv 1 == 0xF800000000000000) = true := by
  decide +kernel
theorem test_division_by_zero : divideResult (booted [0, 0, 7, 0]) (.divS 1 2 3) = some (1, 0xFFFFFFFFFFFFFFFF) := by decide +kernel
theorem test_loop_counts_down :
    nextOf (exec (.loop 1 (-2)) (booted [0, 2])) (fun t => t.me.xv 1 == 1 && t.me.pc == 0xF0) = true := by decide +kernel
theorem test_store_is_little_endian :
    nextOf (exec (.st32 1 ⟨2, .bytes 4, false, 0⟩) (booted [0, 0x11223344, tlm 0x2000]))
      (fun t => (t.tile 0).byte 0x2004 == 0x44 && (t.tile 0).byte 0x2007 == 0x11 && (t.tile 0).byte 0x2008 == 0) = true := by
  decide +kernel
theorem test_trap_saves_the_next_bundle :
    nextOf (exec (.trap 7) (booted [])) (fun t =>
      t.me.epc == 0x108 && t.me.cause == 0x164 && t.me.tval == 7 && t.me.pc == 0 && t.me.sstat == 0x900 &&
        (t.tile 0).byte 0x430 == 0x64 && (t.tile 0).byte 0x421 == 0x01) = true := by decide +kernel
theorem test_eret_is_privileged :
    nextOf (exec .eret (booted [])) (fun t => t.me.cause == 0x160 && t.me.epc == 0x100) = true := by decide +kernel
theorem test_write_of_p0_is_lost : nextOf (exec (.cmpEq 0 1 2) (booted [0, 1, 2])) (fun t => t.me.pv 0) = true := by decide +kernel
theorem test_float_add : nextOf (exec (.fadd 1 2 3) (booted [0, 0, 0x3F800000, 0x3F800000])) (fun t => t.me.xv 1 == 0x40000000) = true := by
  decide +kernel
theorem test_slack_saturates :
    nextOf (exec (.slkset 1 (.reg 2)) (booted [0, 0, 5000])) (fun t => vget t.me.k 1 0 == 4095) = true := by decide +kernel

/-- 06 Table 6.1: a free context is 256 bytes, with SIG 0xFFFF, PRED 0x01, STATE 0 and every slack class at 4,095. -/
theorem test_context_bytes : (Strand.free.contextBytes 5).length = 256 ∧
    (Strand.free.contextBytes 5)[0x91]? = some 0xFF ∧ (Strand.free.contextBytes 5)[0x92]? = some 1 ∧
    (Strand.free.contextBytes 5)[0x93]? = some 0 ∧ (Strand.free.contextBytes 5)[0x98]? = some 5 ∧
    (Strand.free.contextBytes 5)[0xAB]? = some 0xFF ∧ (Strand.free.contextBytes 5)[0xAC]? = some 0 := by decide +kernel

/-- 13 Table 13.12: the header of a slot, for tile 0x123 and a superstep 7 that opens on restore. -/
theorem test_slot_header : (Tile.reset.slotHeader 0x123 7).length = 64 ∧
    (Tile.reset.slotHeader 0x123 7).take 18 = [1, 0, 0, 0, 0x23, 0x01, 0, 0, 7, 0, 0, 0, 0, 0, 0, 0, 1, 0] := by decide +kernel

/-! ### States and operands that meet the hypotheses of the statements -/

theorem test_meets_results : intResult (booted [0, 5, 6]) (.sub 0 1 2) = some (0, 0xFFFFFFFFFFFFFFFF) ∧
    predResult (booted [0, 5, 6]) (.cmpLtS 7 1 2) = some (7, true) ∧
    floatResult (booted [0, 0xBF800000]) (.fsgnAbs 2 1) = some (2, 0x3F800000) := by decide +kernel

theorem test_meets_DivideUnit : divideResult (booted [0, 7, 2]) (.remZ 3 1 2) = some (3, 1) ∧
    ((booted []).tile 0).eng.divq.length < 16 ∧
    16 ≤ ((eng (booted []) fun g => { g with divq := List.replicate 16 ⟨0, 1, 5, 40⟩ }).tile 0).eng.divq.length ∧
    (let s := { eng (booted []) fun g => { g with divq := [⟨15, 1, 5, 40⟩] } with cyc := 40 };
      (s.tile 0).eng.divq = [⟨15, 1, 5, 40⟩] ∧ 40 ≤ s.cyc) := by decide +kernel

theorem test_meets_PointerResults : pointerResult (booted [0, tlm 8, 16]) (.padd 3 1 2) = some (3, tlm 8, .inr (tlm 24)) ∧
    pointerResult (booted [0, tlm 8, 0xFFFFFFFFFFFFFFF7]) (.padd 3 1 2) = some (3, tlm 8, .inl 0x046) := by decide +kernel

/-- E4M3 with BLK 3: 32 elements a block; 33 elements are no whole number of blocks, and a pair with BLK = 0 has none. -/
theorem test_meets_ScaledPairsAdvance :
    let step (p q : Word) (n : Int) : (Nat ⊕ Word) × (Nat ⊕ Word) :=
      let s := booted [0, 0, p, q]
      (s.checked p (need 0x048 (n % (ptrFmt p).granElems == 0) (s.advanced p (n / (ptrFmt p).granElems * (ptrFmt p).granBytes))),
        s.checked q (need 0x048 (n % 2 ^ (ptrBlk p + 2) == 0) (s.advanced q (n / 2 ^ (ptrBlk p + 2)))))
    step 0x76FFF80000010000 (tlm 0x11000) 64 = (.inr 0x76FFF80000010040, .inr (tlm 0x11002)) ∧
      step 0x76FFF80000010000 (tlm 0x11000) 33 = (.inr 0x76FFF80000010021, .inl 0x048) ∧
      (step 0x76FFF8000007FFE0 (tlm 0x11000) 64).1 = .inl 0x046 ∧ ptrBlk 0x76FFF80000010000 ≠ 0 ∧ ptrBlk (tlm 8) = 0 := by decide +kernel

theorem test_meets_ControlTransfers : branch (booted [0, 0x208]) (.brl 1) = some (true, 0x208, some (15, 0x108)) ∧
    branch (booted [0, 0x20C]) (.br 1) = some (true, 0x20C, none) ∧ branch (booted [0, 1]) (.loop 1 4) = some (false, 0x120, some (1, 0)) :=
  ⟨rfl, rfl, rfl⟩

theorem test_meets_SleepersWake : ({ live [] with sleep := .yield 16 }).sleep = .yield 16 ∧ 16 ≤ ({ booted [] with cyc := 16 }).cyc ∧
    ((2#16) &&& ~~~({ live [] with sleep := .waitr 3 2 }).pend) ≠ 0 ∧
    (booted []).idleDue 0 0 = false ∧ (device { live [] with held := [⟨0x104, 0⟩] }).idleDue 0 0 = true := by decide +kernel

theorem test_meets_sets : let set (m : MemberSet) : State := (booted []).modCore 0 fun c => { c with sets := vset c.sets 0 m }
    let at' (m : MemberSet) : MemberSet := vget ((set m).tile 0).core.sets 0 ⟨0, 0⟩
    let rest (m : MemberSet) : MemberSet := ⟨(at' m).members &&& ~~~1#16, (at' m).arrived &&& ~~~1#16⟩
    (at' ⟨0, 0⟩).members &&& 1#16 = 0 ∧ (booted []).cur.probing = false ∧
    ((at' ⟨3, 2⟩).members &&& 1#16 ≠ 0 ∧ (at' ⟨3, 2⟩).arrived ||| 1#16 = (at' ⟨3, 2⟩).members ∧
      (rest ⟨3, 2⟩).members = (rest ⟨3, 2⟩).arrived ∧ (rest ⟨3, 2⟩).members ≠ 0) ∧
    ((at' ⟨3, 0⟩).members &&& 1#16 ≠ 0 ∧ (at' ⟨3, 0⟩).arrived ||| 1#16 ≠ (at' ⟨3, 0⟩).members ∧
      (rest ⟨3, 0⟩).members ≠ (rest ⟨3, 0⟩).arrived) ∧ (rest ⟨1, 0⟩).members = 0 := by decide +kernel

theorem test_meets_StrandsEnd : (booted []).cur.pend = 0 ∧ (booted []).cur.pendP = 0 ∧ ((booted []).tile 0).core.keeps.length ≤ 4 ∧
    (booted []).me.sleep = .awake ∧ { (booted []).cur with pend := 2 }.pend ≠ 0 := by decide +kernel

theorem test_meets_SignatureChecks : (booted []).me.sig = 0xFFFF ∧ (booted []).me.sig ≠ 0x1234 ∧
    State.reset.partOf State.reset.cur.tile = none ∧ (booted []).partOf 0 = some 5 ∧ (booted []).versioned 0 = true ∧
    bitOf (((booted []).modPart 5 fun p => { p with sspol := 6 }).part 5).sspol 1 = true := by decide +kernel

/-- A task record in TLM at 0x2000 (06 Table 6.3): PC 0x200 and FLAGS 0. -/
def withRecord : State := (booted [0, tlm 0x2000]).modTile 0 fun w => { w with tlm := memWrite [] 0x2000 (toBytes 8 0x200) }

theorem test_meets_SpawnPushes : let s := withRecord
    s.ownCause 0 s.priv (s.rx 1) 128 8 false = none ∧ badRange (s.tile 0).bad (ptrLoc (s.rx 1)) 128 = false ∧
      taskValid (taskOf (s.recordWord 0 (ptrLoc (s.rx 1)))) = true ∧ (booted []).ownCause 0 0 0x0080080000002000 128 8 false = some 0x04A := by
  decide +kernel

theorem test_meets_TasksStart : let task : Task := ⟨0x200, 0, [], [], []⟩
    let s := (booted []).modCore 0 fun c => { c with deque := [task] }
    (s.tile 0).core.deque = [task] ∧ (s.tile 0).core.freeSlots.head? = some 1 ∧ task.ready = true ∧ (s.tile 0).runs = true ∧
      (s.tile 0).arrived = false ∧ (s.tile 0).nextPop ≤ s.cyc := by decide +kernel

/-- A packet of some cargo on its way to a tile. -/
def cargo (s : State) (c : Cargo) (code job k : Nat) (stage : Stage) : Req :=
  { s.blankReq 0 0 (.cargo c code job 1 (.tile k)) with id := 90, stage := stage }

/-- A packet of another device that has come to tile 0. -/
def letterTo (s : State) (id code : Nat) (l : List Byte) : Req :=
  let hdr := packHeader 0 0 0 1 3 0 0 false 2 (l.length / 64 - 1) 0 true code 0 5
  { s.blankReq 0 0 (.transit hdr l) with id := id, sdev := 1, stage := .target }

theorem test_meets_StrandsMove : let s := booted [0, 1, 64]
    let m : Moving := ⟨4, 0, 1, { live [] with move := some ⟨3, 0, 1, 0⟩ }, 5⟩
    let u (l : List Req) : State := on { s with moving := [m], reqs := l } { Ev.zero with id := 4 }
    fieldOf (0xFFF : Word) 11 0 = 0xFFF ∧ s.inPartition 0 0 1 = true ∧ s.inPartition 0 0 64 = false ∧
      (u []).moving.find? (fun q => q.id == 4) = some m ∧ (u [cargo s .context 0x18 4 1 .target]).landed 4 = true ∧
      (u [cargo s .context 0x18 4 1 .wire]).landed 4 = false ∧ (s.tile 1).core.freeSlots.head? = some 0 := by decide +kernel

theorem test_meets_mailed_contexts : let ctx : Strand := { live [] with move := some ⟨3, 0, 0, 0⟩ }
    let s := (booted []).modTile 0 fun w => { w with coming := 1 }
    let u := on { s with reqs := [letterTo s 4 0x18 (ctx.contextBytes 0)] } { Ev.zero with id := 4, ctx := some ctx }
    u.moving = [] ∧ u.mailedContext = some (0, ctx) ∧ (u.tile 0).coming = 1 ∧ (u.tile 0).core.freeSlots.head? = some 1 := by decide +kernel

theorem test_meets_StealsAreAsked : let s := (booted []).setTile 0 Tile.reset
    let rests := s.modCore 0 fun c => { c with steal := ⟨1, 0, false, some 0⟩ }
    s.partOf 0 = some 5 ∧ (s.part 5).stealOff = false ∧ (s.tile 0).arrived = false ∧ (s.tile 0).idle = true ∧ (s.tile 0).runs = true ∧
      (s.tile 0).core.steal.asking = false ∧ (s.tile 0).core.steal.backoff = none ∧
      ((s.part 5).victims 0).head? = some (1, 0, 1) ∧ (rests.tile 0).core.steal.backoff = some 0 ∧ rests.gclk = 0 := by decide +kernel

theorem test_meets_StealsAreAnswered : let s := (booted []).setTile 0 Tile.reset
    let with' (q : StealPacket) (l : List Req) : State := on { s with steals := [q], reqs := l } { Ev.zero with id := 7 }
    let ask : StealPacket := ⟨7, 1, 0, none⟩
    let u := with' ask [cargo s .steal 0xF4 7 0 .target]
    let task : Task := ⟨0x200, 0, [], [], []⟩
    u.steals.find? (fun r => r.id == u.cur.ev.id && r.reply.isNone) = some ask ∧ u.landed 7 = true ∧ u.partOf 0 = some 5 ∧
      u.discards 5 (.tile 0) = false ∧ (with' ask [cargo s .steal 0xF4 7 0 .wire]).landed 7 = false ∧
      (u.modPart 5 fun p => { p with bar := { p.bar with commit := some false, applied := [.tile 0] } }).discards 5 (.tile 0) = true ∧
      (with' ⟨7, 0, 1, some none⟩ []).steals.find? (fun r => r.id == 7 && s.landed r.id) = some ⟨7, 0, 1, some none⟩ ∧
      (with' ⟨7, 0, 1, some (some task)⟩ []).steals.find? (fun r => r.id == 7 && s.landed r.id) = some ⟨7, 0, 1, some (some task)⟩ ∧
      (s.tile 0).core.deque.length < 64 ∧
      64 ≤ ((s.modCore 0 fun c => { c with deque := List.replicate 64 task }).tile 0).core.deque.length := by decide +kernel

theorem test_meets_BankPower : let s := (booted []).modTile 0 fun w => { w with touched := [(31, 0)] }
    let late := { s with cyc := 4096 }
    assoc (late.tile 0).touched 31 = some 0 ∧ (late.tile 0).retained.getLsbD 31 = false ∧ 0 + 4096 ≤ late.cyc ∧
      late.bankAddressed 0 31 = false ∧ (∀ n, n < 16 → (late.strand 0 n).banks.getLsbD 31 = false) ∧ (late.tile 0).core.keeps = [] ∧
      (eng late fun g => { g with ownLoads := [⟨9, 0, [], 31, 4⟩] }).bankAddressed 0 31 = true ∧
      (let u := { booted [] with cyc := 64 }.modTile 0 fun w => { w with retained := 2, touched := [(1, 0)] };
        (u.tile 0).retained.getLsbD 1 = true ∧ assoc (u.tile 0).touched 1 = some 0 ∧ 0 + 64 ≤ u.cyc) := by decide +kernel

theorem test_meets_FencesWait : (booted []).released .device = true ∧ (booted []).acquired = true ∧ (booted []).reported = true ∧
    (booted []).xinvOpen = false ∧ ({ booted [] with xinvs := [⟨0, 0, 0, 5, 0, 1, 0⟩] }).xinvOpen = true ∧
    ({ booted [] with reqs := [{ (booted []).blankReq 0 0 (.store [1]) with posted := true }] }).reported = false := by decide +kernel

/-- An access of 8 bytes at the pointer of x1. -/
def access (pi : Bool) : Access := ⟨0x26, 2, 8, true, ⟨1, .bytes 0, false, 0⟩, pi⟩

theorem test_meets_accesses :
    loadOf (booted [0, tlm 0x2000]) (.ld64 2 ⟨1, .bytes 0, false, 0⟩) = some (access false, .zero, [.x 2]) ∧
    storeOf (booted [0, tlm 0x2000, 1]) (.st64 2 ⟨1, .bytes 0, false, 0⟩) =
      some (⟨0x2A, 2, 8, true, ⟨1, .bytes 0, false, 0⟩, false⟩, [1, 0, 0, 0, 0, 0, 0, 0], false) := ⟨rfl, rfl⟩

theorem test_meets_AccessChecks : (booted [0, tlm 0x2001]).refusal (access false) false = some (0x080, tlm 0x2001) ∧
    (booted [0, tlm 0x10]).refusal (access false) true = some (0x064, tlm 0x10) := by decide +kernel

theorem test_meets_own_accesses : let s := booted [0, tlm 0x7FFF8]
    s.refusal (access true) false = none ∧ s.refusal (access true) true = none ∧ ownTlm 0 (s.reach (access true)) = true ∧
      badRange (s.tile 0).bad 0x7FFF8 8 = false ∧ partlyBad (s.tile 0).bad 0x7FFF8 8 = false ∧ Memory.wf (s.tile 0).tlm = true ∧
      (s.tile 0).undo.length + ((s.tile 0).newGranules (s.scratchFrom 0) 0x7FFF8 8).length ≤ 2048 ∧ s.released .device = true ∧
      s.ownOrder 0x7FFF8 8 = false ∧
      { s with reqs := [{ s.blankReq 0 0 (.amo .add 1) with loc := 0x7FFF8, size := 8, stage := .target }] }.ownOrder 0x7FFF8 8 = true := by
  decide +kernel

theorem test_meets_OwnLoadsReturn : let s := eng { booted [] with cyc := 4 } fun g => { g with ownLoads := [⟨9, 0, [(.x 3, 7)], 0, 4⟩] }
    ((s.tile 0).eng.ownLoads.find? fun q => q.id == 9).isSome = true ∧ 4 ≤ s.cyc ∧ (s.tile 0).retained.getLsbD 0 = false := by decide +kernel

theorem test_meets_remote_accesses : let s := booted [0, imm 0x10000]
    s.refusal (access false) false = none ∧ s.refusal (access false) true = none ∧ ownTlm 0 (s.reach (access false)) = false ∧
      s.roomFor { s.blankReq 0 0 (.load .zero) with space := 2, loc := 0x10000 } = true := by decide +kernel

theorem test_meets_UndoKeepsOldContents : 64 * 1 < 0x80 ∧ 0x7F / 64 ≤ 1 ∧ 1 ≤ (0x7F + [(1 : Byte), 2].length - 1) / 64 := by decide

theorem test_meets_PrefetchesChangeNoData : let s := booted [0, tlm 0x2000, imm 0x2000]
    let m : MemOp := ⟨1, .bytes 0, false, 0⟩
    s.dispOf m 64 = 0 ∧ s.pointerCause (tlm 0x2000) = none ∧ locOk (s.rx 1) 0 = true ∧ ptrLoc (ptrAdd (s.rx 1) 0) % 64 = 0 ∧
      s.permitCause 0 s.priv (tlm 0x2000) 64 false = none ∧ s.permitCause 0 s.priv (imm 0x2000) 64 false = none ∧
      s.pointerCause (imm 0x2000) = none ∧ s.toTarget 0 0 < 1024 ∧ ownTlm 0 (ptrAdd (tlm 0x2000) 0) = true ∧
      ownTlm 0 (ptrAdd (imm 0x2000) 0) = false ∧ s.pointerCause 0xF000000000000000 = some 0x041 ∧
      locOk (tlm 0x2000) (-0x2001) = false ∧ ptrLoc (ptrAdd (tlm 0x2000) 8) % 64 ≠ 0 ∧
      s.strandOutstanding 0 0 < 64 ∧ s.outstanding 0 < 256 := by decide +kernel

theorem test_meets_AtomicsAsk : atomicOf (booted [0, imm 8, 1]) (.amoAdd 3 1 2 0) = some (.amo .add 1, imm 8, 8, 0, [.x 3]) ∧
    (booted []).atomicCause 0 0 (imm 8) 8 true [1, 2] = none ∧ (booted []).atomicCause 0 0 (imm 4) 8 true [1, 2] = some 0x080 :=
  ⟨rfl, rfl, rfl⟩

theorem test_meets_WaitsAsk : waitOf (booted [0, imm 8, 1]) (.waitvEq 3 1 2 0) = some (.waitv .eq 1, imm 8, 8, 0, 3) ∧
    (booted []).atomicCause 0 0 (imm 8) 8 false [2] = none ∧ (booted []).me.resv = [] := ⟨rfl, rfl, rfl⟩

theorem test_meets_ReservationsAreUsed : releaseOf (booted [0, imm 8, 1]) (.sch64 3 1 2 0) = some (.sch 1, 3, imm 8, 8, 0) ∧
    (booted []).atomicCause 0 0 (imm 8) 8 true [2] = none ∧ ptrLoc (imm 8) / 8 = 1 ∧
    (device { live [] with resv := [⟨1, 8, true⟩] }).me.resv = [⟨1, 8, true⟩] ∧ (booted []).released .device = true := ⟨rfl, rfl, rfl, rfl, rfl⟩

/-- A request of slot 0 of tile 0 to location 0x2000 of a space. -/
def ask (op : ReqOp) (space : Nat) (stage : Stage) : Req :=
  { (booted []).blankReq 0 0 op with
    space := space, loc := 0x2000, size := 8, stage := stage
    place := match stage with
      | .xlate | .target | .waiting | .forward => if space = 1 then .tile 0 else .station 0
      | _ => .tile 0 }

/-- The device with one request, of number 0, which the event names. -/
def asked (r : Req) : State := { booted [] with reqs := [r], nextReq := 1 }

theorem test_meets_PortsGrant : let r := ask (.load .zero) 0 .port
    let s := asked r
    let p := { ask (.load .zero) 1 .wire with dev := 1, place := .port 0x20, came := .router 0 }
    s.req 0 = some r ∧ r.moving = false ∧ r.stage = .port ∧ s.portServes r = .free ∧ s.goal r = some (.station 0) ∧ r.place = .tile 0 ∧
      (s.nextHop r).map (·.1) = some (.router 0) ∧ (s.granted r.onSteal r.place (.router 0)).map (·.id) = some r.id ∧
      (let u := { s with reqs := [{ r with id := 1 }, r] };
        u.req 0 = some r ∧ (u.nextHop r).map (·.1) = some (.router 0) ∧ (u.granted r.onSteal r.place (.router 0)).map (·.id) = some 1) ∧
      p.place.isPort = true ∧ (asked p).portServes p = .free ∧
      (let q := ask (.load .zero) 2 .port; let w := { ask (.store [1, 2, 3, 4, 5, 6, 7, 8]) 2 .wire with id := 0 };
        let u := { asked { q with id := 1 } with reqs := [w, { q with id := 1 }] };
        u.portServes { q with id := 1 } = .all [1, 2, 3, 4, 5, 6, 7, 8]) := by decide +kernel

theorem test_meets_PortsGrant_outside : let p := { ask (.load .zero) 1 .wire with dev := 1, place := .port 0x10, came := .router 0 }
    let s := asked p
    s.goal p = some (.port 0x10) ∧ (s.nextHop p).map (·.1) = some .outside ∧
      (s.granted p.onSteal p.place .outside).map (·.id) = some p.id ∧ s.keeps p = true := by decide +kernel

theorem test_meets_PacketsArrive : let r := { ask (.load .zero) 0 .wire with moving := true, place := .router 0 }
    let f := { ask (.load .zero) 0 .forward with moving := true, place := .router 0, pa := some 0x2000 }
    (asked r).req 0 = some r ∧ (asked r).overtakes r = false ∧ (asked r).admits r r.place = true ∧ (asked r).goal r = some (.station 0) ∧
      (asked { r with place := .station 0 }).goal { r with place := .station 0 } = some (.station 0) ∧
      (asked { r with place := .station 0 }).admits { r with place := .station 0 } (.station 0) = true ∧
      (let q := { r with space := 1, place := .tile 0 }; (asked q).goal q = some (.tile 0) ∧ (asked q).admits q q.place = true) ∧
      (let q := { r with space := 1, ttile := 1, place := .router 5 }; (asked q).req 0 = some q ∧ (asked q).admits q q.place = false) ∧
      (asked f).goal f = some (.station 0) ∧
      (let q := { f with place := .station 0 }; (asked q).req 0 = some q ∧ (asked q).goal q = some q.place) ∧
      (let u := { asked r with reqs := [{ r with id := 1 }, r] }; u.req 0 = some r ∧ u.overtakes r = true) := by decide +kernel

/-- A tile without a partition runs in context 0, where addresses are one to one; an empty table faults; one outside memory stops. -/
theorem test_meets_TranslationsWalk : let r := ask (.load .zero) 0 .xlate
    let s := asked r
    let n := { r with part := 0xFFFF, tile := 5 }
    let far := s.modPart 5 fun p => { p with troot := 0x1800000000 }
    let w : Window := ⟨(Point.station 0).code, 0, 0, some 64, r.seq, .none, some 0x2000⟩
    s.req 0 = some r ∧ r.stage = .xlate ∧ (s.nextWalk r.place).map (·.id) = some r.id ∧ r.immediateLoad = false ∧ s.windowEntry r = none ∧
      s.discards r.part r.node = false ∧ s.translateReq r [] = .fault 0x060 ∧
      (asked n).translateReq n [] = .at 0x2000 ∧ ((asked n).nextWalk n.place).map (·.id) = some n.id ∧
      (far.req 0 = some r ∧ (far.nextWalk r.place).map (·.id) = some r.id ∧ far.translateReq r [] = .missing 0x1800000000) ∧
      ({ s with windows := [w] }.windowEntry r = some w) ∧
      (s.modPart 5 fun p => { p with bar := { p.bar with commit := some false, applied := [r.node] } }).discards r.part r.node = true ∧
      (let q := ask .pref 0 .xlate; (asked q).req 0 = some q ∧ ((asked q).nextWalk q.place).map (·.id) = some q.id ∧ (asked q).windowEntry q = none) ∧
      (let q := ask (.mapt 5 0 1 0) 0 .xlate; (asked q).req 0 = some q ∧ ((asked q).nextWalk q.place).map (·.id) = some q.id ∧
        (asked q).windowEntry q = none) := by decide +kernel

theorem test_meets_TargetsServe : let r := ask (.load .zero) 1 .target
    let s := asked r
    let a := ask (.amo .add 1) 1 .target
    let drop (s : State) : State := s.modPart 5 fun p => { p with bar := { p.bar with commit := some false, applied := [.tile 0] } }
    s.req 0 = some r ∧ r.op.isMemory = true ∧ (s.nextService r.place).map (·.id) = some r.id ∧ s.discards r.part r.node = false ∧
      s.belowScratch r = false ∧ (s.tile 0).asleep r.loc r.size = false ∧ s.windowEntry r = none ∧ r.half = [] ∧ s.missing = none ∧
      (s.perform r).2 = some (.data [0, 0, 0, 0, 0, 0, 0, 0]) ∧ (s.perform r).1.missing = none ∧
      (asked a).belowScratch a = true ∧ ((asked a).nextService a.place).map (·.id) = some a.id ∧
      ((s.modTile 0 fun w => { w with retained := 1 }).tile 0).asleep r.loc r.size = true ∧
      ((drop s).discards r.part r.node && r.op.isUndone) = true ∧ (((drop s).nextService r.place).map (·.id) = some r.id) ∧
      (let q := ask (.store [1]) 1 .target; let w : Window := ⟨0, 0, 0, none, 0, .none, none⟩;
        { asked q with windows := [w] }.windowEntry q = some w) ∧
      (let q := { ask (.waitv .eq 1) 2 .target with pa := some 0x2000 }; (asked q).req 0 = some q ∧
        ((asked q).nextService q.place).map (·.id) = some q.id ∧ ((asked q).perform q).2 = none) := by decide +kernel

/-- A MAPT whose table lies at an address without memory. -/
theorem test_meets_TargetsServe_missing : let r := ask (.mapt 5 0 1 0) 0 .target
    let s := (asked r).modPart 5 fun p => { p with troot := 0x1800000000 }
    s.req 0 = some r ∧ (s.nextService r.place).map (·.id) = some r.id ∧ s.discards r.part r.node = false ∧ s.belowScratch r = false ∧
      r.inTile = false ∧ s.windowEntry r = none ∧ r.half = [] ∧ (s.perform r).2 = some .none ∧ (s.perform r).1.missing = some 0x1800000000 := by
  decide +kernel

theorem test_meets_AtomicsPerform : let r := ask (.amo .add 1) 1 .target
    let s := eng (asked r) fun g => { g with scrbase := 0x2000 }
    r.pa = none ∧ r.ttile = r.tile ∧ r.sdev = s.devId ∧ r.size = 8 ∧ 0x1000 ≤ r.loc ∧ s.scratchFrom 0 ≤ r.loc ∧ (s.tile 0).lost = false ∧
      s.tenantOk (r.party s) 0 = true ∧ assoc (s.tile 0).deltas (r.party s).rank = none ∧ (s.tile 0).bad = [] ∧ (s.tile 0).undoBad = [] ∧
      Memory.wf (s.tile 0).tlm = true ∧ (s.tile 0).undo.length ≤ 2048 ∧ s.scratchFrom 0 % 64 = 0 ∧
      ofBytes ((s.tile 0).bytes r.loc 8) = 0 := by decide +kernel

theorem test_meets_RepliesLand : let r := { ask (.load .zero) 0 .reply with reply := .data [7, 0, 0, 0, 0, 0, 0, 0], dests := [.x 3] }
    (asked r).req 0 = some r ∧ r.stage = .reply ∧ r.sv = true ∧ r.sdev = (asked r).devId ∧ (asked r).goal r = some r.place ∧
      (r.moving = false ∨ (asked r).overtakes r = false) ∧ r.due ≤ (asked r).cyc ∧ r.cell = none ∧ r.op.isOwn = false ∧
      (asked r).discards r.part (.tile r.tile) = false ∧ loadValues .zero [7, 0, 0, 0, 0, 0, 0, 0] = [7] ∧
      (let q := { ask (.sch 3) 2 .reply with reply := .value 1, dests := [.p 2] }; (asked q).req 0 = some q ∧ (asked q).goal q = some q.place) ∧
      (let q := { ask (.store [1]) 0 .reply with reply := .none, xh := true }; (asked q).req 0 = some q ∧ (asked q).goal q = some q.place) := by
  decide +kernel

theorem test_meets_FaultsReturn : let r := { ask (.load .zero) 0 .reply with reply := .fault 0x061, dests := [.x 3] }
    let ends (q : Req) : Prop := (asked q).req 0 = some q ∧ q.sv = true ∧ q.cell = none ∧ q.op.isOwn = false ∧
      (asked q).discards q.part (.tile q.tile) = false
    (ends r ∧ r.sdev = (asked r).devId ∧ (asked r).goal r = some r.place ∧ r.moving = false ∧ r.due ≤ (asked r).cyc ∧
      r.blocking = false ∧ r.dests ≠ []) ∧ ends { r with blocking := true } ∧ ends { r with reply := .fault 0x142 } ∧
      ends { r with reply := .reject } ∧ ends { r with stage := .outside, place := .outside } ∧
      (on (asked r) { Ev.zero with ok := true }).cur.ev.ok = true := by decide +kernel

theorem test_meets_ReservationsTurn : let r := { ask .lrw 2 .waiting with pa := some 0x2000 }
    (asked r).req 0 = some r ∧ (asked r).holderOf 0x400 = none ∧ (asked r).targetRead r = .data [0, 0, 0, 0, 0, 0, 0, 0] ∧
      (asked r).discards r.part r.node = false ∧ (asked r).mustHold r = false ∧
      ((asked r).reqs.find? fun q => q.awaits 0x400).map (·.id) = some r.id ∧
      (let s := { on (asked r) { Ev.zero with a := 0x400 } with holders := [⟨0x400, 0, 0, 0⟩], gclk := 4096 };
        s.holderOf s.cur.ev.a = some ⟨0x400, 0, 0, 0⟩ ∧ 0 + 4096 ≤ s.gclk) := by decide +kernel

theorem test_meets_MonitorsTake : let r := { ask (.waitv .eq 0) 2 .target with pa := some 0x2000 }
    let s := asked r
    s.req 0 = some r ∧ (s.nextService r.place).map (·.id) = some r.id ∧ s.belowScratch r = false ∧ s.discards r.part r.node = false ∧
      r.inTile = false ∧ s.windowEntry r = none ∧ r.half = [] ∧ s.missing = none ∧
      s.targetRead r = .data [0, 0, 0, 0, 0, 0, 0, 0] ∧ WaitCond.eq.holds 8 0 0 = true ∧ WaitCond.eq.holds 8 0 1 = false := by decide +kernel

/-- Every die link is down, and the target is on another die. -/
theorem test_meets_PathsLost : let r := { ask (.load .zero) 1 .port with ttile := 1024 }
    let down (r : Req) : State := { asked r with links := (List.range 4).map fun n => (n, { Link.reset with stat := 0 }) }
    let s := down r
    (let q := { r with stage := .cut }; (asked q).req 0 = some q) ∧ (let q := { r with stage := .outside, place := .outside }; (asked q).req 0 = some q) ∧
      (let q := { r with stage := .reply, reply := .pathLost }; (asked q).req 0 = some q ∧ (asked q).goal q = some q.place ∧ q.moving = false) ∧
      s.req 0 = some r ∧ r.sdev = s.devId ∧ r.moving = false ∧ s.portServes r = .free ∧ s.goal r = some (.tile 1024) ∧ s.nextHop r = none ∧
      r.waits = false ∧ s.discards r.part (.tile r.tile) = false ∧ s.versioned 0 = true ∧ s.isLate 0 = false ∧
      (s.modPart 5 fun p => { p with bar := { p.bar with commit := some false, applied := [.tile 0] } }).discards r.part (.tile r.tile) = true ∧
      (let q := { r with op := .cargo .barrier 0xF3 4 1 (.tile 1024) }; (down q).req 0 = some q ∧ (down q).nextHop q = none ∧ q.waits = true) := by
  decide +kernel

/-- A request of tile 0 at home station 0, for an address there. -/
def atHome (op : ReqOp) (space : Nat) : Req := { ask op space .target with pa := some 0x2000 }

theorem test_meets_HomesPerform : let r := atHome (.load .zero) 0
    let s := asked r
    r.pa = some 0x2000 ∧ (r.party s).part = some 5 ∧ s.hbmBad = [] ∧ Memory.wf s.hbm = true ∧
      s.versionsUsed 0 + 1 ≤ 131072 ∧ s.journalUsed 0 < 16384 ∧ s.redsUsed 0 < 16384 ∧ (atHome (.sch 1) 2).space = 2 ∧
      s.holds (atHome (.sch 1) 2) 0x2000 = false ∧
      { s with holders := [⟨0x400, 0, 0, 0⟩] }.holds (atHome (.sch 1) 2) 0x2000 = true ∧
      (let u := s.modPart 5 fun p => { p with reds := [⟨0x2000, .addS64, [1]⟩] };
        (∃ e ∈ (u.part 5).reds, e.pa = 0x2000 ∧ e.op = .addS64) ∧ (∀ e ∈ (u.part 5).reds, ¬(e.pa = 0x2000 ∧ e.op = .minS64)) ∧
        (∃ e ∈ (u.part 5).reds, overlaps e.pa e.op.size 0x2000 8 = true)) := by decide +kernel

theorem test_meets_OtherTilesPerform : let r := { ask (.load .zero) 1 .target with ttile := 1 }
    let s := asked r
    r.pa = none ∧ r.ttile ≠ r.tile ∧ (r.party s).part = some 5 ∧ (s.tile 1).lost = false ∧ s.tenantOk (r.party s) 1 = true ∧
      (s.tile 1).bad = [] ∧ (s.tile 1).undoBad = [] ∧ Memory.wf (s.tile 1).tlm = true ∧ r.loc + 8 ≤ s.scratchFrom 1 ∧
      (s.tile 1).deltaCount ≤ 512 ∧ (eng s fun g => { g with scrbase := 0x2000 }).scratchFrom 1 % 64 = 0 ∧
      ((s.modTile 1 fun w => { w with lost := true }).tile 1).lost = true ∧
      ((s.modEng 1 fun g => { g with scrbase := 0x2000 }).scratchFrom 1 ≤ r.loc) ∧
      (let q := { r with ttile := 5 }; s.tenantOk (q.party s) 5 = false) := by decide +kernel

/-- The shadow words of a copy of 64 raw bytes from TLM 0x2000 to TLM 0x4000 (10 Table 10.1). -/
def shadow : Vector Word 8 := vset (vset (vset (Vector.replicate 8 0) 0 (tlm 0x2000)) 2 (tlm 0x4000)) 4 0x0001000100000040

def copying : State := device { live [0, 0, 1] with copy := shadow }

theorem test_meets_TransfersAreQueued : (copying.tile 0).eng.commandRoom = true ∧ copying.cpgoCause shadow shadow = none ∧
    (copying.cpgoCause (ownScale shadow) shadow <|> copying.multicastCause 0 shadow 0) = none ∧ copyTotal shadow = 64 ∧ copySizeBad shadow = false ∧
    copyExtentBad copying.priv shadow = false ∧ copying.cpgoCause (vset shadow 5 0xC) (vset shadow 5 0xC) = some (0x0C0, 0xC) ∧ copyTotal (vset shadow 4 0) = 0 ∧
    ((eng copying fun g => { g with xfers := List.replicate 24 ⟨3, 1, .cpgo, 0, some 4, shadow, 0, 0, 100, 0, 0, 0, 64, 0, [], none, false⟩ }).tile
      0).eng.commandRoom = false := by decide +kernel

/-- A transfer of the 64 bytes that has not started. -/
def transfer : Xfer := ⟨3, 1, .cpgo, 0, some 4, shadow, 0, 0, 100, 0, 0, 0, 64, 0, [], none, false⟩

def withTransfer (x : Xfer) : State := on (eng copying fun g => g.enqueue x) { Ev.zero with id := 3 }

theorem test_meets_TransfersAreManaged : let g (n : Nat) := ((withTransfer { transfer with started := n }).tile 0).eng
    (copying.tile 0).eng.byId 1 = none ∧ (g 64).byId 1 = some { transfer with started := 64 } ∧ transfer.slot < 16 ∧
      (g 32).byId 1 = some { transfer with started := 32 } ∧ (g 0).byId 1 = some transfer ∧
      (copying.rx 0).toNat = 0 ∧ (copying.tile 0).eng.pages.length < 256 ∧ (g 32).xfers.find? (fun x => x.id == 1) = some { transfer with started := 32 } ∧
      transfer.cls < 256 ∧ { transfer with started := 32 }.done < 2 ^ 32 ∧ (copying.tile 0).eng.xfers = [] := by decide +kernel

theorem test_meets_PageEntriesAreAdded : copying.pointerCause (imm 0x10000) = none ∧ ptrSpace (imm 0x10000) ≠ 1 ∧ ptrBlk (imm 0x10000) = 0 ∧
    (let e : Word := 0x4002000; fieldOf e 39 20 = 64 ∧ fieldOf e 18 0 = 0x2000 ∧ fieldOf e 63 42 = 0 ∧ fieldOf e 19 19 = 0) ∧
    tlmMay 0 true 0x2000 64 = true ∧ (copying.pointerCause 0xF000000000000000).isSome = true ∧ copying.pointerCause (tlm 0x2000) = none ∧
    (let w : Word := 0x7600000000010000; copying.pointerCause w = none ∧ ptrSpace w ≠ 1 ∧ ptrBlk w ≠ 0) := by decide +kernel

theorem test_meets_TransfersProceed : let s := withTransfer transfer
    let c : Chunk := ⟨0, 0, 64, 100⟩
    let a := transfer.actor 0 c (s.staleFor false)
    let page : PageFetch := ⟨0, imm 0x10000, 0x2000, 64, 0, 0, 0, 0, false, false, false⟩
    let flown : Xfer := { transfer with started := 64, flight := [c] }
    let far : Xfer := { flown with words := vset shadow 0 (imm 0x10000) }
    (s.tile 0).engRuns = true ∧ (s.tile 0).eng.chunkAt ≤ s.cyc ∧ ((s.tile 0).eng.xfers.map fun y => y.flight.length).sum < 32 ∧
      ((nextChunk 9 (s.tile 0).eng).map (·.1)) = some transfer ∧ s.copyOrdered 0 transfer = true ∧
      (s.tile 0).keepCopy = false ∧ s.withheld = false ∧ transfer.nextSize = 64 ∧ s.jobHeld 0 (some (1, 3)) s.nextReq = false ∧
      ((withTransfer flown).tile 0).eng.xfer 3 = some flown ∧ flown.flight.find? (fun c => c.no == 0) = some c ∧
      (let r := (withTransfer flown).begin.copyRun 65 a flown 0 64 none;
        r.1.missing = none ∧ (r.1.stalled || (withTransfer flown).jobOpen a) = false) ∧
      (let r := (withTransfer far).begin.copyRun 65 a far 0 64 none; r.1.missing = none ∧ r.1.stalled = true) ∧
      (s.tile 0).eng.fetchRoom = true ∧
      (let x : Xfer := { transfer with started := 64 }; ((withTransfer x).tile 0).eng.xfer 3 = some x ∧ x.started = x.total) ∧
      copyExtentBad 0 (rawWords (imm 0x10000) 0x2000 64 0) = false ∧ s.pointerCause (imm 0x10000) = none ∧
      (let task : Task := ⟨0x200, 1, [], [(imm 0x10000, 0x4002000)], [⟨false, 0, none⟩]⟩;
        let c := { TileCore.reset with deque := [task] };
        c.nextInput = some (0, 0) ∧ c.deque[0]? = some task ∧ task.ins[0]? = some (imm 0x10000, 0x4002000)) ∧
      ([page].find? fun p => !p.started) = some page ∧ (s.tile 0).core.nextInput = none := by decide +kernel

theorem test_meets_PiecesAreCopied : transfer.why = .cpgo ∧ copyTse shadow = 0 ∧ ptrBlk (transfer.word 0) = 0 ∧
    ownTlm 0 (transfer.word 0) = true ∧ ownTlm 0 (transfer.word 2) = true ∧
    (ptrLoc (transfer.word 0) : Int) + copyOffset shadow 0 32 = 0x2020 ∧
    (ptrLoc (transfer.word 2) : Int) + copyOffset shadow 2 32 = 0x4020 ∧ (copying.tile 0).bad = [] ∧ Memory.wf (copying.tile 0).tlm = true ∧
    (copying.tile 0).asleep 0x2020 32 = false ∧ (copying.tile 0).asleep 0x4020 32 = false ∧ copying.reqs = [] ∧
    (copying.tile 0).undo.length + ((copying.tile 0).newGranules (copying.scratchFrom 0) 0x4020 32).length ≤ 2048 := by decide +kernel

/-- A pointer to E4M3 data of this tile. -/
def e4m3 (a : Nat) : Word := 0x70FFF80000000000 + BitVec.ofNat 64 a

/-- M 1, N 32, K 32, ASTR and BSTR 32 (11 Table 11.2). -/
def descriptor : Word := 0x0002000200000000

def multiplying : State := booted [0, 0, e4m3 0x2000, 0, e4m3 0x3000, 0, descriptor]

theorem test_meets_MatrixCommandsQueue :
    (matrixOf multiplying (.mmaE4m3 1 1 2 6 true)).map (·.1) = some none ∧
      (matrixOf multiplying (.mmaE5m2 1 1 2 6 true)).map (·.1) = some (some (0x045, e4m3 0x2000)) ∧
      (multiplying.tile 0).eng.mq.length < 16 := by decide +kernel

theorem test_meets_VectorCommandsQueue : let s := booted [0, 4, 0x3000000000000000 + tlm 0x2000, 0, 0x3000000000000000 + tlm 0x3000]
    (vectorOf s (.vneg 1 2 2)).isSome = true ∧ (vectorOf s (.vneg 1 2 2)).map (fun v => v.fails s) = some none ∧ vecN (s.rx 1) = 4 ∧
      (vectorOf s (.vneg 0 2 2)).map (fun v => (v.fails s, vecN (s.rx v.rd))) = some (none, 0) ∧
      (vectorOf s (.vneg 2 1 2)).map (fun v => (v.fails s).isSome) = some true := by decide +kernel

/-- A pointer to integers of 32 bits of this tile's TLM. -/
def s32' (a : Nat) : Word := 0x3000000000000000 + tlm a

def queued (i : Instr) (a b c : Word) : Cmd :=
  ⟨1, i, 0, 1, a, 0, b, 0, c, 0, 4, 0, 100, 0, 0, 0, false, none⟩

theorem test_meets_MatrixCommandsEnd : let c := queued (.mmaE4m3 1 1 2 6 true) (e4m3 0x2000) (e4m3 0x3000) (descriptor ||| 0x7F000000)
    let s := eng multiplying fun g => { g with mq := [c] }
    (s.tile 0).engRuns = true ∧ s.withheld = false ∧ s.earlierDone 0 0 0 0 c.matrixSpaces = true ∧ (s.tile 0).keepCopy = false ∧
      (s.tile 0).matrixCheck c = some 1 ∧ (s.tile 0).engGoesOn = true ∧
      (let m := queued (.mmaE4m3 1 1 2 6 true) (e4m3 0x2000) (e4m3 0x3000) descriptor;
        s.earlierDone 0 0 0 0 m.matrixSpaces = true ∧ (s.tile 0).matrixCheck m = none ∧ m.matrixKind ≠ .rotate) ∧
      (let r := queued (.rotb 1 0) 0 0 0; s.earlierDone 0 0 0 0 r.matrixSpaces = true ∧ (s.tile 0).matrixCheck r = none ∧ r.matrixKind = .rotate) ∧
      (s.tile (ringNext 0 (ringWidth (s.tile 0).eng.mcfg))).eng.back = none ∧ s.panelOnWay (ringNext 0 (ringWidth (s.tile 0).eng.mcfg)) = false := by
  decide +kernel

/-- MST of one cell to space 10: its step lacks its packet. -/
theorem test_meets_MatrixCommandsEnd_waiting : let c := { queued (.mst 9 1 2 1 false) (0x3100000000010000) 0 0x0000000000000000 with started := true }
    let s := eng multiplying fun g => { g with mq := [c] }
    c.status = none ∧ (s.tile 0).asleepAny (c.matrixRanges 0) = false ∧
      (match s.begin.runMatrix 0 (s.staleFor false) c with
        | some (u, e) => !e.bad && u.missing.isNone && (u.stalled || s.jobOpen (c.actor 2 0 []))
        | none => false) = true := by decide +kernel

theorem test_meets_PanelsArrive : let r := ask (.panel true 7 0 32 32 1 [] [] []) 1 .target
    (asked r).req 0 = some r ∧ r.stage = .target ∧ (asked r).landed r.id = true ∧ r.xh = false ∧ ((asked r).cargoSlack r.id).2 = false ∧
      ((asked r).tile r.ttile).eng.back = none ∧ (asked r).discards r.part (.tile r.ttile) = false ∧
      ((asked r).modPart 5 fun p => { p with bar := { p.bar with commit := some false, applied := [.tile 0] } }).discards 5 (.tile 0) = true ∧
      (((booted []).modTile 0 fun w => { w with keepCopy := true }).tile 0).keepCopy = true := by decide +kernel

theorem test_meets_VectorCommandsStart : let s32 (a : Nat) : Word := 0x3000000000000000 + tlm a
    let c := { queued (.vneg 1 2 2) (s32 0x2000) (s32 0x3000) 0 with rd := 1 }
    let s := eng (booted []) fun g => { g with vcq := [c] }
    let bad := queued (.vneg 1 2 2) (s32 0x7FFF8) 0 0
    let far := { c with b := 0x3100000000010000 }
    let run (c : Cmd) : State × Bool := let u := eng (booted []) fun g => { g with vcq := [c] };
      let r := u.begin.vecRun (c.actor 3 0 (u.staleFor false)) c; (r.1, r.1.stalled || u.jobOpen (c.actor 3 0 []))
    (s.tile 0).engRuns = true ∧ s.withheld = false ∧ s.earlierDone 0 0 0 0 c.vecSpaces = true ∧ c.vecCheck = none ∧
      (s.tile 0).asleepAny (c.vecOwn 0) = false ∧ ((run c).1.missing = none ∧ (run c).2 = false) ∧ ((run far).1.missing = none ∧ (run far).2 = true) ∧
      ((s.modTile 0 fun w => { w with retained := 1 }).tile 0).asleepAny (c.vecOwn 0) = true ∧
      s.earlierDone 0 0 0 0 bad.vecSpaces = true ∧ bad.vecCheck = some 2 ∧ (s.tile 0).engGoesOn = true := by decide +kernel

theorem test_meets_MultipliesAccumulate :
    let c := { queued (.mmaE4m3 1 1 2 6 true) (e4m3 0x2000) (e4m3 0x3000) descriptor with started := true }
    let p : Panel := ⟨7, 0, 32, 32, List.replicate 1024 0, [], []⟩
    let m := { queued (.mmalE4m3 1 1 6 true) (e4m3 0x2000) 0 descriptor with started := true }
    let s := eng multiplying fun g => { g with mq := [c], front := some p }
    let w := s.tile 0
    w.eng.mq = [c] ∧ c.matrixKind = .mma .e4m3 true ∧ w.engGoesOn = true ∧ s.jobOpen (c.actor 2 0 []) = false ∧ c.status = none ∧
      w.asleepAny (c.matrixRanges 0) = false ∧ w.cellsOut c.c = false ∧ w.bad = [] ∧ w.tsBad = [] ∧
      rising w.ts = true ∧ ptrBlk c.a = 0 ∧ descM c.c = 1 ∧ descN c.c = 32 ∧ descK c.c = 32 ∧
      m.matrixKind = .mmal .e4m3 true ∧ w.eng.front = some p ∧ p.bad = [] ∧ w.asleepAny (m.matrixRanges 0) = false := by decide +kernel

/-- One command of each kind that multiplies nothing, over the cells of one row. -/
theorem test_meets_MatrixCommandsCompute : let one (i : Instr) (a b : Word) : Cmd := { queued i a b descriptor with started := true }
    let st := one (.mst 9 1 2 1 false) (s32' 0x2000) 0
    let w := (eng multiplying fun g => { g with mq := [st], back := some ⟨none, 1⟩ }).tile 0
    (one (.mcfg 1 2) 0x20 0).matrixKind = .config ∧ (one (.mzero 1 2) 0 0).matrixKind = .clear ∧
      (one (.latb 1 1 2) 0 (e4m3 0x3000)).matrixKind = .latch ∧ (one (.rotb 1 0) 0 0).matrixKind = .rotate ∧
      st.matrixKind = .store false ∧ ptrFmt st.a = .s32 ∧ ownTlm 0 st.a = true ∧ w.matrixCheck st = none ∧ descM st.c = 1 ∧
      w.eng.mq = [st] ∧ w.engGoesOn = true ∧ w.asleepAny (st.matrixRanges 0) = false ∧ multiplying.jobOpen (st.actor 2 0 []) = false ∧
      w.tsBad = [] ∧ rising w.ts = true ∧ w.cellsOut st.c = false ∧ w.bad = [] ∧ Memory.wf w.tlm = true ∧ multiplying.reqs = [] ∧
      w.undo.length + (w.newGranules (multiplying.scratchFrom 0) 0x2000 128).length ≤ 2048 ∧
      w.eng.back = some ⟨none, 1⟩ ∧ ringWidth w.eng.mcfg = 1 ∧ (multiplying.tile 0).eng.back = none := by decide +kernel

/-- VNEG of 4 elements, and one command of each other shape. -/
theorem test_meets_VectorCommandsCompute : let one (i : Instr) (a b c : Word) : Cmd := { queued i a b c with started := true, ctl := 4 }
    let c := one (.vneg 1 2 2) (s32' 0x2000) (s32' 0x3000) 0
    let s := eng (booted []) fun g => { g with vcq := [c] }
    let w := s.tile 0
    w.eng.vcq = [c] ∧ c.status = none ∧ w.engGoesOn = true ∧ s.jobOpen (c.actor 3 0 (s.staleFor false)) = false ∧
      c.vecCheck = none ∧ w.asleepAny (c.vecOwn 0) = false ∧ w.bad = [] ∧ Memory.wf w.tlm = true ∧ s.reqs = [] ∧
      (∀ r ∈ c.vecRanges, ownTlm 0 r.1 = true ∧ (r.2.2 = true → 0x1000 ≤ ptrLoc r.1)) ∧
      c.vecRanges.map (fun r => (ptrLoc r.1, r.2.1)) = [(0x2000, 15), (0x3000, 15)] ∧
      (w.newGranules (s.scratchFrom 0) 0x2000 16).length ≤ 2048 ∧
      (c.result s 0 0).isSome = true ∧ ((one (.vsum 1 2 2) (s32' 0x2000) (s32' 0x3000) 0).reduced w).isSome = true := by decide +kernel

/-- The directory entry of partition 6, of tenant 0, over tiles 2 and 3. -/
def neighbour : DirEntry :=
  ⟨[6, 0, 0, 1, 1, 0, 0, 0, 2, 0, 0, 0, 2, 0, 1, 0] ++ List.replicate 48 0, true, 0, []⟩

theorem test_meets_MessagesLeave : let s := { booted [0, 0xFFFF000000000FFF, tlm 0x2000, 0x80000] with directory := [(1, neighbour)] }
    s.sendCause 0 s.priv (s.rx 1) (s.rx 2) (s.rx 3) = none ∧ s.sendsInside 0 (s.rx 1) = true ∧ fieldOf (s.rx 3) 21 16 = 8 ∧
      badRange (s.tile 0).bad 0x2000 8 = false ∧ s.sendCause 0 s.priv (s.rx 1) (s.rx 2) 0x390000 = some (0x127, 0x390000) ∧
      s.sendCause 0 s.priv 0x0006000000000000 (s.rx 2) (s.rx 3) = none ∧ s.sendsInside 0 0x0006000000000000 = false := by decide +kernel

/-- Tile 0 with a full inbox, and a heap of one free entry at 0x4000 (15 Table 15.3). -/
def crowded (s : State) (heap : Bool) : State :=
  (s.modCore 0 fun c => { c with inbox := List.replicate 64 [] }).modTile 0 fun w =>
    if heap then { w with tlm := memWrite [] 0xC00 (toBytes 8 0x4000 ++ toBytes 8 1) } else w

theorem test_meets_MessagesArrive : let r := { ask (.message (List.replicate 64 1)) 1 .target with sv := true }
    let s := asked r
    s.req 0 = some r ∧ r.sdev = s.devId ∧ s.messageBehind r = false ∧ s.windowEntry r = none ∧ s.stray r = false ∧ s.tileRefusal r = none ∧
      s.savedWait 0 = false ∧
      (let v : Window := ⟨r.place.code, 0, 0, none, r.seq, .none, none⟩; { s with windows := [v] }.windowEntry r = some v) ∧
      (s.tile 0).core.inbox.length < 64 ∧ 64 ≤ ((crowded s false).tile 0).core.inbox.length ∧ ((crowded s false).tile 0).heapHere = false ∧
      ((crowded s true).tile 0).heapHere = true ∧ ((crowded s true).tile 0).heapCount < ((crowded s true).tile 0).heapCap ∧
      ((crowded s true).strand 0 15).st ≠ .live ∧ (crowded s true).tileRefusal r = none ∧
      (let q := { r with stage := .waiting }; (asked q).req 0 = some q ∧ (asked q).messageBehind q = false ∧ (asked q).tileRefusal q = none) := by
  decide +kernel

/-- A message for partition 6 that has come to a tile of partition 5, and a committed one for partition 6. -/
theorem test_meets_MessagesArrive_elsewhere : let x : Nat := 0x0006000000000001
    let r := { ask (.message (List.replicate 8 3 ++ List.replicate 56 0)) 1 .target with ptr := word x }
    let s := { asked r with directory := [(1, neighbour)] }
    let there := s.modPart 6 fun p => { p with valid := true, orgx := 2, pw := 2, ph := 1 }
    let m : HeldMessage := ⟨word x, List.replicate 64 0, 0, false⟩
    let out := there.modTile 0 fun w => { w with outgoing := [m] }
    s.stray r = true ∧ (s.dirOf 6).isSome = true ∧ s.windowEntry r = none ∧ s.messageBehind r = false ∧ (s.part 6).valid = false ∧
      (s.savedFor 6 1).length < 4096 ∧ (there.part 6).valid = true ∧ there.stray r = true ∧
      (out.tile 0).outgoing[0]? = some m ∧ (out.tile 0).decided = false ∧ (out.tile 0).lost = false ∧ out.savedWait 3 = false ∧
      (out.tile 3).core.inbox.length < 64 ∧ out.outstanding 0 < 256 ∧ out.toTarget 0 3 < 1024 ∧ (booted []).dirOf 6 = none := by decide +kernel

theorem test_meets_MessagesAreTaken : let s := (booted [0, tlm 0x2000]).modCore 0 fun c => { c with inbox := [List.replicate 64 1] }
    let h := (booted [0, tlm 0x2000]).modTile 0 fun w => { w with tlm := memWrite [] 0xC00 (toBytes 8 0x4000 ++ toBytes 8 1 ++ toBytes 8 0 ++ toBytes 8 1) }
    s.recvCause (s.rx 1) false = none ∧ (s.tile 0).available false = some (.inbox (List.replicate 64 1)) ∧
      badRange (s.tile 0).bad 0x2000 64 = false ∧ Memory.wf (s.tile 0).tlm = true ∧ ((booted []).tile 0).available false = none ∧
      (s.tile 0).undo.length + ((s.tile 0).newGranules (s.scratchFrom 0) 0x2000 64).length ≤ 2048 ∧
      s.recvCause (s.rx 1) true = some (0x160, true) ∧ s.recvCause (imm 0) false = some (0x04A, true) ∧
      s.recvCause (tlm 0x2001) false = some (0x080, false) ∧ (privileged []).priv ≠ 0 ∧
      h.recvCause (h.rx 1) false = none ∧ (h.tile 0).available false = some (.heap (List.replicate 64 0)) ∧
      badRange (h.tile 0).bad (h.tile 0).heapOldest 64 = false ∧ badRange (h.tile 0).bad 0xC10 10 = false ∧ Memory.wf (h.tile 0).tlm = true ∧
      (h.tile 0).undo.length + ((h.tile 0).newGranules (h.scratchFrom 0) 0xC10 10).length +
        ((h.tile 0).newGranules (h.scratchFrom 0) 0x2000 64).length ≤ 2048 := by decide +kernel

/-- Group 3, scalar sums of integers. -/
def grouped (st : Strand) : State := (device st).modCore 0 fun c => { c with groups := [(3, 3)] }

theorem test_meets_TreeGroupsAreUsed : let s := grouped (live [0, 3, 9, tlm 0x2000])
    s.activeGroup 0 3 = some 3 ∧ s.tconCause 0 0 3 9 false = none ∧ s.tconCause 0 0 4 9 false = some (0x121, 4, true) ∧
      s.roomFor (s.blankReq 0 0 (.contribute 3 0 [])) = true ∧ (s.tile 0).core.resultOf 3 = none ∧ fieldOf (0x903 : Word) 11 8 = 9 ∧
      bitOf (3 : Word) 12 = false ∧ fieldOf (3 : Word) 63 14 = 0 ∧ fieldOf (3 : Word) 7 6 = 0 ∧
      (let u := s.modCore 0 fun c => { c with results := [⟨3, 0, List.replicate 8 1⟩] };
        u.activeGroup 0 3 = some 3 ∧ (u.tile 0).core.resultOf 3 = some ⟨3, 0, List.replicate 8 1⟩) ∧
      (let u := (device (live [])).modCore 0 fun c => { c with groups := [(3, 0x1003)] };
        u.tconCause 0 0 3 (tlm 0x2000) true = none ∧ badRange (u.tile 0).bad 0x2000 64 = false ∧
          (u.tconCause 0 0 3 (tlm 0x2001) true).map (fun q => q.2.2) = some false) := by decide +kernel

theorem test_meets_RoundsComplete : let s := on (grouped (live [])) { Ev.zero with part := 5, a := 3 }
    let v : Round := ⟨7, 3, 0, [(0, toBytes 8 9)], 4095, false, [], none, [], none⟩
    let done := { v with result := some (toBytes 8 9) }
    let u := s.modPart 5 fun p => { p with rounds := [v] }
    let r := ask (.contribute 3 0 (toBytes 8 9)) 1 .target
    (asked r).req 0 = some r ∧ r.id < (asked r).nextReq ∧ (asked r).discards r.part (.tile r.ttile) = false ∧
      ((asked r).part 5).openRound 3 0 = none ∧ (u.part 5).openRound 3 0 = some v ∧ (u.part 5).bar.commit ≠ some false ∧
      (u.part 5).isRoot = true ∧ u.members (u.part 5) 3 = [0] ∧ u.rank 0 = 0 ∧ u.landed (groupJob 1 0 7) = true ∧
      assoc (u.groupsOf (u.part 5) 0) 3 = some 3 ∧
      (v.parts.filter fun q => q.1 / 4096 != u.devId).length = fieldAt (u.part 5).others 12 4 ∧
      ((u.modPart 5 fun p => { p with nd := 2, devs := [1, 0], tree := ⟨1, false, 0⟩ }).part 5).isRoot = false ∧
      ((s.modPart 5 fun p => { p with rounds := [done] }).part 5).owed 3 0 = some done ∧
      s.partOf 0 = some 5 ∧ (s.tile 0).core.results.length < 16 ∧ (s.tile 0).decided = false ∧ (s.tile 0).lost = false := by decide +kernel

theorem test_meets_TriggersAreSet : let r := ask (.token 1 2) 1 .target
    (booted []).tokenCause 0 0x4000FFF = none ∧ (booted []).counterCause 0 0x4000FFF = none ∧
    (booted []).tokenCause 0 0x100000000 = some 0x124 ∧ (asked r).req 0 = some r ∧ (asked r).tileRefusal r = none ∧ r.sdev = (asked r).devId ∧
    (let q := ask (.count 1 2) 1 .target; (asked q).req 0 = some q ∧ (asked q).tileRefusal q = none) ∧
    fieldOf (0x1000000000 : Word) 35 32 = 0 ∧ bitOf (0x1000000000 : Word) 36 = true ∧ fieldOf (0x10 : Word) 7 4 ≠ 0 := by decide +kernel

theorem test_meets_TriggersFire : let cell : Cell := ⟨true, 1, 1, false, 0, 0, 0, false⟩
    let s := (booted []).modCore 0 fun c => { c with cells := vset c.cells 15 cell }
    (s.tile 0).runs = true ∧ (s.tile 0).nextFire ≤ s.cyc ∧ s.commandFits 0 15 = true ∧
      vget (s.tile 0).core.cells 15 Cell.reset = cell ∧ (∀ i, i < 15 → (vget (s.tile 0).core.cells i Cell.reset).armed = false) ∧
      badRange (s.tile 0).bad 0x3E0 32 = false ∧ (s.tile 0).byte 0x3E0 = 0 := by decide +kernel

/-- A pointer to integers of 32 bits of this tile. -/
def s32 (a : Nat) : Word := 0x3000000000000000 + tlm a

def gathering : State := grouped (live [0, 0x103, s32 0x2000])

/-- A configuration of 16-byte records of two coordinates, 1 bit an axis, every item of weight 1 (16 Table 16.1). -/
def config : List Byte :=
  toBytes 8 0x30000 ++ List.replicate 12 0 ++ toBytes 4 0x3F800000 ++ toBytes 4 0x3F800000 ++ List.replicate 36 0

theorem test_meets_GroupCommandsQueue : gathering.activeGroup 0 3 = some 3 ∧ gathering.partOf 0 = some 5 ∧
    gathering.memberCount (gathering.part 5) 3 = 1 ∧ ptrFmt (s32 0x2000) = .s32 ∧ fieldOf (0x103 : Word) 31 8 = 1 ∧
    fieldOf (0x103 : Word) 63 56 = 0 ∧ fieldOf (0x103 : Word) 7 6 = 0 ∧ ptrBlk (s32 0x2000) = 0 ∧ (gathering.tile 0).eng.collq.length < 8 ∧
    collAccepts (groupOp 3) .s32 = true ∧ gathering.ownCause 0 0 (s32 0x2000) 4 4 true = none ∧ gathering.activeGroup 0 4 = none ∧
    gathering.rpCause 0 0 0 0 = some (0x131, 0) ∧ cfgBad (List.replicate 64 0) = true ∧ cfgBad config = false ∧ config.length = 64 ∧
    (eng gathering fun g => { g with rpcfg := some config }).rpCause 0 (tlm 0x2000) (tlm 0x4000) 0x0000010000000103 = none := by decide +kernel

/-- The tile's own TLM has the configuration at 0x2000. -/
theorem test_meets_RpcfgLoads : let s := (booted [0, tlm 0x2000]).modTile 0 fun w => { w with tlm := memWrite [] 0x2000 config }
    s.ownCause 0 s.priv (s.rx 1) 64 64 false = none ∧ badRange (s.tile 0).bad 0x2000 64 = false ∧ (s.tile 0).bytes 0x2000 64 = config := by
  decide +kernel

def groupCmd : GroupCmd := ⟨1, .collAllred 1 2 3 0, 0, 1, 0x103, s32 0x2000, 0, [], 0, 0, 100, 0, 0, 0, 0⟩

theorem test_meets_CollectivesComplete : let r : CollRound := ⟨3, 0, [(0, groupCmd)], [], 0, [(0, [1, 0, 0, 0])], [], [], false⟩
    let s := on (eng gathering fun g => { g with collq := [groupCmd] }) { Ev.zero with id := 1, part := 5 }
    let u := s.modPart 5 fun p => { p with colls := [r] }
    let ready := { groupCmd with phase := 1 }
    let form := on (eng gathering fun g => { g with collq := [ready] }) { Ev.zero with id := 1, part := 5 }
    (s.tile 0).eng.collq.find? (fun q => q.id == 1) = some groupCmd ∧ s.partOf 0 = some 5 ∧ (s.tile 0).engGoesOn = true ∧
      groupCmd.isRep = false ∧ (s.part 5).collRound 3 0 = none ∧ (s.tile 0).engRuns = true ∧ groupCmd.phase = 0 ∧ s.withheld = false ∧
      s.earlierDone 0 0 0 0 [1] = true ∧ (form.tile 0).eng.collq.find? (fun q => q.id == 1) = some ready ∧ (form.part 5).isRoot = true ∧
      form.joined' (form.part 5) 3 0 = some [(0, ready)] ∧ form.foreignReady (form.part 5) 3 = true ∧
      form.landed (groupJob 3 (form.rank ((form.part 5).tileAt 0)) 1) = true ∧ form.anyAsleep (form.collBuffers 5 [(0, ready)]) = false ∧
      clashing [(0, ready)] = false ∧ clashing [(0, ready), (1, { ready with word := 0x203 })] = true ∧
      (u.part 5).collRound 3 0 = some r ∧ u.landed (groupJob 4 (u.rank 0) 1) = true ∧ (u.cargoSlack (groupJob 4 (u.rank 0) 1)).2 = false ∧
      u.jobOpen (groupCmd.actor 0) = false ∧ (u.part 5).fullRank 0 = 0 ∧ ownTlm 0 groupCmd.buf = true ∧ (u.tile 0).bad = [] ∧
      Memory.wf (u.tile 0).tlm = true ∧ (u.tile 0).asleep 0x2000 4 = false ∧ u.reqs = [] ∧
      (u.tile 0).undo.length + ((u.tile 0).newGranules (u.scratchFrom 0) 0x2000 4).length ≤ 2048 ∧
      (s.strand 0 0).st = .live ∧ s.versioned 0 = true ∧ bitOf (s.part 5).sspol 2 = true ∧
      bitOf ((s.modPart 5 fun p => { p with sspol := 2 }).part 5).sspol 2 = false := by decide +kernel

theorem test_meets_RepartitionsProceed :
    let c : GroupCmd := ⟨1, .rpgo 1 1 4 0, 0, 1, 0x0000010000000103, tlm 0x2000, tlm 0x4000, config, 0, 0, 100, 0, 0, 0, 0⟩
    let q := { c with phase := 1 }
    let at' (c : GroupCmd) (l : List CollRound) : State := (eng gathering fun g => { g with repq := [c] }).modPart 5 fun p => { p with colls := l }
    let r : CollRound := ⟨3, 0, [(0, q)], [], 0, [], [], [], false⟩
    let s := at' c []
    let u := at' q []
    let m := at' q [r]
    (s.tile 0).eng.repq = [c] ∧ s.partOf 0 = some 5 ∧ c.isRep = true ∧ (s.tile 0).engRuns = true ∧ s.withheld = false ∧
      s.earlierDone 0 0 0 0 [1] = true ∧ (s.tile 0).asleep 0x2000 c.inLen = false ∧ u.joined' (u.part 5) 3 0 = some [(0, q)] ∧
      (u.part 5).collRound 3 0 = none ∧ (u.tile 0).engGoesOn = true ∧ u.foreignReady (u.part 5) 3 = true ∧ (u.part 5).isRoot = true ∧
      u.landed (groupJob 5 (u.rank ((u.part 5).tileAt 0)) 1) = true ∧ clashing [(0, q)] = false ∧
      u.anyAsleep ((u.part 5).rpInputs [(0, q)]) = false ∧ (u.part 5).nd ≤ 1 ∧ u.badInputs (u.part 5) [(0, q)] = [] ∧
      ((u.roundItems (u.part 5) [(0, q)] [] config).map (·.weight)).foldl (· + ·) 0 = 1 ∧
      clashing [(0, q), (1, { q with word := 0x143 })] = true ∧ (m.part 5).collRound 3 0 = some r ∧ ownTlm 0 q.out = true ∧
      m.landed (groupJob 6 (m.rank 0) 1) = true ∧ (m.cargoSlack (groupJob 6 (m.rank 0) 1)).2 = false ∧
      m.badInputs (m.part 5) r.cmds = [] ∧ (assoc (m.moveItems (m.part 5) r q).result 0).map List.length = some 16 ∧
      (m.tile 0).asleep 0x4000 16 = false ∧ m.jobOpen (q.actor 0) = false ∧
      (m.tile 0).undo.length + ((m.tile 0).newGranules (m.scratchFrom 0) 0x4000 16).length ≤ 2048 ∧
      (let d := { q with phase := 3 }; let r' := { r with cmds := [(0, d)], moved := true };
        let v := at' d [r']; v.membersMoved (v.part 5) r' = true) := by decide +kernel
/-- A committed message to rank 0 of partition 6, held at tile 0. -/
theorem test_meets_held_messages : let m : HeldMessage := ⟨0x0006000000000000, List.replicate 64 1, 0, false⟩
    let s := { (booted []).modTile 0 fun w => { w with outgoing := [m] } with directory := [(1, neighbour)] }.modPart 6 fun p => { p with valid := true }
    (s.tile 0).outgoing[0]? = some m ∧ s.dirOf 6 = some neighbour ∧ fieldOf m.dest 25 0 / (neighbour.pw * neighbour.ph) = neighbour.di ∧
      (s.part 6).valid = true ∧ neighbour.tileOf 0 = 2 ∧ (s.tile 2).core.inbox.length < 64 ∧ s.savedWait 2 = false ∧
      (s.tile 0).decided = false ∧ (s.tile 0).lost = false ∧ (s.tile 2).lost = false ∧ (s.tile 2).decided = false := by decide +kernel

theorem test_meets_SuperstepInstructions : let s := booted [0, 1, 0x102, 0x8000]
    s.pendingButMove = false ∧ s.reported = true ∧ s.cur.slot ≠ 15 ∧ (s.rx 1).getLsbD 0 = true ∧ s.versioned 0 = true ∧
      s.partOf 0 = some 5 ∧ (s.part 5).bar.commit = none ∧ (s.tile 0).decided = false ∧ (s.rx 2).toNat % 16 = 2 ∧ fieldOf (s.rx 2) 13 8 = 1 ∧
      s.diePresent 0 = true ∧ (privileged []).priv ≠ 0 ∧ fieldOf (s.rx 3) 63 21 = 0 ∧ fieldOf (s.rx 3) 20 15 = 1 ∧
      (s.part 5).devs.contains 1 = false ∧ s.isLate 0 = false ∧
      (let u := { s with cur := { s.cur with slot := 15 } }; u.pendingButMove = false ∧ u.reported = true) ∧
      { s with cur := { s.cur with pend := 2 } }.pendingButMove = true ∧ (booted [0, 5]).rx 1 &&& 15 = 5 := by decide +kernel

/-- Every slot free: the tile may arrive. -/
def resting : State := (booted []).setTile 0 Tile.reset

/-- A partition whose barrier has decided, on a device that has sent OPEN. -/
def decided (commit : Bool) (opened : Bool) : State :=
  (booted []).modPart 5 fun p => { p with bar := { p.bar with
    commit := some commit, sent := if opened then [(.device, .open)] else []
    flight := [.tile 0, .station 0, .station 63].map fun n => ⟨8, if opened then .open else .decide, .device, n, 0, 0, .none⟩ } }

theorem test_meets_BarrierProceeds :
    let bar (s : State) (id : Nat) (f : Barrier → Barrier) : State := on (s.modPart 5 fun p => { p with bar := f p.bar }) { Ev.zero with part := 5, id := id }
    let m (k : BarKind) (src dst : BarNode) : BarMsg := ⟨4, k, src, dst, 0, 0, .none⟩
    let up := m .arrive (.tile 0) (.die 0)
    let s := bar resting 4 fun b => { b with flight := [up] }
    let d := bar (decided true false) 4 fun b => { b with flight := [m .done (.tile 0) (.die 0)] }
    let root := bar resting 0 fun b => { b with got := [⟨4, .arrive, .die 0, .device, 1, 0, .none⟩] }
    let o := bar (decided true true) 0 id
    resting.mayArrive 0 = true ∧ resting.partOf 0 = some 5 ∧ resting.booting = false ∧ (resting.part 5).bar.sent.contains (.tile 0, .arrive) = false ∧
      s.landed 4 = true ∧ { s with reqs := [cargo s .barrier 0xF3 4 0 .wire] }.landed 4 = false ∧
      (s.part 5).bar.flight.find? (fun q => q.id == 4 && q.kind == .arrive && s.landed q.id) = some up ∧ (s.part 5).bar.commit = none ∧
      (d.part 5).bar.flight.find? (fun q => q.id == 4 && q.kind == .done && d.landed q.id) = some (m .done (.tile 0) (.die 0)) ∧
      (root.combined (root.part 5) .device).1 % 2 = 1 ∧ (root.part 5).valid = true ∧ (root.part 5).nd ≤ 1 ∧ (root.part 5).forced = false ∧
      o.mayOpen (o.part 5) (.tile 0) = true ∧ o.heard (o.part 5) .save (.tile 0) = none ∧ (o.part 5).due = [] ∧
      (o.strand 0 0).st = .live := by decide +kernel

theorem test_meets_DecisionsApply : let c := decided true false
    let a := decided false false
    c.mayApply 5 true (.tile 0) = true ∧ c.mayApply 5 true (.station 0) = true ∧
      a.mayApply 5 false (.tile 0) = true ∧ a.mayApply 5 false (.station 64) = false ∧ a.mayApply 5 false (.station 63) = true ∧
      ((List.range 15).all fun n => (c.strand 0 n).move.isNone) = true ∧ (c.tile 0).core.keeps = [] ∧ c.hbmBad = [] ∧ (c.part 5).reds = [] ∧
      Memory.wf c.hbm = true ∧ rising [((8 : Nat), (1 : Byte))] = true := by decide +kernel

theorem test_meets_SlackIsSet : (booted [0, 3]).rx 1 = 3 ∧ (booted [0, 3]).priv = 0 ∧ (privileged [0, 0x11]).priv ≠ 0 ∧
    ((privileged [0, 0x11]).rx 1).toNat % 4 = 1 ∧ ((privileged [0, 0x11]).rx 1).getLsbD 4 = true := by decide +kernel

theorem test_meets_ControlRegisters : let s := privileged [0, 1000]
    s.csrNamed 0 0 0x3FF = none ∧ s.csrNamed 0 2 0x001 = some .cause ∧ Csr.cause.readPriv ≤ s.priv ∧ s.csrAbsent 0 .cause = false ∧
      s.csrMask s.priv .cause ≠ 0 ∧ Csr.cause.refuses s.pwrMax 2 1 = false ∧ s.csrMask 0 .cause = 0 ∧ s.csrNamed 0 2 0x040 = some .pwrbal ∧
      Csr.pwrbal.refuses s.pwrMax 2 1000 = false ∧ Csr.pwrbal.refuses s.pwrMax 2 1 = true ∧ s.csrNamed 0 2 0x020 = some .seed ∧
      s.csrAbsent 992 .troot = true ∧ (booted []).priv < Csr.pwrbal.readPriv + 1 := by decide +kernel

def syscall : TrapInfo := ⟨0x164, 0x108, 7, false, .none⟩

theorem test_meets_TrapsAreTaken : (booted []).me.inh = false ∧ (booted []).me.savedPending = false ∧ Memory.wf ((booted []).tile 0).tlm = true ∧
    badRange ((booted []).tile 0).bad (0x400 + 0x80 * 15) 96 = false ∧
    ((booted []).tile 0).undo.length + (((booted []).tile 0).newGranules ((booted []).scratchFrom 0) 0xB80 96).length ≤ 2048 ∧
    (device { live [] with pend := 0x1000 }).me.savedPending = true ∧ (device { live [] with sstat := 0x800 }).me.inh = true ∧
    ((device { live [] with sleep := .trap syscall }).strand 0 0).sleep = .trap syscall ∧ ((booted []).tile 0).runs = true := by decide +kernel

theorem test_meets_TrapsReturn : (booted []).priv = 0 ∧ (privileged []).priv ≠ 0 ∧ (privileged []).cur.pend &&& 0xF000#16 = 0 ∧
    badRange ((privileged []).tile 0).bad 0x400 0x30 = false ∧
    { (privileged []).cur with pend := 0x8000 }.pend &&& 0xF000#16 ≠ 0 := by decide +kernel

def heldBus : HeldCause := ⟨0x104, 3⟩
def lateFault : DeferredFault := ⟨[.x 3], false, 0x061, 0, .none⟩

/-- Before READY slot 0 fetches one to one. -/
def early (st : Strand) : State := { device st with devstat := 0 }

/-- Tile 5, of no partition, runs in context 0, whose addresses are one to one. -/
def outside : State := (booted []).modStrand 5 0 fun st => { st with st := .live, pc := 0x100 }

theorem test_meets_CausesAreTaken : let s := early { live [] with held := [heldBus] }
    s.mayIssue 0 0 = true ∧ (s.strand 0 0).early = some (.held 0) ∧ (s.strand 0 0).held[0]? = some heldBus ∧
      (let u := early { live [] with faults := [lateFault] }; (u.strand 0 0).faults[0]? = some lateFault ∧ (u.strand 0 0).early = none) ∧
      (early { live [] with faults := [{ lateFault with store := true, regs := [] }] }).mayIssue 0 0 = true ∧
      ((early { live [] with faults := [{ lateFault with store := true, regs := [] }] }).strand 0 0).early = some (.fault 0) ∧
      (outside.mayIssue 5 0 = true ∧ (outside.strand 5 0).early = none ∧ outside.fetch 5 [] 0x100 = .bytes (List.replicate 8 0) ∧
        outside.fetch 5 [] 0x1000000000000 = .fault 0x063) ∧
      (booted []).fetch 0 [] 0x100 = .fault 0x060 ∧ { outside with hbmBad := [0x20] }.fetch 5 [] 0x100 = .fault 0x142 := by decide +kernel

theorem test_meets_SystemInstructions : let s := privileged [0, 0x40, 1]
    s.priv ≠ 0 ∧ (booted []).priv = 0 ∧ (device { live [] with sstat := 0x100 }).priv = 1 ∧ s.xinvs.length < 16 ∧
      (s.part 5).valid = true ∧ (s.part 5).stopped = false ∧ fieldOf (0x50000 : Word) 31 16 = 5 ∧ s.partOf 0 = some 5 ∧
      (s.part 5).devs.contains 0 = true ∧ 600 + 0 + (1 : Word).toNat ≤ s.pwrbal ∧ s.pwrbal < 600 + 0 + (2401 : Word).toNat ∧
      fieldOf (100 : Word) 6 0 = 100 ∧ ¬(2 ^ 31 ≤ (4 + 2 ^ 32 - (s.part 5).ssnum) % 2 ^ 32) ∧ 2 ^ 31 ≤ (2 ^ 32 - 1 + 2 ^ 32 - (s.part 5).ssnum) % 2 ^ 32 := by
  decide +kernel

/-- Partition 5 resident through entry 0 of region 0, entry 1 ready for partition 6. -/
def contexts (state slice : Nat) : State :=
  { booted [] with
    regions := [(0, ⟨0, 0, 4, 4, 2, true, false, 0, [(0, ⟨5, state, slice, 4, 0, 0, false⟩), (1, ⟨6, 1, 0, 0, 0, 0, true⟩)]⟩)]
    directory := [(1, { neighbour with bytes := neighbour.bytes.set 0x12 1 })] }

theorem test_meets_PowerAndStops : let s := booted []
    let x : Xinv := ⟨3, 0, 0, 5, 0, 1, 9⟩
    let far (l : List Req) : State := on { s with xinvs := [x], reqs := l } { Ev.zero with id := 3 }
    (far []).xinvs.find? (fun x => x.id == 3) = some x ∧
      ({ s.blankReq 0 0 (.visit 0xD8 3 (.station 0)) with id := 9 } : Req).visits 3 = true ∧
      ((contexts 3 0).modPart 5 fun p => { p with stopped := true }).partOf 0 = some 5 ∧ (s.tile 0).gstopped = false ∧ (s.part 5).stopped = false ∧
      (let u := on { s with stones := [(3, 0, 9)], reqs := [cargo s .stones 0xFA 3 0 .target] } { Ev.zero with id := 3 };
        u.stones.find? (fun q => q.1 == 3) = some (3, u.devId, 9) ∧ u.landed 3 = true) ∧
      { s with reqBal := 700, balDue := true }.balDue = true ∧ s.balDue = false ∧ (s.part 5).valid = true ∧ (s.part 5).running = none ∧
      (let u := on s { Ev.zero with epochs := [(0, 7)] }; u.cur.ev.epochs = [(0, 7)] ∧ u.cur.ev.shared = [] ∧ u.partOf 0 = some 5) ∧
      (let u := s.modPart 5 fun p => { p with running := some (0, 3) };
        assoc ({ u with functions := [(0, { Function.reset with slots := [(3, LaunchSlot.free)] })] }.function 0).slots 3 = some LaunchSlot.free) ∧
      (contexts 3 0).entryState 5 = 3 := by decide +kernel

/-- Partition 5 moved 64 bytes of memory through station 0, and partition 6 moved 192. -/
theorem test_meets_shared_energy : let s := on { booted [] with moved := [(5, 64), (6, 192)] } { Ev.zero with shared := [(0, 8)] }
    s.cur.ev.epochs = [] ∧ s.cur.ev.shared = [(0, 8)] ∧ s.movedThrough 0 = [(5, 64), (6, 192)] ∧ 8 * 64 % (64 + 192) = 0 := by decide +kernel

theorem test_meets_ContextsSwitch : let s := { contexts 2 1 with gclk := 250 }
    let all := s.modPart 5 fun p => { p with bar := { p.bar with
      sent := (BarNode.device :: p.tiles.map BarNode.tile ++ s.stations.map BarNode.station).map fun n => (n, .save) } }
    s.otherReady 5 = true ∧ (s.entryOf 5).map (·.state) = some 2 ∧ (s.part 5).valid = true ∧ 250 * 1 ≤ s.gclk - 0 ∧ (s.part 5).nd ≤ 1 ∧
      (s.parts.find? fun p => p.2.valid && p.2.region == 0 && p.2.entry == 0).isSome = true ∧ all.saveReady (all.part 5) = true ∧
      (let u := { contexts 0 0 with parts := [] };
        (u.region 0).map (fun g => (g.free, g.next.map (·.1))) = some (true, some 1) ∧ (u.dirOf 6).map (fun d => (d.region, d.entry)) = some (0, 1) ∧
          u.parts.length = 0) ∧
      (s.part 5).stopped = false ∧ (s.part 5).forced = false ∧ (s.part 5).forcedLate = false ∧ (s.part 5).bar.commit = none ∧ (Ev.zero).image = none ∧ (Ev.zero).ok = false ∧ (s.part 5).orgx + (s.part 5).pw ≤ 64 := by decide +kernel

/-- The area at 0x100000 of a partition 6 on one tile, saved in superstep 0: the header, and IMGVER of its one slot (13 Tables 13.9, 13.10). -/
def image : Memory := memWrite (memWrite [] 0x100000 (toBytes 2 1 ++ toBytes 2 6 ++ toBytes 4 0 ++ toBytes 2 1 ++ toBytes 2 1)) 0x101000 [1]

/-- The directory entry of a partition 6 on one tile. -/
def single : DirEntry := { neighbour with bytes := [6, 0, 0, 1, 1, 0, 0, 0, 2, 0, 0, 0, 1, 0, 1, 0] ++ List.replicate 48 0 }

theorem test_meets_restores : { booted [] with hbm := image }.imageAccepted 0x100000 single = true ∧
    (booted []).imageAccepted 0x100000 single = false := by decide +kernel

/-- A launch record for partition 6 (18 Table 18.3): ENTRY 0x200, SHAPE 0x10000, LAUNCHID 9. -/
def record : List Byte :=
  [6, 0, 0, 0, 9, 0, 0, 0, 0, 2, 0, 0, 0, 0, 0, 0, 0, 0, 1] ++ List.replicate 109 0

theorem test_meets_LaunchesStart : let s := { booted [] with directory := [(1, neighbour)] }
    let q : LaunchSlot := ⟨5 :: record.tail, 1, 0, 0, 0, 9, 0, []⟩
    record.length = 128 ∧ LaunchSlot.free.record.length = 128 ∧ s.tenantHolds 0 = true ∧ s.tenantHolds 1 = false ∧
      assoc (s.function 0).slots 31 = none ∧ s.takeReason 0 31 record = 0 ∧
      (let u := { contexts 2 0 with functions := [(0, { Function.reset with slots := [(31, q)] })] };
        (u.nextLaunch 5).map (·.1) = some 31 ∧ (u.part 5).bar.commit = none ∧ (u.part 5).pw < 2 ^ 16 ∧ (u.part 5).orgx + (u.part 5).pw ≤ 64 ∧
          (u.strand 0 15).st = .free) := by decide +kernel

theorem test_meets_HostAccesses : let s := { booted [] with directory := [(1, neighbour)] }
    let h : HostAccess := ⟨0, 0x210000, 8, none⟩
    let busy := s.modPart 5 fun p => { p with bar := { p.bar with commit := some true, applied := [.station (homeStation 0x210000)], changed := [0x8400] } }
    (assoc s.directory 2).isNone = true ∧ neighbour.bytes.length = 64 ∧ s.contextOfDir neighbour = none ∧ s.holdsFirkin neighbour = false ∧
      (contexts 2 0).contextOfDir neighbour = none ∧ s.region 15 = none ∧ Region.blank.entries = [] ∧ s.windowAt 0 0 .read = .fault 0x060 ∧
      s.dirOf 7 = none ∧ s.hostWaits h = false ∧ { s with hostHeld := [h] }.hostWaits h = true ∧
      { s with hostHeld := [h] }.heldBack none h.pa h.size = false ∧ busy.heldBack none h.pa h.size = true := by decide +kernel

theorem test_meets_DeviceBoots : let s := { State.reset with devstat := 0x40 }
    s.discovers 0 = true ∧ s.booting = true ∧ s.bootErr = 0 ∧ s.diePresent 0 = true ∧ s.l2pOk.getLsbD 0 = false ∧
      (let u := { s with devstat := 0x20 }; u.phase = 2 ∧ u.hasLink 0 = true ∧ (u.link! 0).state = 2 ∧ 4 < railCount 0 ∧ railCount 0 ≤ 5) ∧
      (let u := { s with devstat := 0x10 }; u.phase = 1 ∧ u.firmware.any u.refusesImage = false) ∧
      (let u := s.setTile 0 { Tile.reset with tlm := [(0x22010, 1)] };
        ofBytes ((u.tile 0).bytes 0x22010 8) = 1 ∧ ofBytes ((u.tile 0).bytes 0x22008 8) = 0 ∧ u.scratchFrom 0 ≤ 0x22008 ∧
          Memory.wf (u.tile 0).tlm = true ∧ u.mapRefused 0 (u.tile 0) = true) := by decide +kernel

/-- A die of which only the first tile in physical order is good answers. -/
theorem test_meets_discovery : let s := { State.reset with devstat := 0x40, fused := List.range' 1 1023 }
    s.discovers 0 = true ∧ s.floodAnswers 0 = true := by
  have hops : State.hops { State.reset with devstat := 0x40, fused := List.range' 1 1023 } 0 = [(0, 0)] := by decide +kernel
  refine ⟨by decide +kernel, ?_⟩
  simp only [State.floodAnswers, hops, Bool.and_eq_true, List.all_eq_true, List.mem_range]
  refine ⟨by decide +kernel, fun i hi => ?_⟩
  by_cases h : i = 0
  · subst h; decide +kernel
  · simp [State.good, List.mem_range'_1]; omega

theorem test_meets_MemoryErrors : let s := { booted [] with l2p := [(0, 0x8021)] }
    s.physOf 0 = some 33 ∧ fieldOf (s.ptsWord 33) 8 4 = 0 ∧ (s.partOf 0).isSome = true ∧ s.hasMemory (8 * 0x1FFFFFF) 8 = true ∧
      (s.tile 0).lost = false ∧ (s.part 5).bar.commit = none ∧ ((decided true false).part 5).bar.commit ≠ none ∧
      fieldOf ({ s with pts := [(33, 0xF2)] }.ptsWord 33) 8 4 = 15 ∧
      (assoc ((s.modTile 0 fun w => { w with undo := [(8, List.replicate 64 0)] }).tile 0).undo (64 / 8)).isSome = true ∧
      (let u := s.modTile 0 fun w => { w with lost := true }; (u.tile 0).lost = true) ∧ ((decided true false).tile 0).lost = false ∧
      (decided true false).partOf 0 = some 5 ∧ (∀ d ∈ (s.part 5).devs.take (s.part 5).nd, s.devId ≤ d) ∧
      (∃ j ∈ (s.part 5).tiles, j ≠ 0 ∧ (s.tile j).lost = false) ∧
      (let p : Panel := ⟨0, 0, 16, 32, List.replicate 64 0, [], []⟩; ((eng s fun g => { g with front := some p }).tile 0).eng.front = some p ∧
        8 * 7 < p.data.length) := by decide +kernel

theorem test_meets_LinksChange : let s := booted []
    let tile := serviceTile 0
    let served (st : Strand) : State := (s.modStrand tile 0 fun _ => st).modCore tile id
    s.hasLink 0 = true ∧ s.hasLink 4 = false ∧ isSpan 0 = false ∧ (s.link! 0).railUp 4 = true ∧ (s.link! 0).state = 2 ∧
      20 ≤ ((s.link! 0).setRail 4 false).buffer 0 ∧ (s.link! 0).cstat ≠ 1 ∧
      ({ Link.reset with stat := setField Link.reset.stat 3 0 3 }).state = 3 ∧ ({ Link.reset with stat := setField Link.reset.stat 3 0 4 }).state = 4 ∧
      vget ({ Link.reset with fails := Vector.replicate 5 15 }).fails 0 0 + 1 = 16 ∧
      ({ s with linkEvents := [(0, 0x104, 3)] }.nextLinkEvent 0) = some (0, 0x104, 3) ∧
      (served (live [])).strand tile 0 = live [] ∧ (live []).linkBusy = false ∧ ({ live [] with handling := [0x104] }).linkBusy = true ∧
      isLinkCause 0x107 = true ∧ isLinkCause 0x061 = false ∧ (0x104 : Nat) < 0x107 ∧
      (s.linkEvents.filter fun q => q.1 = s.linkDie 0).length < 6 := by decide +kernel

/-- Link 0 with a command under way: its code, its rail, and the state. -/
def commanded (code rail state : Nat) : Link :=
  { Link.reset with ctl := setField (setField Link.reset.ctl 3 0 code) 34 32 rail, stat := setField (setField Link.reset.stat 3 0 state) 7 4 1 }

theorem test_meets_link_commands : let s (l : Link) := { booted [] with links := [(0, l)] }
    ((s (commanded 1 0 2)).link! 0).cstat = 1 ∧ ((s (commanded 1 0 2)).link! 0).state = 2 ∧ (s (commanded 1 0 2)).drained 0 = true ∧
      20 ≤ ((s (commanded 1 0 2)).link! 0).buffer 0 ∧ ((s (commanded 4 4 5)).link! 0).state = 5 ∧
      fieldOf ((s (commanded 4 4 5)).link! 0).ctl 3 0 = 4 ∧ fieldOf ((s (commanded 4 4 5)).link! 0).ctl 34 32 = 4 ∧
      ((s (commanded 3 4 4)).link! 0).spares 4 1 < 4 ∧ ((s (commanded 4 4 5)).link! 0).ctl.getLsbD 36 = false ∧
      (commanded 4 4 5).lostMod = [] ∧ (∀ r, r < 5 → (commanded 2 0 4).railUp r = true) := by decide +kernel

/-- Partition 5 with its first 2 MiB of addresses mapped to physical 0x200000, read, write and execute (17 Table 17.8). -/
def mapped (st : Strand) : State :=
  { (device st).modPart 5 (fun p => { p with troot := 0x1000 }) with
    directory := [(1, neighbour)]
    hbm := memWrite (memWrite (memWrite [] 0x1000 (toBytes 8 0x2001)) 0x2000 (toBytes 8 0x3001)) 0x3000 (toBytes 8 0x20001F) }

theorem test_meets_mapped_accesses : let s := { mapped (live []) with functions := [(0, { Function.reset with hwpart := 5 })] }
    s.windowAt 0 0x10000 .read = .at 0x210000 ∧ s.windowAt 0 0x10000 .write = .at 0x210000 ∧ s.hostWaits ⟨0, 0x210000, 64, none⟩ = false ∧
      badRange s.hbmBad 0x210000 64 = false ∧ partlyBad s.hbmBad 0x210000 64 = false ∧ Memory.wf s.hbm = true ∧
      s.shapeOf 5 0x10000 = some (List.replicate 256 0) ∧ (s.part 5).orgx + (s.part 5).pw ≤ 64 := by decide +kernel

/-- A strand at 0x100 whose next bundle is `add x1, x2, x3` beside NOP, at physical 0x200100. -/
def ready (c a : Nat) (st : Strand) : State :=
  let s := mapped st
  { s with hbm := memWrite (memWrite s.hbm 0x200100 (toBytes 4 c)) 0x200104 (toBytes 4 a), agenda := [.issue 0 0 false] }

/-- That state in the cycle of tile 0's turn. -/
noncomputable def inTurn (s : State) (u : Nat) : State :=
  let r := ({ s with agenda := [] }).begin
  let p := r.passTo (r.turnCycle 0)
  let met := (p.modTile 0 fun t => { t with nextIssue := p.cyc + 1 }).takeCauses 0 0 false
  (met.keepFetched 0 (met.contenders 0 0 (met.staleFor false))).modCore 0 fun c => { c with u := u }

theorem test_meets_StepRunsDecoded : let s := ready 0x08008000 0x00012300 (live [])
    let u := inTurn s 0
    s.agenda = [.issue 0 0 false] ∧ ({ s with agenda := [] }).begin.mayPass 0 (({ s with agenda := [] }).begin.turnCycle 0) = true ∧
      u.choose 0 (u.contenders 0 0 (u.staleFor false)) = some (0, 0) ∧ u.mayIssue 0 0 = true ∧
      (u.strand 0 0).early = none ∧ u.fetch 0 (u.staleFor false) 0x100 = .bytes [0, 0x80, 0, 8, 0, 0x23, 1, 0] ∧
      (u.strand 0 0).pc = 0x100 := by decide +kernel

theorem test_meets_StepRunsDecoded_decode : decodeBundle (Words.ofBytes [0, 0x80, 0, 8, 0, 0x23, 1, 0]) = .ok (beside (.add 1 2 3)) ∧
    (let u := inTurn (ready 0x08008000 0x00012300 (live [])) 0;
      u.readySlots 0 0 (Words.ofBytes [0, 0x80, 0, 8, 0, 0x23, 1, 0]) (beside (.add 1 2 3)) =
        .go (Words.ofBytes [0, 0x80, 0, 8, 0, 0x23, 1, 0]) (beside (.add 1 2 3))) := by decide +kernel

theorem test_meets_IssueStageChooses : [0, 2].Pairwise (· < ·) ∧ ((booted []).strand 0 0).urg = false ∧
    (device { live [] with sstat := 1 }).choose 0 [0] = some (0, 0) := by decide +kernel

/-- A step is the bundle's issue: the sum is in x1 and the pc at the next bundle. -/
theorem test_step_adds : nextOf (step (ready 0x08008000 0x00012300 (live [0, 0, 40, 2]))) (fun t =>
    (t.strand 0 0).xv 1 == 42 && (t.strand 0 0).pc == 0x108 && (t.strand 0 0).readyAt == 1) = true := by decide +kernel

/-- LD.64 to x4 beside FADD to x4: a conflict whatever the guards. -/
theorem test_meets_WriteConflicts : let s := ready 0x20132182 0x04345600 (live [0, 0, 0, tlm 0x2000])
    let c : Instr := .ld64 4 ⟨3, .units 2, false, 0⟩
    let a : Instr := .fadd 4 5 6
    s.mayIssue 0 0 = true ∧ (s.strand 0 0).early = none ∧ (s.strand 0 0).askip = false ∧
      s.fetch 0 (s.staleFor false) 0x100 = .bytes [0x82, 0x21, 0x13, 0x20, 0, 0x56, 0x34, 4] ∧
      ((s.beginIssue 0 0 true).slotNames ⟨p0, c⟩ ++ (s.beginIssue 0 0 true).slotNames ⟨p0, a⟩).all (fun q => !(s.strand 0 0).pending q) = true ∧
      (s.strand 0 0).metFault ((s.beginIssue 0 0 true).slotNames ⟨p0, c⟩ ++ (s.beginIssue 0 0 true).slotNames ⟨p0, a⟩)
        (c.endsStrand || a.endsStrand) = none ∧ c.dests.contains (.x 4) = true ∧ a.dests.contains (.x 4) = true := by decide +kernel

theorem test_meets_TurnsAreTaken : let s := ready 0 0 (live [])
    s.mayIssue 0 0 = true ∧ s.mayIssue 0 1 = false ∧ s.fetch 0 [] 0x100 = .bytes (List.replicate 8 0) ∧
      s.fetch 0 [] 0x200000 = .fault 0x060 ∧ (ready 0x08008000 0x00012300 { live [] with pend := 4 }).me.pending (.x 2) = true ∧
      ((s.beginIssue 0 0 true).slotNames ⟨p0, .add 1 2 3⟩).contains (.x 2) = true := by decide +kernel

theorem test_meets_ReadyBundlesIssue : let s := ready 0x08008000 0x00012300 (live [])
    let u := s.beginIssue 0 0 true
    u.probe ⟨p0, .add 1 2 3⟩ = (false, none) ∧ (s.strand 0 0).flight = [] ∧ conflict [⟨p0, .nop⟩, ⟨p0, .add 1 2 3⟩] = none ∧
      (u.probe ⟨p0, .eret⟩).2.isSome = true ∧ (u.probe ⟨p0, .padd 1 2 2⟩).2.isSome = false ∧ (s.strand 0 0).chk = false ∧
      u.slotReads ⟨p0, .add 1 2 3⟩ = [.p 0, .x 2, .x 3] ∧ u.slotWrites ⟨p0, .add 1 2 3⟩ = [.x 1] ∧
      ((ready 0 0 { live [] with pend := 2 }).beginIssue 0 0 false).probe ⟨p0, .halt⟩ = (true, none) := by decide +kernel

/-- The C code 0x00 in a pair and alone (03 R57). -/
theorem test_meets_CodeZeroIsUnassigned : (0x08000000 : Half).extractLsb' 15 8 = 0 ∧ (0x08000000 : Half).getLsbD 31 = false ∧
    (0x88000000 : Half).extractLsb' 14 8 = 0 ∧ (0x88000000 : Half).getLsbD 22 = false := by decide

theorem test_meets_encodings : (one (.trap 0xFFFF)).wellFormed = true ∧ (two (.ld64 15 ⟨15, .units 63, false, 0⟩) (.ffma 15 15 15 15)).wellFormed = true ∧
    (two (.ld64 0 ⟨0, .index 0, false, 0⟩) (.movi 0 (-32768))).wellFormed = true := by decide

theorem test_meets_MemoryStaysCanonical : Memory.wf (mapped (live [])).hbm = true ∧
    (mapped (live [])).tiles.all (fun p => Memory.wf p.2.tlm) = true ∧ (mapped (live [])).firkins.length = 0 := by decide +kernel

end Tests
end

section
/-! The register files (02 R36, R37), and the checks of a bundle up to its write conflicts (02 R30, 06 R114). -/

namespace Sys2Proof.Machine

/-! ### Predicate 0 (02 R37)

Its number is written as `simp` leaves it, so that these laws fire. -/

@[simp] theorem State.rp_zero (s : State) : s.rp 0#3 = true := rfl

@[simp] theorem Strand.pv_zero (st : Strand) : st.pv 0#3 = true := rfl

@[simp] theorem Strand.setReg_p_zero (st : Strand) (v : Word) : st.setReg (.p 0#3) v = st := rfl

@[simp] theorem Strand.mark_p_zero (st : Strand) : st.mark (.p 0#3) = st := rfl

@[simp] theorem Strand.pending_p_zero (st : Strand) : st.pending (.p 0#3) = false := rfl

/-- Settles O53: the law of one write for the general registers, and the laws of p0 above. -/
theorem registerFiles : Obligations.RegisterFiles := by
  intro s st v
  refine ⟨fun r q => ?_, s.rp_zero, st.pv_zero, st.setReg_p_zero v, st.mark_p_zero, st.pending_p_zero⟩
  exact (Strand.setReg_x st (.x r) v q).trans (if_congr (regName_x_inj.trans eq_comm) rfl rfl)

/-! ### The least of a list -/

/-- A list that is not empty has a least element, which is one of its own. -/
theorem exists_mem_leastBy {α : Type} (key : α → Nat) {l : List α} (hl : l ≠ []) : ∃ a ∈ l, leastBy key l = some a := by
  induction l with
  | nil => exact absurd rfl hl
  | cons a l ih =>
    rw [leastBy]
    rcases eq_or_ne l [] with rfl | hne
    · exact ⟨a, List.mem_cons_self, rfl⟩
    · obtain ⟨b, hb, hleast⟩ := ih hne
      rw [hleast]
      by_cases hlt : key b < key a
      · exact ⟨b, List.mem_cons_of_mem a hb, if_pos hlt⟩
      · exact ⟨a, List.mem_cons_self, if_neg hlt⟩

/-- The lowest code of some registers is the code of one of them. -/
theorem exists_mem_lowestCode {l : List RegName} (hl : l ≠ []) : ∃ q ∈ l, lowestCode l = some (word q.code) := by
  obtain ⟨c, hc, hleast⟩ := exists_mem_leastBy id (l := l.map RegName.code) (by simpa using hl)
  obtain ⟨q, hq, rfl⟩ := List.mem_map.mp hc
  exact ⟨q, hq, by rw [lowestCode, hleast, Option.map_some]⟩

/-! ### The checks of a bundle -/

/-- Two slots that share a destination other than p0 conflict, with the code of such a register (02 R30). -/
theorem conflict_of_mem_dests {c a : Slot} {r : RegName} (hr : r ≠ .p 0) (hc : r ∈ c.i.dests) (ha : r ∈ a.i.dests) :
    ∃ q ∈ c.i.dests, q ∈ a.i.dests ∧ conflict [c, a] = some (word q.code) := by
  have hmem : r ∈ c.i.dests.filter fun q => q != .p 0 && a.i.dests.contains q := by simpa [hc, ha] using hr
  obtain ⟨q, hq, hlow⟩ := exists_mem_lowestCode (List.ne_nil_of_mem hmem)
  obtain ⟨hqc, hshared⟩ := List.mem_filter.mp hq
  obtain ⟨-, hqa⟩ := Bool.and_eq_true_iff.mp hshared
  exact ⟨q, hqc, List.contains_iff_mem.mp hqa, hlow⟩

/-- A strand that may issue, with no cause due, stands where the checks of the bundle at its pc say (06 R114, R117). -/
theorem State.ready_of_decode {s : State} {k n : Nat} {old : List Stale} {l : List Byte} {b : Bundle}
    (hissue : s.mayIssue k n = true) (hearly : (s.strand k n).early = none)
    (hfetch : s.fetch k old (s.strand k n).pc = .bytes l) (hdecode : decodeBundle (Words.ofBytes l) = .ok b) :
    s.ready k n old = s.readySlots k n (Words.ofBytes l) b := by
  simp only [State.ready, hissue, hearly, hfetch, hdecode, Bool.not_true, Bool.false_eq_true, if_false]

/-- A conflict is the first trap that a bundle takes once nothing that it names is pending or brings a deferred fault (02 R30, R43). -/
theorem State.readySlots_of_conflict {s : State} {k n : Nat} {w : Words} {b : Bundle} {slots : List Slot} {v : Word}
    (hslots : b.slots (decide (w.w1 = emptyA) || (s.strand k n).askip) = slots)
    (hpending : ∀ q ∈ slots.flatMap (s.beginIssue k n b.isPaired).slotNames, (s.strand k n).pending q = false)
    (hmet : (s.strand k n).metFault (slots.flatMap (s.beginIssue k n b.isPaired).slotNames)
      (slots.any fun sl => sl.i.endsStrand) = none)
    (hconflict : conflict slots = some v) : s.readySlots k n w b = .trap 0x022 v := by
  have hany : (slots.flatMap (s.beginIssue k n b.isPaired).slotNames).any (s.strand k n).pending = false :=
    List.any_eq_false.mpr fun q hq => by simp [hpending q hq]
  subst hslots
  simp only [State.readySlots, hany, hmet, hconflict, Bool.false_eq_true, if_false]

/-- The turn of a strand whose bundle traps, for a cause that reports no uncorrectable data: the issue stage notes its choice, and
the trap is all that takes effect (02 R31, 06 R115). -/
theorem State.turnOf_of_trap {s : State} {k n u c : Nat} {old : Bool} {v : Word} (hcause : uncorrectable c = false)
    (hready : s.ready k n (s.staleFor old) = .trap c v) :
    s.turnOf k n u old = .next ((((s.modCore k fun core => { core with u := u }).modStrand k n fun st =>
      { st with last := some s.cyc, fetched := none }).beginIssue k n false).trapAtIssue c v) := by
  simp only [State.turnOf, hready, hcause, Bool.false_eq_true, if_false]

/-- Settles O54: the conflict of the two slots is the trap that the checks of the bundle find, and the turn takes that trap. -/
theorem writeConflicts : Obligations.WriteConflicts := by
  intro s k n u old l stall gc ga c a r st w hissue hearly hfetch hdecode hA haskip hpending hmet hr hc ha turned
  obtain ⟨q, hqc, hqa, hconflict⟩ := conflict_of_mem_dests (c := ⟨gc, c⟩) (a := ⟨ga, a⟩) hr hc ha
  have hslots : (Bundle.paired stall gc c ga a).slots (decide (w.w1 = emptyA) || st.askip) = [⟨gc, c⟩, ⟨ga, a⟩] := by
    simp only [Bundle.slots, hA, haskip, decide_false, Bool.or_self, Bool.false_eq_true, if_false]
  have hchecks : s.readySlots k n w (.paired stall gc c ga a) = .trap 0x022 (word q.code) :=
    State.readySlots_of_conflict hslots (by simpa [Bundle.isPaired] using hpending)
      (by simpa [Bundle.isPaired] using hmet) hconflict
  have hready := (State.ready_of_decode hissue hearly hfetch hdecode).trans hchecks
  exact ⟨q, u, some s.cyc, hqc, hqa, State.turnOf_of_trap rfl hready⟩

end Sys2Proof.Machine
end

section
/-! The decoder at C code 0x00 (03 R57). -/

namespace Sys2Proof

/-! ### C code 0x00 -/

/-- Code 0x00 is in no row of format C.RRR. -/
theorem decRRR_zero (f : RRR) : decRRR 0 f = .error 0 := rfl

/-- The cause of an unassigned code comes before those of the carried form's fields (03 R59, R63). -/
theorem carried_unassigned (x : BitVec 14) (restZero : Bool) : carried (.error 0) x restZero = .error 0 := rfl

/-- In a paired bundle no format but C.RRR is left for code 0x00. -/
theorem decPairedC_zero (x : BitVec 15) : decPairedC 0 x = .error 0 :=
  calc decPairedC 0 x
    _ = decRRR 0 (.unpack x) := rfl
    _ = .error 0 := decRRR_zero _

/-- In a lone bundle no own lone format is left for code 0x00, only the carried form of C.RRR. -/
theorem decLoneC_zero (x : BitVec 14) (ext : BitVec 32) : decLoneC 0 x ext = .error 0 :=
  calc decLoneC 0 x ext
    _ = carried (decRRR 0 (.unpack (ext.extractLsb' 0 15))) x (ext.extractLsb' 15 17 = 0) := rfl
    _ = .error 0 := by rw [decRRR_zero, carried_unassigned]

/-! ### A fault of word 0 -/

/-- A field of one bit is 0 when that bit is clear. -/
theorem extractLsb'_one_eq_zero_iff {n : Nat} (x : BitVec n) (i : Nat) : x.extractLsb' i 1 = 0 ↔ x.getLsbD i = false := by
  rw [BitVec.getLsbD_eq_extractLsb']
  generalize x.extractLsb' i 1 = b
  revert b
  decide

/-- A fault of the C instruction is the fault of its paired bundle, whatever its A instruction (03 R63). -/
theorem decodeBundle_of_pairedC_error {w : Words} {n : Nat} (hL : w.w0.getLsbD 31 = false)
    (hC : decPairedC (w.w0.extractLsb' 15 8) (w.w0.extractLsb' 0 15) = .error n) : decodeBundle w = .error n := by
  simp only [decodeBundle, if_pos ((extractLsb'_one_eq_zero_iff _ _).mpr hL), hC]

/-- A fault of a lone C instruction is the fault of its bundle (03 R63). -/
theorem decodeBundle_of_loneC_error {w : Words} {n : Nat} (hL : w.w0.getLsbD 31 = true) (hCls : w.w0.getLsbD 22 = false)
    (hC : decLoneC (w.w0.extractLsb' 14 8) (w.w0.extractLsb' 0 14) w.w1 = .error n) : decodeBundle w = .error n := by
  have hlone : w.w0.extractLsb' 31 1 ≠ 0 := mt (extractLsb'_one_eq_zero_iff _ _).mp (ne_false_of_eq_true hL)
  simp only [decodeBundle, if_neg hlone, if_pos ((extractLsb'_one_eq_zero_iff _ _).mpr hCls), hC]

/-- Settles O51: C code 0x00 is a fault of either decoder of C instructions, and so of the bundle. -/
theorem codeZeroIsUnassigned : Obligations.CodeZeroIsUnassigned := by
  rintro w (⟨hop, hL⟩ | ⟨hop, hCls, hL⟩)
  · exact decodeBundle_of_pairedC_error hL (by rw [hop, decPairedC_zero])
  · exact decodeBundle_of_loneC_error hL hCls (by rw [hop, decLoneC_zero])

end Sys2Proof
end

section
/-! Words and numbers bit by bit, and the word operations in integer arithmetic (05 R93-R96). -/

namespace Sys2Proof.Machine

/-! ### Bits of numbers and words -/

theorem getLsbD_ofNat_of_lt (n : Nat) {i : Nat} (hi : i < 64) : (BitVec.ofNat 64 n).getLsbD i = n.testBit i := by
  rw [BitVec.getLsbD_ofNat, decide_eq_true hi, Bool.true_and]

theorem bitsValue_testBit (l : List Bool) (i : Nat) : (bitsValue l).testBit i = l.getD i false := by
  induction l generalizing i with
  | nil => simp [bitsValue]
  | cons b l ih =>
    have hcons : bitsValue (b :: l) = Nat.bit b (bitsValue l) := by cases b <;> simp [bitsValue, Nat.bit, Nat.add_comm]
    cases i with
    | zero => simp [hcons]
    | succ i => simp [hcons, Nat.testBit_bit_succ, ih]

/-- A word is what its bits spell. -/
theorem eq_ofNat_bitsValue {w : Word} {f : Nat → Bool} (h : ∀ i < 64, w.getLsbD i = f i) :
    w = BitVec.ofNat 64 (bitsValue ((List.range 64).map f)) := by
  refine BitVec.eq_of_getLsbD_eq fun i hi => ?_
  rw [getLsbD_ofNat_of_lt _ hi, bitsValue_testBit, h i hi]
  simp [hi]

theorem ofBytes_testBit (l : List Byte) (i : Nat) : (ofBytes l).testBit i = (l.getD (i / 8) 0).getLsbD (i % 8) := by
  induction l generalizing i with
  | nil => simp [ofBytes]
  | cons b l ih =>
    have hsplit : ofBytes (b :: l) = 2 ^ 8 * ofBytes l + b.toNat := by simp only [ofBytes]; omega
    rw [hsplit, Nat.testBit_two_pow_mul_add _ b.isLt]
    by_cases hi : i < 8
    · simp [hi, Nat.div_eq_of_lt hi, Nat.mod_eq_of_lt hi, BitVec.testBit_toNat]
    · obtain ⟨j, rfl⟩ := Nat.exists_eq_add_of_le (Nat.not_lt.mp hi)
      simp [ih]

theorem toBytes_reverse_getD (w : Word) {j : Nat} (hj : j < 8) :
    (toBytes 8 w.toNat).reverse.getD j 0 = BitVec.ofNat 8 (w.toNat >>> (8 * (7 - j))) := by
  simp [toBytes, hj, List.getD_eq_getElem?_getD]

theorem getLsbD_setField (w : Word) (hi lo v : Nat) {i : Nat} (hi64 : i < 64) :
    (setField w hi lo v).getLsbD i = if lo ≤ i ∧ i ≤ hi then v.testBit (i - lo) else w.getLsbD i := by
  have hmask : (i ≥ lo ∧ i - lo < hi + 1 - lo) ↔ lo ≤ i ∧ i ≤ hi := by omega
  simp only [setField, BitVec.getLsbD_or, BitVec.getLsbD_and, BitVec.getLsbD_not, getLsbD_ofNat_of_lt _ hi64,
    Nat.testBit_shiftLeft, Nat.testBit_two_pow_sub_one, Nat.testBit_mod_two_pow, ← Bool.and_assoc, ← Bool.decide_and, hmask]
  split <;> rename_i h <;> simp [h, hi64]

theorem fieldOf_eq_div_mod (w : Word) (hi lo : Nat) : fieldOf w hi lo = w.toNat / 2 ^ lo % 2 ^ (hi + 1 - lo) := by
  rw [fieldOf, Nat.shiftRight_eq_div_pow]

/-- A field that reaches the top of the word needs no mask. -/
theorem fieldOf_top (w : Word) : fieldOf w 63 60 = w.toNat / 2 ^ 60 := by
  have := w.isLt
  rw [fieldOf_eq_div_mod]
  omega

/-! ### Arithmetic (05 Table 5.2) -/

theorem immS_toInt (i : BitVec 32) : (immS i).toInt = i.toInt := BitVec.toInt_signExtend_of_le (by decide)

theorem add_eq_ofInt (a b : Word) : a + b = BitVec.ofInt 64 (a.toInt + b.toInt) := by
  rw [BitVec.ofInt_add, BitVec.ofInt_toInt, BitVec.ofInt_toInt]

theorem sub_eq_ofInt (a b : Word) : a - b = BitVec.ofInt 64 (a.toInt - b.toInt) := by
  rw [Int.sub_eq_add_neg, BitVec.ofInt_add, BitVec.ofInt_neg, BitVec.ofInt_toInt, BitVec.ofInt_toInt, BitVec.sub_eq_add_neg]

theorem mul_eq_ofInt (a b : Word) : a * b = BitVec.ofInt 64 (a.toInt * b.toInt) := by
  rw [BitVec.ofInt_mul, BitVec.ofInt_toInt, BitVec.ofInt_toInt]

/-! ### Logic and shifts (05 Table 5.3) -/

theorem and_eq_ofNat (a b : Word) : a &&& b = BitVec.ofNat 64 (a.toNat &&& b.toNat) := by simp

theorem or_eq_ofNat (a b : Word) : a ||| b = BitVec.ofNat 64 (a.toNat ||| b.toNat) := by simp

theorem xor_eq_ofNat (a b : Word) : a ^^^ b = BitVec.ofNat 64 (a.toNat ^^^ b.toNat) := by simp

theorem and_not_eq_sub_and (a b : Word) : a &&& ~~~b = a - (a &&& b) := by
  have hparts : a &&& ~~~b ||| a &&& b = a := by
    ext i
    rw [BitVec.getElem_or, BitVec.getElem_and, BitVec.getElem_and, BitVec.getElem_not]
    cases a[i] <;> cases b[i] <;> rfl
  have hdisjoint : (a &&& ~~~b) &&& (a &&& b) = 0#64 := by
    ext i
    rw [BitVec.getElem_and, BitVec.getElem_and, BitVec.getElem_and, BitVec.getElem_not, BitVec.getElem_zero]
    cases a[i] <;> cases b[i] <;> rfl
  rw [eq_comm, BitVec.sub_eq_iff_eq_add, BitVec.add_eq_or_of_and_eq_zero _ _ hdisjoint, hparts]

theorem shiftLeft_eq_ofNat (w : Word) (n : Nat) : w <<< n = BitVec.ofNat 64 (w.toNat * 2 ^ n) :=
  BitVec.eq_of_toNat_eq (by rw [BitVec.toNat_shiftLeft, BitVec.toNat_ofNat, Nat.shiftLeft_eq])

theorem ushiftRight_eq_ofNat (w : Word) (n : Nat) : w >>> n = BitVec.ofNat 64 (w.toNat / 2 ^ n) := by
  rw [← Nat.shiftRight_eq_div_pow, ← BitVec.toNat_ushiftRight, BitVec.ofNat_toNat, BitVec.setWidth_eq]

theorem sshiftRight_eq_ofInt (w : Word) (n : Nat) : w.sshiftRight n = BitVec.ofInt 64 (w.toInt / 2 ^ n) := by
  rw [BitVec.sshiftRight, Int.shiftRight_eq_div_pow]
  rfl

/-! ### Minimum, maximum and absolute value (05 Table 5.3) -/

theorem minS_eq_ofInt (a b : Word) : minS a b = BitVec.ofInt 64 (min a.toInt b.toInt) := by
  simp only [minS, leS, min_def, decide_eq_true_eq, apply_ite (BitVec.ofInt 64), BitVec.ofInt_toInt]

theorem maxS_eq_ofInt (a b : Word) : maxS a b = BitVec.ofInt 64 (max a.toInt b.toInt) := by
  simp only [maxS, leS, max_def, decide_eq_true_eq, apply_ite (BitVec.ofInt 64), BitVec.ofInt_toInt]

theorem minZ_eq_ofNat (a b : Word) : minZ a b = BitVec.ofNat 64 (min a.toNat b.toNat) := by
  simp only [minZ, leZ, min_def, decide_eq_true_eq, apply_ite (BitVec.ofNat 64), BitVec.ofNat_toNat, BitVec.setWidth_eq]

theorem maxZ_eq_ofNat (a b : Word) : maxZ a b = BitVec.ofNat 64 (max a.toNat b.toNat) := by
  simp only [maxZ, leZ, max_def, decide_eq_true_eq, apply_ite (BitVec.ofNat 64), BitVec.ofNat_toNat, BitVec.setWidth_eq]

theorem abs_eq_ofNat_natAbs (a : Word) : (if ltS a 0 then -a else a) = BitVec.ofNat 64 a.toInt.natAbs := by
  have hcast : (a.toInt.natAbs : Int) = if a.toInt < 0 then -a.toInt else a.toInt := by split <;> omega
  have hzero : (0 : Word).toInt = 0 := BitVec.toInt_zero
  rw [← BitVec.ofInt_natCast, hcast]
  simp only [ltS, hzero, decide_eq_true_eq, apply_ite (BitVec.ofInt 64), BitVec.ofInt_neg, BitVec.ofInt_toInt]

/-! ### Counts of bits (05 Table 5.3) -/

theorem leadingZeros_eq (w : Word) : leadingZeros w = 64 - (if w = 0 then 0 else w.toNat.log2 + 1) := by
  unfold leadingZeros
  split <;> omega

/-- The numbers below `n` that come before the first without `p` are as many as that first is. -/
theorem length_takeWhile_range {p : Nat → Bool} {n t : Nat} (ht : t < n) (hp : p t = false) (hlow : ∀ j < t, p j = true) :
    ((List.range n).takeWhile p).length = t := by
  have hfirst : (List.range n).findIdx (fun a => !p a) = t := by
    rw [List.findIdx_eq (by simpa using ht)]
    simpa [hp] using hlow
  rw [List.takeWhile_eq_take_findIdx_not, hfirst, List.length_take, List.length_range, Nat.min_eq_left ht.le]

/-- A word and its negation share the lowest set bit only. -/
theorem and_neg_eq_twoPow {w : Word} {t : Nat} (ht : w.getLsbD t = true) (hlow : ∀ j < t, w.getLsbD j = false) :
    w &&& -w = BitVec.twoPow 64 t := by
  refine BitVec.eq_of_getLsbD_eq fun i hi => ?_
  rw [BitVec.getLsbD_and, BitVec.getLsbD_neg, BitVec.getLsbD_twoPow]
  rcases Nat.lt_trichotomy i t with hit | rfl | hti
  · simp [hlow i hit, hit.ne']
  · have hnone : ¬ ∃ j < i, w.getLsbD j = true := by grind
    simp [ht, hi, hnone]
  · have hsome : ∃ j < i, w.getLsbD j = true := ⟨t, hti, ht⟩
    simp [hi, hsome, hti.ne]

theorem trailingZeros_eq (w : Word) :
    trailingZeros w = ((List.range 64).takeWhile fun i => !w.getLsbD i).length := by
  unfold trailingZeros
  split
  case isTrue h => subst h; rfl
  case isFalse h =>
    have hbit : ∃ t, w.getLsbD t = true := by
      by_contra hn
      exact h (BitVec.eq_of_getLsbD_eq fun i _ => by simpa using fun e => hn ⟨i, e⟩)
    have hset := Nat.find_spec hbit
    have hlow : ∀ j < Nat.find hbit, w.getLsbD j = false := fun j hj => by simpa using Nat.find_min hbit hj
    have hlt : Nat.find hbit < 64 := BitVec.lt_of_getLsbD hset
    rw [and_neg_eq_twoPow hset hlow, BitVec.toNat_twoPow_of_lt hlt, Nat.log2_two_pow,
      length_takeWhile_range hlt (by simp [hset]) (fun j hj => by simp [hlow j hj])]

theorem popCount_eq (n v : Nat) : popCount n v = ((List.range n).filter v.testBit).length := by
  induction n generalizing v with
  | zero => rfl
  | succ n ih =>
    have hshift : (v / 2).testBit = v.testBit ∘ Nat.succ := by ext i; simp [Nat.testBit_succ]
    rw [popCount, ih, List.range_succ_eq_map, List.filter_cons, List.filter_map, hshift]
    rcases Nat.mod_two_eq_zero_or_one v with h | h <;> simp [h, Nat.testBit_zero, Nat.add_comm]

/-! ### Bytes and bit fields (05 Tables 5.3, 5.4) -/

theorem byteSwap_eq_ofNat (w : Word) : word (ofBytes (toBytes 8 w.toNat).reverse) =
    BitVec.ofNat 64 (bitsValue ((List.range 64).map fun i => w.getLsbD (8 * (7 - i / 8) + i % 8))) := by
  refine eq_ofNat_bitsValue fun i hi => ?_
  have hk : i % 8 < 8 := Nat.mod_lt _ (by decide)
  rw [word, getLsbD_ofNat_of_lt _ hi, ofBytes_testBit, toBytes_reverse_getD w (by omega), BitVec.getLsbD_ofNat,
    decide_eq_true hk, Bool.true_and, Nat.testBit_shiftRight, BitVec.testBit_toNat]

/-- An extracted field as a signed number: its highest bit counts negative. -/
theorem signExtend_extractBits (w : Word) (p n : Nat) :
    (BitVec.ofNat (n + 1) (extractBits w p n)).signExtend 64 =
      BitVec.ofInt 64 ((w.toNat / 2 ^ p % 2 ^ (n + 1) : Nat) - (if w.getLsbD (p + n) then 2 ^ (n + 1) else 0)) := by
  have hmsb : (BitVec.ofNat (n + 1) (extractBits w p n)).msb = w.getLsbD (p + n) := by
    rw [BitVec.msb_eq_getLsbD_last, BitVec.getLsbD_ofNat, extractBits, Nat.testBit_mod_two_pow, Nat.testBit_div_two_pow,
      BitVec.testBit_toNat]
    simp [Nat.add_comm]
  rw [BitVec.signExtend, BitVec.toInt_eq_msb_cond, hmsb, BitVec.toNat_ofNat, extractBits, Nat.mod_mod]
  split <;> simp

theorem insertBits_eq_ofNat (d a : Word) (p n : Nat) : setField d (p + n) p a.toNat =
    BitVec.ofNat 64 (bitsValue ((List.range 64).map fun i => if p ≤ i ∧ i ≤ p + n then a.getLsbD (i - p) else d.getLsbD i)) :=
  eq_ofNat_bitsValue fun _ hi => getLsbD_setField d _ _ _ hi

theorem insertLane_eq_ofNat (d : Word) (lane : Nat) (i : BitVec 16) : setField d (16 * lane + 15) (16 * lane) i.toNat =
    BitVec.ofNat 64 (bitsValue ((List.range 64).map fun j => if j / 16 = lane then i.getLsbD (j % 16) else d.getLsbD j)) := by
  refine eq_ofNat_bitsValue fun j hj => ?_
  have hlane : 16 * lane ≤ j ∧ j ≤ 16 * lane + 15 ↔ j / 16 = lane := by omega
  rw [getLsbD_setField d _ _ _ hj]
  simp only [hlane]
  split
  · have hbit : j - 16 * lane = j % 16 := by omega
    rw [hbit, BitVec.testBit_toNat]
  · rfl

theorem insertHigh_eq_append (d : Word) (i : BitVec 32) : setField d 63 32 i.toNat = i ++ d.setWidth 32 := by
  refine BitVec.eq_of_getLsbD_eq fun j hj => ?_
  rw [getLsbD_setField d _ _ _ hj, BitVec.getLsbD_append]
  by_cases hlow : j < 32
  · have : ¬ (32 ≤ j ∧ j ≤ 63) := by omega
    simp [this, hlow]
  · have : 32 ≤ j ∧ j ≤ 63 := by omega
    simp [this, hlow, BitVec.testBit_toNat]

theorem signedOf_toNat (n : Nat) (w : Word) : signedOf n w.toNat = BitVec.ofInt 64 (w.setWidth (8 * n)).toInt := by
  rw [signedOf, BitVec.ofNat_toNat]

end Sys2Proof.Machine
end

section
/-! Integer, logic, shift and move instructions, PGET and SLKGET (05 R93-R96, R103, 14 R328). -/

namespace Sys2Proof.Machine

theorem State.rp_eq_true_iff (s : State) (c : PredReg) : s.rp c = true ↔ c = 0 ∨ s.cur.pred.getLsbD c.toNat = true := by
  simp [State.rp]

/-- What each of these instructions does: the result of the tables goes to its destination as a result of its latency. An arm
without a lemma is one where the model and the tables write the same operation. -/
theorem exec_intResult {s : State} {i : Instr} {d : Reg} {v : Word} (h : intResult s i = some (d, v)) :
    exec i s = s.alu (latency i) d v := by
  unfold intResult at h
  split at h <;> cases h
  -- ADD to MULH.z
  · exact congrArg (s.alu 1 _) (add_eq_ofInt ..)
  · exact congrArg (s.alu 1 _) (sub_eq_ofInt ..)
  · rw [← immS_toInt]; exact congrArg (s.alu 1 _) (add_eq_ofInt ..)
  · exact congrArg (s.alu 3 _) (mul_eq_ofInt ..)
  · rw [← immS_toInt]; exact congrArg (s.alu 3 _) (mul_eq_ofInt ..)
  · rfl
  · rfl
  -- AND to XORI
  · exact congrArg (s.alu 1 _) (and_eq_ofNat ..)
  · exact congrArg (s.alu 1 _) (or_eq_ofNat ..)
  · exact congrArg (s.alu 1 _) (xor_eq_ofNat ..)
  · exact congrArg (s.alu 1 _) (and_not_eq_sub_and ..)
  · rfl
  · rfl
  · rfl
  -- SHL to ROTI
  · exact congrArg (s.alu 1 _) (shiftLeft_eq_ofNat ..)
  · exact congrArg (s.alu 1 _) (shiftLeft_eq_ofNat ..)
  · exact congrArg (s.alu 1 _) (ushiftRight_eq_ofNat ..)
  · exact congrArg (s.alu 1 _) (ushiftRight_eq_ofNat ..)
  · exact congrArg (s.alu 1 _) (sshiftRight_eq_ofInt ..)
  · exact congrArg (s.alu 1 _) (sshiftRight_eq_ofInt ..)
  · rfl
  · rfl
  -- MIN, MAX and ABS
  · exact congrArg (s.alu 1 _) (minS_eq_ofInt ..)
  · exact congrArg (s.alu 1 _) (minZ_eq_ofNat ..)
  · exact congrArg (s.alu 1 _) (maxS_eq_ofInt ..)
  · exact congrArg (s.alu 1 _) (maxZ_eq_ofNat ..)
  · exact congrArg (s.alu 1 _) (abs_eq_ofNat_natAbs _)
  -- CLZ to SEXT.32
  · exact congrArg (fun n => s.alu 1 _ (word n)) (leadingZeros_eq _)
  · exact congrArg (fun n => s.alu 1 _ (word n)) (trailingZeros_eq _)
  · exact congrArg (fun n => s.alu 1 _ (word n)) (popCount_eq 64 _)
  · exact congrArg (s.alu 1 _) (byteSwap_eq_ofNat _)
  · rfl
  · exact congrArg (s.alu 1 _) (signExtend_extractBits ..)
  · exact congrArg (s.alu 1 _) (insertBits_eq_ofNat ..)
  · exact congrArg (s.alu 1 _) (signedOf_toNat 1 _)
  · exact congrArg (s.alu 1 _) (signedOf_toNat 2 _)
  · exact congrArg (s.alu 1 _) (signedOf_toNat 4 _)
  -- MOVI to SEL
  · rfl
  · exact congrArg (s.alu 1 _) (insertLane_eq_ofNat ..)
  · exact congrArg (s.alu 1 _) (insertHigh_eq_append ..)
  · exact congrArg (s.alu 1 _) (if_congr (s.rp_eq_true_iff _) rfl rfl)
  -- PGET, SLKGET
  · exact congrArg (fun n => s.alu 1 _ (word n)) (fieldOf_top _)
  · exact congrArg (fun n => s.alu 1 _ (word n)) (fieldOf_eq_div_mod _ 59 57)
  · exact congrArg (fun n => s.alu 1 _ (word n)) (fieldOf_eq_div_mod _ 56 55)
  · rfl
  · rfl
  · exact congrArg (s.alu 1 _) (BitVec.ofNat_toNat 64 _)

/-- Settles O1: each instruction writes the result of its table, and what such a write does is said once for all of them. -/
theorem integerResults : Obligations.IntegerResults := by
  intro s i d v hslot hresult
  obtain ⟨hvalue, honly⟩ := s.putX_spec hslot (latency i) d v
  exact ⟨s.putX (latency i) d v, exec_intResult hresult, hvalue, State.me_modMe s _ hslot, honly⟩

end Sys2Proof.Machine
end
